-- ==== Sys2Proof/Word.lean ====
section
/-! DEFINITION. The words of the FL-462: bytes of frames, 16-bit and 32-bit quantities, and chamber time. Seat numbers (1 to 480, 0 where a seat is
absent, 11.3) and moments of the internal timer (microseconds, R123, notes/assumptions/3.md) are plain Nat. -/

namespace Sys2Proof

/-- One byte of a link frame or a station frame (11.1). -/
abbrev Byte := BitVec 8

/-- A 16-bit quantity: the check (R184), the list version (R22), a set of event flags (11.3). -/
abbrev Half := BitVec 16

/-- A 32-bit quantity: a notice detail (11.5), the draw state (R29). -/
abbrev Word := BitVec 32

/-- A value of chamber time, a wrapping count of 100 ms ticks (R121). -/
abbrev ChamberTime := BitVec 32

end Sys2Proof
end

