-- ==== Sys2Proof/Config.lean ====
section
/-! DEFINITION. What the FL-462 fixes: its capacities (00_scope.md, Capacities), the spans of time its rules compare, and the
free values, which the manual leaves open. -/

namespace Sys2Proof.Config

/-- Seats, numbered 1 to 480. -/
abbrev seats : Nat := 480
/-- Stations per trunk, at positions 1 to 120. -/
abbrev positions : Nat := 120
/-- Request list entries. -/
abbrev listCapacity : Nat := 64
/-- Reply list entries. -/
abbrev replyCapacity : Nat := 8
/-- Frames of the interruption stack. -/
abbrev stackCapacity : Nat := 4
/-- Capture records per trunk. -/
abbrev fifoCapacity : Nat := 24
/-- Records of a notice queue. -/
abbrev noticeCapacity : Nat := 32
/-- REJECT frames that may wait in a transmit queue (R162). -/
abbrev rejectCapacity : Nat := 4
/-- Codes of a label (R12). -/
abbrev labelCapacity : Nat := 24
/-- The longest allowance, remaining time and extension, in ticks (R80, R82). -/
abbrev maxTicks : Nat := 36000
/-- The longest result of a reply, in bytes (R186). -/
abbrev maxResult : Nat := 249

/-- Microseconds in a millisecond. -/
abbrev ms : Nat := 1000
/-- An internal tick comes this long after the last tick (R123). -/
abbrev tickSpan : Nat := 100 * ms
/-- The shortest interval of a qualifying pulse and of a pulse that ticks in EXTERNAL (R124, R125). -/
abbrev pulseLow : Nat := 95 * ms
/-- The longest interval of a qualifying pulse (R124). -/
abbrev pulseHigh : Nat := 105 * ms
/-- The twentieth pulse ticks when this long has passed since the last tick (R124). -/
abbrev joinSpan : Nat := 45 * ms
/-- The fallback tick comes this long after the last tick (R125). -/
abbrev fallbackSpan : Nat := 150 * ms
/-- Pulses that qualify the reference (R124). -/
abbrev qualifyCount : Nat := 20
/-- The receiver ends a frame after more than this silence (R160). -/
abbrev silenceSpan : Nat := 20 * ms
/-- The wait for a TALLY (R139). -/
abbrev tallySpan : Nat := 50 * ms
/-- The idle line that ends an answer (R187). -/
abbrev idleSpan : Nat := 30
/-- The time of one byte on a trunk (11.6). -/
abbrev byteSpan : Nat := 10

/-- FREE VALUE (notes/assumptions/13.md). R126 lets the TIMEBASE notice of a change of source that comes together with an
advance be stored before or after the advance; this says which, for the draw's number. Nothing constrains it. -/
opaque noticeBeforeAdvance : Nat → Bool

/-- FREE VALUE (notes/assumptions/14.md). The four bytes of a chamber time that a reply marks absent by a flag bit alone
(R185): the reply's number and the field's place in it. Nothing constrains it. -/
opaque absentTime : Nat → Nat → Word

end Sys2Proof.Config
end

