-- ==== Sys2Proof/Syntax.lean ====
section
/-! DEFINITION. The commands and events of the FL-462: one constructor of Instr for each row of spec/opcode_table.json, in the
table's order. A row in which the interpreter takes a command has the link as its operand: the command's arguments are the
bytes of the port's held command (R163 to R165; notes/assumptions/7.md). -/

namespace Sys2Proof

/-- Link A and Link B (R159). -/
inductive Link where
  | a
  | b
  deriving DecidableEq, Repr

/-- The other link. -/
def Link.other : Link → Link
  | .a => .b
  | .b => .a

/-- A trunk, 0 to 3 (00_scope.md, Terms). -/
abbrev TrunkNo := Fin 4

/-- The steps of the FL-462, one constructor per row of spec/opcode_table.json. -/
inductive Instr where
  /-- DEVICE_RESET: RSTN goes low (R173). The reset that follows a RESTART reply is part of REPLY_SENT. -/
  | deviceReset
  /-- HOLD_INPUT_CHANGE: the HOLD input takes the level given (R25). -/
  | holdInputChange (high : Bool)
  /-- INTERNAL_TICK: the internal timer makes a tick (R123). -/
  | internalTick
  /-- TREF_PULSE: a rising edge on TREF at moment m (R124, R125). -/
  | trefPulse (m : Nat)
  /-- FALLBACK_TICK: 150 ms have passed since the last tick with no pulse (R125). -/
  | fallbackTick
  /-- INTAKE: the Floor Engine takes an advance as its intake (R25, R31). -/
  | intake
  /-- DEADLINE_PASS: the Floor Engine takes an advance as its deadline pass (R76). -/
  | deadlinePass
  /-- DISPLACEMENT_CHECK: the Floor Engine takes an advance as its displacement check (R52). -/
  | displacementCheck
  /-- REFUSAL_END: the Seat Table takes an advance (R18). -/
  | refusalEnd
  /-- ALARM_CHECK: the Time Base takes an advance as its alarm check (R131). -/
  | alarmCheck
  /-- BEAT: the Time Base takes an advance as its beat count (R130). -/
  | beat
  /-- SILENCE_MEASURE: the Link Ports take an advance as their silence measure (R169). -/
  | silenceMeasure
  /-- LINK_FRAME_COMPLETE: b, received at m, is the last byte of a frame (R160, R163). -/
  | linkFrameComplete (l : Link) (b : Byte) (m : Nat)
  /-- LEN_REJECT: b, received at m, is a LEN below 2 or above 252 (R160). -/
  | lenReject (l : Link) (b : Byte) (m : Nat)
  /-- LINK_FRAME_TIMEOUT: more than 20 ms of silence inside a frame (R160). -/
  | linkFrameTimeout (l : Link)
  /-- REPLY_SENT: the last byte of a reply has been sent (R163, R173). -/
  | replySent (l : Link)
  /-- UNKNOWN_COMMAND: the interpreter takes a held command whose kind names no command (R165). -/
  | unknownCommand (l : Link)
  /-- IDENTIFY: the interpreter takes the held command of link l (R172). -/
  | identify (l : Link)
  /-- RESTART: the interpreter takes the held command of link l (R173). -/
  | restart (l : Link)
  /-- AUTHORITY_HAND: the interpreter takes the held command of link l (R168). -/
  | authorityHand (l : Link)
  /-- AUTHORITY_CLAIM: the interpreter takes the held command of link l (R170). -/
  | authorityClaim (l : Link)
  /-- LINK_CONFIG: the interpreter takes the held command of link l (R171). -/
  | linkConfig (l : Link)
  /-- SEAT_BIND: the interpreter takes the held command of link l (R4, R5). -/
  | seatBind (l : Link)
  /-- SEAT_UNBIND: the interpreter takes the held command of link l (R6). -/
  | seatUnbind (l : Link)
  /-- SEAT_ENABLE: the interpreter takes the held command of link l (R7). -/
  | seatEnable (l : Link)
  /-- SEAT_LABEL: the interpreter takes the held command of link l (R12, R13). -/
  | seatLabel (l : Link)
  /-- SEAT_READ: the interpreter takes the held command of link l (R14). -/
  | seatRead (l : Link)
  /-- MARKS_CLEAR: the interpreter takes the held command of link l (R11). -/
  | marksClear (l : Link)
  /-- LIST_INSERT: the interpreter takes the held command of link l (R36, R37). -/
  | listInsert (l : Link)
  /-- LIST_REMOVE: the interpreter takes the held command of link l (R38). -/
  | listRemove (l : Link)
  /-- LIST_MOVE: the interpreter takes the held command of link l (R39). -/
  | listMove (l : Link)
  /-- LIST_CLEAR: the interpreter takes the held command of link l (R40). -/
  | listClear (l : Link)
  /-- LIST_SHUFFLE: the interpreter takes the held command of link l (R41). -/
  | listShuffle (l : Link)
  /-- LIST_GATE: the interpreter takes the held command of link l (R42). -/
  | listGate (l : Link)
  /-- LIST_READ: the interpreter takes the held command of link l (R43). -/
  | listRead (l : Link)
  /-- INTAKE_HOLD: the interpreter takes the held command of link l (R35). -/
  | intakeHold (l : Link)
  /-- SEED: the interpreter takes the held command of link l (R29). -/
  | seed (l : Link)
  /-- FLOOR_OPEN: the interpreter takes the held command of link l (R64). -/
  | floorOpen (l : Link)
  /-- FLOOR_HALT: the interpreter takes the held command of link l (R65). -/
  | floorHalt (l : Link)
  /-- FLOOR_CLEAR: the interpreter takes the held command of link l (R66). -/
  | floorClear (l : Link)
  /-- GRANT_NEXT: the interpreter takes the held command of link l (R54, R55). -/
  | grantNext (l : Link)
  /-- GRANT_SEAT: the interpreter takes the held command of link l (R54, R55). -/
  | grantSeat (l : Link)
  /-- CLOSE_SEAT: the interpreter takes the held command of link l (R56). -/
  | closeSeat (l : Link)
  /-- CLOSE_ALL: the interpreter takes the held command of link l (R57). -/
  | closeAll (l : Link)
  /-- FLOOR_READ: the interpreter takes the held command of link l (R67). -/
  | floorRead (l : Link)
  /-- POLICY_SET: the interpreter takes the held command of link l (R69). -/
  | policySet (l : Link)
  /-- POLICY_READ: the interpreter takes the held command of link l (R71). -/
  | policyRead (l : Link)
  /-- EXTEND: the interpreter takes the held command of link l (R82 to R84). -/
  | extend (l : Link)
  /-- REPLY_READ: the interpreter takes the held command of link l (R97). -/
  | replyRead (l : Link)
  /-- REPLY_REMOVE: the interpreter takes the held command of link l (R98). -/
  | replyRemove (l : Link)
  /-- REPLY_END: the interpreter takes the held command of link l (R99). -/
  | replyEnd (l : Link)
  /-- SUSPEND: the interpreter takes the held command of link l (R103). -/
  | suspend (l : Link)
  /-- RESUME: the interpreter takes the held command of link l (R111). -/
  | resume (l : Link)
  /-- STACK_READ: the interpreter takes the held command of link l (R120). -/
  | stackRead (l : Link)
  /-- TIME_SET: the interpreter takes the held command of link l (R128). -/
  | timeSet (l : Link)
  /-- TIME_READ: the interpreter takes the held command of link l (R129). -/
  | timeRead (l : Link)
  /-- TIMEBASE_MODE: the interpreter takes the held command of link l (R127). -/
  | timebaseMode (l : Link)
  /-- ALARM_SET: the interpreter takes the held command of link l (R132). -/
  | alarmSet (l : Link)
  /-- ALARM_CLEAR: the interpreter takes the held command of link l (R133). -/
  | alarmClear (l : Link)
  /-- TRUNK_ENABLE: the interpreter takes the held command of link l (R155). -/
  | trunkEnable (l : Link)
  /-- TRUNK_ENUMERATE: the interpreter takes the held command of link l (R155). -/
  | trunkEnumerate (l : Link)
  /-- TRUNK_DISABLE: the interpreter takes the held command of link l (R154, R155). -/
  | trunkDisable (l : Link)
  /-- TRUNK_CONFIG: the interpreter takes the held command of link l (R156). -/
  | trunkConfig (l : Link)
  /-- TRUNK_READ: the interpreter takes the held command of link l (R158). -/
  | trunkRead (l : Link)
  /-- COUNTS_CLEAR: the interpreter takes the held command of link l (R157). -/
  | countsClear (l : Link)
  /-- TAKE_EVENTS: the interpreter takes the held command of link l (R175). -/
  | takeEvents (l : Link)
  /-- TAKE_NOTICES: the interpreter takes the held command of link l (R180). -/
  | takeNotices (l : Link)
  /-- ATTN_MASK: the interpreter takes the held command of link l (R176). -/
  | attnMask (l : Link)
  /-- NOTICE_FILTER: the interpreter takes the held command of link l (R181). -/
  | noticeFilter (l : Link)
  /-- LINES_SET: the interpreter takes the held command of link l (R183). -/
  | linesSet (l : Link)
  /-- TALLY_RECEIVED: the bytes arrive in the TALLY wait, the last ending at m (R139). -/
  | tallyReceived (t : TrunkNo) (bytes : List Byte) (m : Nat)
  /-- TALLY_WAIT_EXPIRY: 50 ms without a valid TALLY (R139). -/
  | tallyWaitExpiry (t : TrunkNo)
  /-- PROBE: the engine sends the next probe (R140). -/
  | probe (t : TrunkNo)
  /-- PROBE_ANSWER: a valid answer to the probe in flight, ending at m (R140). -/
  | probeAnswer (t : TrunkNo) (bytes : List Byte) (m : Nat)
  /-- SWEEP_START: a sweep starts (R143). -/
  | sweepStart (t : TrunkNo)
  /-- SWEEP_POLL: the engine sends the next POLL of the sweep (R143). -/
  | sweepPoll (t : TrunkNo)
  /-- SEND_BEAT: the waiting beat is sent (R145). -/
  | sendBeat (t : TrunkNo)
  /-- SERVE_PENDING: the oldest pending entry is served (R147). -/
  | servePending (t : TrunkNo)
  /-- STATUS_ANSWER: a valid answer to the POLL or LABEL in flight, ending at m (R148). -/
  | statusAnswer (t : TrunkNo) (bytes : List Byte) (m : Nat)
  /-- ANSWER_FAULT: an answer that fails its check or its format, ending at m (R136). -/
  | answerFault (t : TrunkNo) (bytes : List Byte) (m : Nat)
  /-- ANSWER_WAIT_EXPIRY: the answer wait runs out (R136, R151). -/
  | answerWaitExpiry (t : TrunkNo)
  /-- RESET_RELEASE: RSTN returns high at moment m with the straps at these levels (R159, R176). -/
  | resetRelease (baud1 baud0 : Bool) (m : Nat)
  /-- LINK_BYTE: byte b is received on link l at moment m (R160). -/
  | linkByte (l : Link) (b : Byte) (m : Nat)
  /-- REJECT_SENT: the last byte of a REJECT frame has been sent (R162). -/
  | rejectSent (l : Link)
  deriving DecidableEq, Repr

end Sys2Proof
end

