-- ==== Sys2Proof/WellFormed.lean ====
section
/-! DEFINITION. Well-formed events. Links, trunks and bytes are in range by their types. What is left to check: an answer on a
trunk is "the bytes received from the first start bit after its own frame" (R187), so it holds at least one byte; and what the
row LEN_REJECT says of the byte it carries (R160). Every other event is well formed as it stands. -/

namespace Sys2Proof

/-- The event can occur as its row of the table describes it. -/
def Instr.wellFormed : Instr → Bool
  | .tallyReceived _ bytes _ => !bytes.isEmpty
  | .probeAnswer _ bytes _ => !bytes.isEmpty
  | .statusAnswer _ bytes _ => !bytes.isEmpty
  | .answerFault _ bytes _ => !bytes.isEmpty
  | .lenReject _ b _ => decide (b.toNat < 2 ∨ 252 < b.toNat)
  | .deviceReset | .holdInputChange _ | .internalTick | .trefPulse _ | .fallbackTick | .intake | .deadlinePass
  | .displacementCheck | .refusalEnd | .alarmCheck | .beat | .silenceMeasure | .linkFrameComplete _ _ _
  | .linkFrameTimeout _ | .replySent _ | .unknownCommand _ | .identify _ | .restart _ | .authorityHand _
  | .authorityClaim _ | .linkConfig _ | .seatBind _ | .seatUnbind _ | .seatEnable _ | .seatLabel _ | .seatRead _
  | .marksClear _ | .listInsert _ | .listRemove _ | .listMove _ | .listClear _ | .listShuffle _ | .listGate _
  | .listRead _ | .intakeHold _ | .seed _ | .floorOpen _ | .floorHalt _ | .floorClear _ | .grantNext _
  | .grantSeat _ | .closeSeat _ | .closeAll _ | .floorRead _ | .policySet _ | .policyRead _ | .extend _
  | .replyRead _ | .replyRemove _ | .replyEnd _ | .suspend _ | .resume _ | .stackRead _ | .timeSet _ | .timeRead _
  | .timebaseMode _ | .alarmSet _ | .alarmClear _ | .trunkEnable _ | .trunkEnumerate _ | .trunkDisable _
  | .trunkConfig _ | .trunkRead _ | .countsClear _ | .takeEvents _ | .takeNotices _ | .attnMask _ | .noticeFilter _
  | .linesSet _ | .tallyWaitExpiry _ | .probe _ | .sweepStart _ | .sweepPoll _ | .sendBeat _ | .servePending _
  | .answerWaitExpiry _ | .resetRelease _ _ _ | .linkByte _ _ _ | .rejectSent _ => true

end Sys2Proof
end

