-- ==== Sys2Proof/Decode.lean ====
section
/-! DEFINITION. spec/opcode_table.json gives no row of the FL-462 any bits: its rows are events and link commands, and a link
command is spelled by the bytes of its frame (11.2, 11.4), which the Link Port assembles. So no table word spells a row. -/

namespace Sys2Proof

/-- The row a table word spells: none, since the table gives no row bits. -/
def decodeTableWord (_nbits _w : Nat) : Option Instr := none

end Sys2Proof
end

