-- ==== Sys2Proof/Machine/State.lean ====
section
/-! DEFINITION. The state of the FL-462, block by block (00_scope.md, Functional blocks), as plain data, and its value right
after a device reset. What the manual derives from other state (floor state R15, principal R48, position map R2, receiver
R159, the ATTN and STAT levels R176 and R182) is computed where it is read (notes/assumptions/20.md). -/

namespace Sys2Proof.Machine

/-! ### The Seat Table (chapter 1) -/

/-- A seat's class (R3). -/
inductive SeatClass where
  | delegate | chair | president | listener
  deriving DecidableEq, Repr

/-- What the trunks last learned of a seat's station (R8). -/
inductive Presence where
  | absent | unconfirmed | present | fading
  deriving DecidableEq, Repr

/-- What the station at a position says it is (R9). -/
inductive StationKind where
  | delegateStation | chairStation
  deriving DecidableEq, Repr

/-- A lamp state (R16, R17). -/
inductive Lamp where
  | off | live | warn | first | wait | held | refused
  deriving DecidableEq, Repr

/-- A seat's commanded microphone gate (true: OPEN) and lamp (R16). -/
structure Image where
  micOpen : Bool
  lamp : Lamp
  deriving DecidableEq, Repr

/-- SHUT and OFF: the image of an unbound seat (R16). -/
abbrev Image.dark : Image := ⟨false, .off⟩

/-- Where a bound seat is bound, and its class (R1). -/
structure Binding where
  trunk : TrunkNo
  position : Nat
  cls : SeatClass
  deriving DecidableEq, Repr

/-- One record of the Seat Table (R1). The seat is bound exactly when it has a binding. -/
structure SeatRecord where
  binding : Option Binding
  enabled : Bool
  label : Option (List Byte)
  presence : Presence
  kind : Option StationKind
  overtimeMark : Bool
  grantCount : Nat
  micFaultMark : Bool
  refusalUntil : Option ChamberTime
  image : Image
  deriving DecidableEq, Repr

/-- The reset value of every record (R1). -/
def SeatRecord.initial : SeatRecord :=
  { binding := none, enabled := true, label := none, presence := .absent, kind := none, overtimeMark := false,
    grantCount := 0, micFaultMark := false, refusalUntil := none, image := .dark }

/-- The six buttons (R3). -/
inductive Button where
  | req | rpl | mic | next | cut | prio
  deriving DecidableEq, Repr

/-- What a seat is doing on the floor (R15). -/
inductive FloorState where
  | idle | waiting | replyWaiting | live | chairLive | held
  deriving DecidableEq, Repr

/-! ### The Floor Engine (chapters 2 to 6) -/

/-- The floor phase (R46). -/
inductive Phase where
  | openFloor | replyRound | interrupted | halted
  deriving DecidableEq, Repr

/-- The kind of a delegate slot (R47). -/
inductive SlotKind where
  | speak | reply
  deriving DecidableEq, Repr

/-- The origin of a slot or a request list entry (R20, R47). -/
inductive Origin where
  | auto | host | chair | button
  deriving DecidableEq, Repr

/-- The state of a chair slot; CLOSED only in a stack frame's record of it (R58, R100). -/
inductive ChairState where
  | closed | mic | priority
  deriving DecidableEq, Repr

/-- Why a slot was released or an entry left a list (R23, R53, R88). -/
inductive Reason where
  | self | chair | host | time | evict | absent | trunk | halt | limit | clear | disable | unbind | bumped | cancel
  deriving DecidableEq, Repr

/-- Why a button event was refused (11.3). -/
inductive PressRefusal where
  | listClosed | listFull | quota | disabled | held | phase | cls | noTarget | replyFull | chairBusy | floorFull | empty
  | seatBusy | notSelfClose | policy
  deriving DecidableEq, Repr

/-- An open delegate slot; its index is its place (R47). -/
structure DelegateSlot where
  seat : Nat
  kind : SlotKind
  origin : Origin
  grantedAt : ChamberTime
  allowance : Nat
  deadline : Option ChamberTime
  warnAt : Option ChamberTime
  overtime : Bool
  deriving DecidableEq, Repr

/-- An open chair slot; its index is its place (R58). -/
structure ChairSlot where
  seat : Nat
  openedAt : ChamberTime
  mode : ChairState
  deriving DecidableEq, Repr

/-- An entry of the request list (R20). -/
structure RequestEntry where
  seat : Nat
  origin : Origin
  stamp : ChamberTime
  allowance : Option Nat
  deriving DecidableEq, Repr

/-- An entry of the reply list (R86). -/
structure ReplyEntry where
  seat : Nat
  target : Nat
  stamp : ChamberTime
  deriving DecidableEq, Repr

/-- A held slot record of a stack frame (R100, R80); remaining is none when UNLIMITED. -/
structure HeldSlot where
  seat : Nat
  kind : SlotKind
  origin : Origin
  remaining : Option Nat
  overtime : Bool
  warned : Bool
  deriving DecidableEq, Repr

/-- A held reply entry of a stack frame (R100). -/
structure HeldReply where
  seat : Nat
  target : Nat
  deriving DecidableEq, Repr

/-- Who pushed a stack frame (R100). -/
inductive Source where
  | seat (n : Nat)
  | link (l : Link)
  deriving DecidableEq, Repr

/-- A frame of the interruption stack (R100). -/
structure StackFrame where
  source : Source
  pushedAt : ChamberTime
  savedPhase : Phase
  subject : Option Nat
  records : List HeldSlot
  entries : List HeldReply
  chairState : Option ChairState
  deriving DecidableEq, Repr

/-- GRANT_MODE (R68). -/
inductive GrantMode where
  | auto | manual
  deriving DecidableEq, Repr

/-- FULL_POLICY (R68). -/
inductive FullPolicy where
  | wait | displace
  deriving DecidableEq, Repr

/-- TIE_ORDER (R68). -/
inductive TieOrder where
  | seat | draw
  deriving DecidableEq, Repr

/-- EXPIRY_ACTION (R68). -/
inductive ExpiryAction where
  | warn | close
  deriving DecidableEq, Repr

/-- The policy store (R68). -/
structure Policy where
  floorMax : Nat
  grantMode : GrantMode
  fullPolicy : FullPolicy
  minTenure : Nat
  selfClose : Bool
  chairNext : Bool
  listMax : Nat
  tieOrder : TieOrder
  grantQuota : Nat
  replyMax : Nat
  speakAllow : Nat
  replyAllow : Nat
  warnLead : Nat
  expiryAction : ExpiryAction
  refuseShow : Nat
  deriving DecidableEq, Repr

/-- The policy fields' reset values (R68). -/
def Policy.initial : Policy :=
  { floorMax := 2, grantMode := .manual, fullPolicy := .wait, minTenure := 100, selfClose := true, chairNext := true,
    listMax := 64, tieOrder := .seat, grantQuota := 0, replyMax := 4, speakAllow := 0, replyAllow := 600, warnLead := 300,
    expiryAction := .warn, refuseShow := 15 }

/-- The list gate (R24). -/
inductive Gate where
  | opened | closed
  deriving DecidableEq, Repr

/-- The intake hold state set by INTAKE HOLD (R25, R35). -/
inductive Hold where
  | released | held
  deriving DecidableEq, Repr

/-- The Floor Engine's collections. The stack is listed top first. -/
structure Floor where
  phase : Phase
  subject : Option Nat
  slots : Vector (Option DelegateSlot) 6
  chairs : Vector (Option ChairSlot) 2
  requests : List RequestEntry
  listVersion : Half
  gate : Gate
  replies : List ReplyEntry
  stack : List StackFrame
  policy : Policy
  hold : Hold
  draw : Word
  deriving DecidableEq, Repr

/-- The Floor Engine after a device reset (R20, R22, R24, R25, R29, R46, R47, R58, R68, R86, R87, R100). -/
def Floor.initial : Floor :=
  { phase := .halted, subject := none, slots := Vector.replicate 6 none, chairs := Vector.replicate 2 none, requests := [],
    listVersion := 0, gate := .opened, replies := [], stack := [], policy := .initial, hold := .released,
    draw := 0x5D1CA7E3#32 }

/-! ### The Time Base (chapter 7) -/

/-- The time base mode (R123). -/
inductive TimeMode where
  | internal | auto
  deriving DecidableEq, Repr

/-- The source of ticks (R123). -/
inductive TickSource where
  | internal | qualifying | external
  deriving DecidableEq, Repr

/-- What an alarm does when it fires (R131). -/
inductive AlarmAction where
  | none | haltFloor | closeList
  deriving DecidableEq, Repr

/-- An alarm point (R131). -/
structure Alarm where
  armed : Bool
  target : ChamberTime
  action : AlarmAction
  deriving DecidableEq, Repr

/-- The Time Base (R121, R123, R130, R131). -/
structure TimeBase where
  chamberTime : ChamberTime
  mode : TimeMode
  source : TickSource
  count : Nat
  lastTick : Nat
  lastPulse : Option Nat
  beatCount : Fin 5
  beatPhase : BitVec 2
  alarms : Vector Alarm 3
  deriving DecidableEq, Repr

/-- The Time Base after a device reset released at moment m (R121, R123, R130, R131). -/
def TimeBase.initial (m : Nat) : TimeBase :=
  { chamberTime := 0, mode := .auto, source := .internal, count := 0, lastTick := m, lastPulse := none, beatCount := 0,
    beatPhase := 0, alarms := Vector.replicate 3 ⟨false, 0, .none⟩ }

/-! ### The Trunk Engines (chapter 8) -/

/-- A trunk's state (R135). -/
inductive TrunkState where
  | down | enumerating | running | fault
  deriving DecidableEq, Repr

/-- The protocol state of the station at one position (R134). -/
structure PositionState where
  toggle : Bool
  miss : Nat
  mismatch : Bool
  deriving DecidableEq, Repr

/-- A position's state after a device reset, at enumeration start and at DISABLE (R134, R138, R154). -/
abbrev PositionState.initial : PositionState := ⟨false, 0, false⟩

/-- An entry of the pending update list (R146). -/
structure PendingUpdate where
  position : Nat
  label : Bool
  deriving DecidableEq, Repr

/-- The press counts of a report, by the kind of its station (R152). -/
inductive PressCounts where
  | delegate (req rpl : BitVec 4)
  | chair (mic next cut prio : BitVec 4)
  deriving DecidableEq, Repr

/-- A capture record (R152); its station kind is the kind of its counts. -/
structure CaptureRecord where
  trunk : TrunkNo
  position : Nat
  seat : Nat
  counts : PressCounts
  stamp : ChamberTime
  deriving DecidableEq, Repr

/-- What a Trunk Engine is about: nothing; the wait for a TALLY (R139); the probes, with the next position (R140); the wait
for a sweep start; a sweep, with the next position and the pending entries served ahead of it (R143, R144). -/
inductive EnginePlan where
  | quiet
  | tallyWait (until_ : Nat)
  | probing (next : Nat)
  | waiting
  | sweeping (next served : Nat)
  deriving DecidableEq, Repr

/-- The transaction in flight: a probe, or a POLL or LABEL of a sweep or of the pending update list; the microphone gate its
frame carried (R153) and the moment its answer wait runs out (R136). -/
structure Transaction where
  isProbe : Bool
  position : Nat
  micOpen : Bool
  answerBy : Nat
  deriving DecidableEq, Repr

/-- A Trunk Engine (R134). -/
structure TrunkEngine where
  state : TrunkState
  found : Nat
  positions : Vector PositionState 120
  fifo : List CaptureRecord
  pending : List PendingUpdate
  waitingBeat : Option (BitVec 2)
  sweepCounter : Half
  crcErrors : Nat
  formatErrors : Nat
  misses : Nat
  periodSet : Nat
  periodInForce : Nat
  waitSet : Nat
  waitInForce : Nat
  plan : EnginePlan
  inFlight : Option Transaction
  sweepStartedAt : Nat
  sweepHeard : Bool
  lineFrame : List Byte
  lineUntil : Nat
  deriving DecidableEq, Repr

/-- A Trunk Engine after a device reset (R134). -/
def TrunkEngine.initial : TrunkEngine :=
  { state := .down, found := 0, positions := Vector.replicate 120 .initial, fifo := [], pending := [], waitingBeat := none,
    sweepCounter := 0, crcErrors := 0, formatErrors := 0, misses := 0, periodSet := 40, periodInForce := 40, waitSet := 300,
    waitInForce := 300, plan := .quiet, inFlight := none, sweepStartedAt := 0, sweepHeard := false, lineFrame := [],
    lineUntil := 0 }

/-! ### The Link Ports (chapter 9) -/

/-- One complete command: its kind, tag and payload (R159), and the moment its frame completed (R164). -/
structure HeldCommand where
  kind : Byte
  tag : Byte
  payload : List Byte
  completedAt : Nat
  deriving DecidableEq, Repr

/-- A port's command state, with the held command while HOLDING (R163). -/
inductive CommandState where
  | idle
  | holding (c : HeldCommand)
  | replying
  deriving DecidableEq, Repr

/-- A frame of a transmit queue, its bytes from SYNC to CHECK; a reply says whether a device reset follows it (R173). -/
inductive TxFrame where
  | reply (bytes : List Byte) (restart : Bool)
  | reject (bytes : List Byte)
  deriving DecidableEq, Repr

/-- A Link Port (R159). The head of the transmit queue is the frame in transmission. -/
structure LinkPort where
  buffer : List Byte
  lastByteAt : Nat
  command : CommandState
  transmit : List TxFrame
  lastValid : ChamberTime
  deriving DecidableEq, Repr

/-- A Link Port after a device reset (R159). -/
abbrev LinkPort.initial : LinkPort := ⟨[], 0, .idle, [], 0⟩

/-- Both Link Ports and what they keep together (R159, R167, R169, R171): control is the one link that holds CONTROL. -/
structure LinkPorts where
  portA : LinkPort
  portB : LinkPort
  control : Link
  takeoverInterval : Nat
  takeoverOpen : Bool
  baud : Nat
  deriving DecidableEq, Repr

/-- Both Link Ports after a device reset that sampled this baud rate (R159). -/
def LinkPorts.initial (baud : Nat) : LinkPorts :=
  { portA := .initial, portB := .initial, control := .a, takeoverInterval := 0, takeoverOpen := false, baud := baud }

/-! ### The Report Unit (chapter 10) -/

/-- The sixteen event flags, in bit order (R174, 11.3). -/
inductive EventFlag where
  | restarted | floor | list | reply | overtime | interrupt | stack | presence | trunk | alarm0 | alarm1 | alarm2 | timebase
  | authority | notice | overrun
  deriving DecidableEq, Repr

/-- The five filter categories, in bit order (R178, 11.3). -/
inductive Category where
  | floor | list | stack | station | system
  deriving DecidableEq, Repr

/-- The 25 notice kinds, in code order (R177, 11.3). -/
inductive NoticeKind where
  | granted | released | queued | dequeued | refused | replyQueued | replyDropped | roundBegin | roundEnd | interrupt | resume
  | frameDiscarded | chairOpen | chairClose | chairBumped | overtime | phase | presence | stray | micFault | excess
  | trunkState | alarm | timebase | authority
  deriving DecidableEq, Repr

/-- The subject of a notice (R177). -/
inductive Subject where
  | none
  | seat (n : Nat)
  | trunk (t : TrunkNo)
  | link (l : Link)
  | alarm (i : Fin 3)
  deriving DecidableEq, Repr

/-- What a notice says, before it is stored (R177): the state as its code, the details as the 32-bit numbers of 11.5. -/
structure Notice where
  kind : NoticeKind
  subject : Subject
  state : Option Byte
  detail : List Word
  deriving DecidableEq, Repr

/-- A stored notice with its time (R177, R179). -/
structure NoticeRecord where
  time : ChamberTime
  notice : Notice
  deriving DecidableEq, Repr

/-- What the Report Unit keeps for one link (R174, R176, R178, R179). -/
structure LinkReport where
  flags : Half
  mask : Half
  filter : BitVec 5
  queue : List NoticeRecord
  deriving DecidableEq, Repr

/-- One link's reports after a device reset: RESTARTED alone, every mask bit, every category, no notice. -/
abbrev LinkReport.initial : LinkReport := ⟨1, 0xFFFF, 0x1F, []⟩

/-- The twelve conditions of a STAT line, in code order (R182, 11.3). -/
inductive StatSelection where
  | low | high | floorLive | listWaiting | interrupted | halted | replyRound | overtimeAny | trunkFaultAny | trefExternal
  | beat | aControl
  deriving DecidableEq, Repr

/-- The setting of a STAT line (R182). -/
structure StatLine where
  selection : StatSelection
  inverted : Bool
  deriving DecidableEq, Repr

/-- The Report Unit (chapter 10). -/
structure ReportUnit where
  linkA : LinkReport
  linkB : LinkReport
  stat0 : StatLine
  stat1 : StatLine
  deriving DecidableEq, Repr

/-- The Report Unit after a device reset (R174, R176, R178, R179, R182). -/
def ReportUnit.initial : ReportUnit := ⟨.initial, .initial, ⟨.low, false⟩, ⟨.low, false⟩⟩

/-! ### Pins, the events of an advance, and the whole machine -/

/-- The levels of the plain inputs. -/
structure Pins where
  rstnLow : Bool
  hold : Bool
  baud1 : Bool
  baud0 : Bool
  deriving DecidableEq, Repr

/-- How many advances each block has still to take (R122; notes/assumptions/5.md). -/
structure AdvanceDue where
  intake : Nat
  deadlinePass : Nat
  displacement : Nat
  refusalEnd : Nat
  alarmCheck : Nat
  beat : Nat
  silence : Nat
  deriving DecidableEq, Repr

/-- No advance is outstanding. -/
abbrev AdvanceDue.none : AdvanceDue := ⟨0, 0, 0, 0, 0, 0, 0⟩

/-- The FL-462. `now` is the internal timer's reading; `freeDraws` counts the free values used (notes/assumptions/13.md) and
`pending` is the queue of waiting commands, oldest first; these two are the model's own. -/
structure State where
  seats : Vector SeatRecord 480
  floor : Floor
  timeBase : TimeBase
  trunks : Vector TrunkEngine 4
  ports : LinkPorts
  report : ReportUnit
  pins : Pins
  due : AdvanceDue
  now : Nat
  freeDraws : Nat
  pending : List Instr
  deriving DecidableEq, Repr

/-- What would stop the machine. The manual gives the FL-462 no event that stops it, so there is no fault: every error it names
is state, a status or a frame (notes/assumptions/26.md). Safe: no meaning raises one. -/
inductive Fault where
  deriving DecidableEq, Repr

/-- Why a step has no meaning. -/
inductive Refusal where
  /-- Raised by an arm of exec whose row has no meaning yet, under the row's mnemonic. Safe: nothing is claimed of it. -/
  | notModelled (mnemonic : String)
  deriving DecidableEq, Repr

/-- The baud rate for the levels of BAUD1 and BAUD0 (R159). -/
def baudOf : Bool → Bool → Nat
  | false, false => 57600
  | false, true => 115200
  | true, false => 230400
  | true, true => 460800

/-- The machine right after reset, with RSTN high again: every field as its rule gives it. The pins' levels, the straps'
included, and the internal timer's reading are the model's choice (notes/assumptions/10.md, 11.md, 12.md). -/
def State.reset : State :=
  { seats := Vector.replicate 480 .initial, floor := .initial, timeBase := .initial 0,
    trunks := Vector.replicate 4 .initial, ports := .initial (baudOf false false), report := .initial,
    pins := ⟨false, false, false, false⟩, due := .none, now := 0, freeDraws := 0, pending := [] }

end Sys2Proof.Machine
end

