-- ==== Sys2Proof/Machine/Operands.lean ====
section
/-! DEFINITION. How bytes carry values (chapter 11): byte order, the check of R184, the code tables of 11.3, the fields of a
command's payload, and the bytes of link frames and station frames. -/

namespace Sys2Proof.Machine

/-! ### Byte order and the check -/

/-- A 16-bit number, most significant byte first (11.1). -/
def be16 (n : Nat) : List Byte := [BitVec.ofNat 8 (n / 256), BitVec.ofNat 8 n]

/-- A 32-bit number, most significant byte first (11.1). -/
def be32 (w : Word) : List Byte :=
  [w.extractLsb' 24 8, w.extractLsb' 16 8, w.extractLsb' 8 8, w.extractLsb' 0 8]

/-- A number in one byte. -/
def be8 (n : Nat) : Byte := BitVec.ofNat 8 n

/-- NO and YES in one byte (11.3). -/
def yesNo (b : Bool) : Byte := if b then 1 else 0

/-- The byte at place i of a payload. -/
def u8 (p : List Byte) (i : Nat) : Nat := (p.getD i 0).toNat

/-- The 16-bit number at place i of a payload. -/
def u16 (p : List Byte) (i : Nat) : Nat := 256 * u8 p i + u8 p (i + 1)

/-- The 32-bit number at place i of a payload. -/
def u32 (p : List Byte) (i : Nat) : Word := BitVec.ofNat 32 (65536 * u16 p i + u16 p (i + 2))

/-- One bit of the check of R184: shift left, and exclusive-or with 1021h when the bit shifted out differs from the data bit. -/
def crcBit (reg : Half) (bit : Bool) : Half :=
  if reg.msb != bit then (reg <<< 1) ^^^ 0x1021#16 else reg <<< 1

/-- One byte of the check, most significant bit first (R184). -/
def crcByte (reg : Half) (b : Byte) : Half :=
  [7, 6, 5, 4, 3, 2, 1, 0].foldl (fun r i => crcBit r (b.getLsbD i)) reg

/-- The check of the covered bytes (R184). -/
def crc16 (bytes : List Byte) : Half := bytes.foldl crcByte 0xFFFF#16

/-- The two bytes of a check, high byte first (R184). -/
def checkBytes (c : Half) : List Byte := [c.extractLsb' 8 8, c.extractLsb' 0 8]

/-- The covered bytes followed by their check. -/
def withCheck (covered : List Byte) : List Byte := covered ++ checkBytes (crc16 covered)

/-- The last two bytes are the check of the others (R160, R187). -/
def checkPasses (bytes : List Byte) : Bool :=
  decide (checkBytes (crc16 (bytes.take (bytes.length - 2))) = bytes.drop (bytes.length - 2))

/-! ### The code tables of 11.3: the code of a value is its place in its row -/

/-- The code of a value, its place in its row. -/
def codeIn {α : Type} [DecidableEq α] (row : List α) (x : α) : Byte := be8 (row.idxOf x)

/-- The value a code names in its row, none beyond it. -/
def ofCode {α : Type} (row : List α) (code : Nat) : Option α := row[code]?

def phaseRow : List Phase := [.openFloor, .replyRound, .interrupted, .halted]
def reasonRow : List Reason :=
  [.self, .chair, .host, .time, .evict, .absent, .trunk, .halt, .limit, .clear, .disable, .unbind, .bumped, .cancel]
def refusalRow : List PressRefusal :=
  [.listClosed, .listFull, .quota, .disabled, .held, .phase, .cls, .noTarget, .replyFull, .chairBusy, .floorFull, .empty,
   .seatBusy, .notSelfClose, .policy]
def originRow : List Origin := [.auto, .host, .chair, .button]
def slotKindRow : List SlotKind := [.speak, .reply]
def classRow : List SeatClass := [.delegate, .chair, .president, .listener]
def presenceRow : List Presence := [.absent, .unconfirmed, .present, .fading]
def floorStateRow : List FloorState := [.idle, .waiting, .replyWaiting, .live, .chairLive, .held]
def chairStateRow : List ChairState := [.closed, .mic, .priority]
def lampRow : List Lamp := [.off, .live, .warn, .first, .wait, .held, .refused]
def stationKindRow : List (Option StationKind) := [none, some .delegateStation, some .chairStation]
def buttonRow : List Button := [.req, .rpl, .mic, .next, .cut, .prio]
def trunkStateRow : List TrunkState := [.down, .enumerating, .running, .fault]
/-- The source states; code 3 is SET, of a TIME SET's notice (R128). -/
def sourceRow : List TickSource := [.internal, .qualifying, .external]
def timeModeRow : List TimeMode := [.internal, .auto]
def alarmActionRow : List AlarmAction := [.none, .haltFloor, .closeList]
def gateRow : List Gate := [.opened, .closed]
def holdRow : List Hold := [.released, .held]
def noYesRow : List Bool := [false, true]
def linkRow : List Link := [.a, .b]
def grantModeRow : List GrantMode := [.auto, .manual]
def fullPolicyRow : List FullPolicy := [.wait, .displace]
def tieOrderRow : List TieOrder := [.seat, .draw]
def expiryRow : List ExpiryAction := [.warn, .close]
def statRow : List StatSelection :=
  [.low, .high, .floorLive, .listWaiting, .interrupted, .halted, .replyRound, .overtimeAny, .trunkFaultAny, .trefExternal,
   .beat, .aControl]
def noticeKindRow : List NoticeKind :=
  [.granted, .released, .queued, .dequeued, .refused, .replyQueued, .replyDropped, .roundBegin, .roundEnd, .interrupt,
   .resume, .frameDiscarded, .chairOpen, .chairClose, .chairBumped, .overtime, .phase, .presence, .stray, .micFault, .excess,
   .trunkState, .alarm, .timebase, .authority]

/-- Where a command places a list entry: HEAD, TAIL or INDEX (11.3). -/
inductive Place where
  | head | tail | index
  deriving DecidableEq, Repr

def placeRow : List Place := [.head, .tail, .index]

/-- The fifteen policy fields (11.3). -/
inductive PolicyField where
  | floorMax | grantMode | fullPolicy | minTenure | selfClose | chairNext | listMax | tieOrder | grantQuota | replyMax
  | speakAllow | replyAllow | warnLead | expiryAction | refuseShow
  deriving DecidableEq, Repr

def policyRow : List PolicyField :=
  [.floorMax, .grantMode, .fullPolicy, .minTenure, .selfClose, .chairNext, .listMax, .tieOrder, .grantQuota, .replyMax,
   .speakAllow, .replyAllow, .warnLead, .expiryAction, .refuseShow]

/-- The statuses of a reply (R166, 11.2). -/
inductive Status where
  | done | more | unchanged | denied | badKind | badLength | badArg | range | phase | full | empty | seatBusy | notFound | cls
  | absentSeat | unbound | notInterrupted | trunkState | disabled | illegalChar | truncated
  deriving DecidableEq, Repr

/-- The status codes of 11.2. -/
def Status.code : Status → Byte
  | .done => 0x00 | .more => 0x01 | .unchanged => 0x02 | .denied => 0x10 | .badKind => 0x11 | .badLength => 0x12
  | .badArg => 0x13 | .range => 0x14 | .phase => 0x20 | .full => 0x21 | .empty => 0x22 | .seatBusy => 0x23
  | .notFound => 0x24 | .cls => 0x25 | .absentSeat => 0x26 | .unbound => 0x27 | .notInterrupted => 0x28
  | .trunkState => 0x29 | .disabled => 0x2A | .illegalChar => 0x30 | .truncated => 0x31

/-- The reasons of a REJECT frame (R161, 11.2). -/
inductive RejectReason where
  | timeout | length | check | busy
  deriving DecidableEq, Repr

def RejectReason.code : RejectReason → Byte
  | .timeout => 0x01 | .length => 0x02 | .check => 0x03 | .busy => 0x04

/-! ### Link frames (11.2) -/

/-- SYNC, the byte that starts a link frame. -/
abbrev sync : Byte := 0xD7

/-- A link frame: SYNC, LEN, KIND, TAG, payload, CHECK (11.2). -/
def linkFrame (kind tag : Byte) (payload : List Byte) : List Byte :=
  sync :: withCheck (be8 (payload.length + 2) :: kind :: tag :: payload)

/-- The REJECT frame of a tag and a reason (R161). -/
def rejectFrame (tag : Byte) (r : RejectReason) : List Byte := linkFrame 0xFF tag [r.code]

/-- The kind of the reply to a command: the kind plus 80h modulo 256, and 7Fh for 7Fh (R166). -/
def replyKind (kind : Byte) : Byte := if kind = 0x7F then 0x7F else kind + 0x80

/-! ### Station frames (11.6) -/

/-- An image byte: the acknowledgement value E, the microphone and the lamp (11.6). -/
def imageByte (e : Bool) (i : Image) : Byte :=
  (if e then 0x80 else 0) ||| (if i.micOpen then 0x40 else 0) ||| codeIn lampRow i.lamp

def pollFrame (position : Nat) (e : Bool) (i : Image) : List Byte :=
  withCheck [0xC1, be8 position, imageByte e i]

def labelFrame (position : Nat) (e : Bool) (i : Image) (label : List Byte) : List Byte :=
  withCheck (0xC2 :: be8 position :: imageByte e i :: be8 label.length :: label)

def beatFrame (phase : BitVec 2) : List Byte := withCheck [0xC3, phase.setWidth 8]

def assignFrame (count : Nat) : List Byte := withCheck (0xC4 :: be16 count)

/-- What a STATUS reports (11.6). -/
structure StatusReport where
  toggle : Bool
  micOpen : Bool
  counts : PressCounts
  deriving DecidableEq, Repr

/-- How an answer to a POLL or LABEL is taken (R136, R187). -/
inductive AnswerClass where
  | valid (r : StatusReport)
  | checkFault
  | formatFault
  deriving DecidableEq, Repr

/-- The press counts of a STATUS: four 4-bit counts, by the station kind in bit 0 of the state byte (11.6). -/
def pressCounts (state hi lo : Byte) : PressCounts :=
  if state.getLsbD 0 then
    .chair (hi.extractLsb' 4 4) (hi.extractLsb' 0 4) (lo.extractLsb' 4 4) (lo.extractLsb' 0 4)
  else .delegate (hi.extractLsb' 4 4) (hi.extractLsb' 0 4)

/-- An answer to a frame addressed to a position: its check, then its length, type and position (R187). -/
def classifyAnswer (position : Nat) (bytes : List Byte) : AnswerClass :=
  if bytes.length < 3 || !checkPasses bytes then .checkFault
  else match bytes with
    | [ty, pos, state, hi, lo, _, _] =>
      if ty = 0xC6 ∧ pos.toNat = position then
        .valid ⟨state.getLsbD 7, state.getLsbD 6, pressCounts state hi lo⟩
      else .formatFault
    | _ => .formatFault

/-- How a frame received in the TALLY wait is taken (R139, R187). -/
inductive TallyClass where
  | valid (count : Nat)
  | checkFault
  | discarded
  deriving DecidableEq, Repr

/-- A frame in the TALLY wait: a failed check counts whatever the frame's type and length
(R187; notes/assumptions/35.md). -/
def classifyTally (bytes : List Byte) : TallyClass :=
  if bytes.length < 3 || !checkPasses bytes then .checkFault
  else match bytes with
    | [ty, hi, lo, _, _] => if ty = 0xC5 then .valid (256 * hi.toNat + lo.toNat) else .discarded
    | _ => .discarded

/-- The station kind of a report's counts (R152). -/
def PressCounts.kind : PressCounts → StationKind
  | .delegate .. => .delegateStation
  | .chair .. => .chairStation

/-- Every count is 0: the answer reports nothing (R137, R149). -/
def PressCounts.isZero : PressCounts → Bool
  | .delegate r p => r = 0 && p = 0
  | .chair m n c p => m = 0 && n = 0 && c = 0 && p = 0

/-- The presses of a record, in the order they are applied: an odd count gives one press for REQ, RPL, MIC and PRIO, a count
of 1 or more for NEXT and CUT (R30). -/
def PressCounts.presses : PressCounts → List Button
  | .delegate req rpl =>
    (if req.getLsbD 0 then [.req] else []) ++ (if rpl.getLsbD 0 then [.rpl] else [])
  | .chair mic next cut prio =>
    (if mic.getLsbD 0 then [.mic] else []) ++ (if cut ≠ 0 then [.cut] else []) ++
      (if next ≠ 0 then [.next] else []) ++ (if prio.getLsbD 0 then [.prio] else [])

/-! ### Labels (R12, 11.7) -/

/-- The display code of a byte, after a lowercase letter is folded; none for an illegal byte (R12). -/
def displayCode (b : Byte) : Option Byte :=
  let n := if 0x61 ≤ b.toNat ∧ b.toNat ≤ 0x7A then b.toNat - 0x20 else b.toNat
  if n = 0x20 then some 0
  else if 0x41 ≤ n ∧ n ≤ 0x5A then some (be8 (n - 0x41 + 1))
  else if 0x30 ≤ n ∧ n ≤ 0x39 then some (be8 (n - 0x30 + 27))
  else
    -- . , - ' ( ) / : & + #
    match [0x2E, 0x2C, 0x2D, 0x27, 0x28, 0x29, 0x2F, 0x3A, 0x26, 0x2B, 0x23].findIdx? (· = n) with
    | some i => some (be8 (37 + i))
    | none => none

/-- The codes of the first 24 bytes of a text, or the position (from 1) of the first illegal one of them (R12). -/
def convertLabel (text : List Byte) : Except Nat (List Byte) :=
  let first := text.take Config.labelCapacity
  let codes := first.filterMap displayCode
  match first.findIdx? (fun b => (displayCode b).isNone) with
  | some i => .error (i + 1)
  | none => .ok codes

/-! ### Policy values (R68, R69) -/

/-- A policy field's value as its number or code (R71, R185). -/
def Policy.value (p : Policy) : PolicyField → Nat
  | .floorMax => p.floorMax
  | .grantMode => grantModeRow.idxOf p.grantMode
  | .fullPolicy => fullPolicyRow.idxOf p.fullPolicy
  | .minTenure => p.minTenure
  | .selfClose => noYesRow.idxOf p.selfClose
  | .chairNext => noYesRow.idxOf p.chairNext
  | .listMax => p.listMax
  | .tieOrder => tieOrderRow.idxOf p.tieOrder
  | .grantQuota => p.grantQuota
  | .replyMax => p.replyMax
  | .speakAllow => p.speakAllow
  | .replyAllow => p.replyAllow
  | .warnLead => p.warnLead
  | .expiryAction => expiryRow.idxOf p.expiryAction
  | .refuseShow => p.refuseShow

/-- The policy with one field set, or none when the value is outside the field's range (R68, R69). -/
def Policy.withValue (p : Policy) (f : PolicyField) (v : Nat) : Option Policy :=
  match f with
  | .floorMax => if 1 ≤ v ∧ v ≤ 6 then some { p with floorMax := v } else none
  | .grantMode => (ofCode grantModeRow v).map fun x => { p with grantMode := x }
  | .fullPolicy => (ofCode fullPolicyRow v).map fun x => { p with fullPolicy := x }
  | .minTenure => if v ≤ 6000 then some { p with minTenure := v } else none
  | .selfClose => (ofCode noYesRow v).map fun x => { p with selfClose := x }
  | .chairNext => (ofCode noYesRow v).map fun x => { p with chairNext := x }
  | .listMax => if 1 ≤ v ∧ v ≤ 64 then some { p with listMax := v } else none
  | .tieOrder => (ofCode tieOrderRow v).map fun x => { p with tieOrder := x }
  | .grantQuota => if v ≤ 15 then some { p with grantQuota := v } else none
  | .replyMax => if v ≤ 8 then some { p with replyMax := v } else none
  | .speakAllow => if v ≤ 36000 then some { p with speakAllow := v } else none
  | .replyAllow => if v ≤ 36000 then some { p with replyAllow := v } else none
  | .warnLead => if v ≤ 6000 then some { p with warnLead := v } else none
  | .expiryAction => (ofCode expiryRow v).map fun x => { p with expiryAction := x }
  | .refuseShow => if v ≤ 50 then some { p with refuseShow := v } else none

/-- The pairs of a POLICY SET payload, three bytes each (11.4). -/
def policyPairs : List Byte → List (Nat × Nat)
  | f :: hi :: lo :: rest => (f.toNat, 256 * hi.toNat + lo.toNat) :: policyPairs rest
  | _ => []

/-- All pairs checked in order and stored together, or the first failure (R69); `seen` are the fields already named. -/
def Policy.setPairs (p : Policy) (seen : List PolicyField) : List (Nat × Nat) → Except Status Policy
  | [] => .ok p
  | (code, v) :: rest =>
    match ofCode policyRow code with
    | none => .error .badArg
    | some f =>
      if f ∈ seen then .error .badArg
      else match p.withValue f v with
        | none => .error .range
        | some p' => p'.setPairs (f :: seen) rest

end Sys2Proof.Machine
end

