-- ==== Sys2Proof/Machine/Flags.lean ====
section
/-! DEFINITION. The Report Unit (chapter 10): event flags, attention lines, notices and status lines; and the accessors of
State that every later file uses. -/

namespace Sys2Proof.Machine

/-! ### Accessors of the seat table, the trunks, the ports and the reports -/

/-- The index of a seat number in the table; none outside 1 to 480. -/
def seatIndex (n : Nat) : Option (Fin 480) := if h : 1 ≤ n ∧ n ≤ 480 then some ⟨n - 1, by omega⟩ else none

/-- A seat's record; the initial record for a number outside 1 to 480, which no rule reads. -/
def State.seat (s : State) (n : Nat) : SeatRecord :=
  match seatIndex n with
  | some i => s.seats[i]
  | none => .initial

/-- Change one seat's record. -/
def State.modSeat (s : State) (n : Nat) (f : SeatRecord → SeatRecord) : State :=
  match seatIndex n with
  | some i => { s with seats := s.seats.set i (f s.seats[i]) }
  | none => s

/-- Every seat number with its record, ascending. -/
def State.seatList (s : State) : List (SeatRecord × Nat) := s.seats.toList.zipIdx 1

/-- The position map: the seat bound at a trunk and position, if any (R2). -/
def State.seatAt (s : State) (t : TrunkNo) (p : Nat) : Option Nat :=
  (s.seatList.find? fun x => x.1.binding.any fun b => b.trunk = t ∧ b.position = p).map (·.2)

/-- A Trunk Engine. -/
def State.trunk (s : State) (t : TrunkNo) : TrunkEngine := s.trunks[t]

/-- Change one Trunk Engine. -/
def State.modTrunk (s : State) (t : TrunkNo) (f : TrunkEngine → TrunkEngine) : State :=
  { s with trunks := s.trunks.set t (f s.trunks[t]) }

/-- A Link Port. -/
def State.port (s : State) : Link → LinkPort
  | .a => s.ports.portA
  | .b => s.ports.portB

/-- Change one Link Port. -/
def State.modPort (s : State) (l : Link) (f : LinkPort → LinkPort) : State :=
  match l with
  | .a => { s with ports := { s.ports with portA := f s.ports.portA } }
  | .b => { s with ports := { s.ports with portB := f s.ports.portB } }

/-- One link's reports. -/
def State.reportOf (s : State) : Link → LinkReport
  | .a => s.report.linkA
  | .b => s.report.linkB

/-- Change one link's reports. -/
def State.modReport (s : State) (l : Link) (f : LinkReport → LinkReport) : State :=
  match l with
  | .a => { s with report := { s.report with linkA := f s.report.linkA } }
  | .b => { s with report := { s.report with linkB := f s.report.linkB } }

/-- Change both links' reports in the same way (R174, R178). -/
def State.modBothReports (s : State) (f : LinkReport → LinkReport) : State :=
  { s with report := { s.report with linkA := f s.report.linkA, linkB := f s.report.linkB } }

/-- Change the Floor Engine. -/
def State.modFloor (s : State) (f : Floor → Floor) : State := { s with floor := f s.floor }

/-- Change the Time Base. -/
def State.modTime (s : State) (f : TimeBase → TimeBase) : State := { s with timeBase := f s.timeBase }

/-- The authority class of a link (R167): CONTROL (true) or OBSERVE. -/
def State.hasControl (s : State) (l : Link) : Bool := s.ports.control = l

/-- Chamber time now (R121). -/
def State.time (s : State) : ChamberTime := s.timeBase.chamberTime

/-- The internal timer moves on to a moment; it never runs backwards (notes/assumptions/3.md). -/
def State.reachMoment (s : State) (m : Nat) : State := { s with now := max s.now m }

/-! ### Event flags and attention lines (R174, R176) -/

/-- The bit of an event flag in a set of flags (11.3). -/
def EventFlag.bit : EventFlag → Nat
  | .restarted => 0 | .floor => 1 | .list => 2 | .reply => 3 | .overtime => 4 | .interrupt => 5 | .stack => 6
  | .presence => 7 | .trunk => 8 | .alarm0 => 9 | .alarm1 => 10 | .alarm2 => 11 | .timebase => 12 | .authority => 13
  | .notice => 14 | .overrun => 15

/-- A set of flags holding this flag alone. -/
def EventFlag.set (f : EventFlag) : Half := 1#16 <<< f.bit

/-- Set a flag in one link's set. -/
def LinkReport.raise (f : EventFlag) (r : LinkReport) : LinkReport := { r with flags := r.flags ||| f.set }

/-- Set a flag in both links' sets in the same event (R174). -/
def State.raise (s : State) (f : EventFlag) : State := s.modBothReports (·.raise f)

/-- The attention line of a link is asserted: its flags and its mask have a flag in common, and RSTN is high (R176). -/
def State.attention (s : State) (l : Link) : Bool :=
  !s.pins.rstnLow && ((s.reportOf l).flags &&& (s.reportOf l).mask) != 0

/-! ### Notices (R177 to R179) -/

/-- The filter category of a notice kind (R177). -/
def NoticeKind.category : NoticeKind → Category
  | .granted | .released | .chairOpen | .chairClose | .chairBumped | .overtime | .phase | .roundBegin | .roundEnd => .floor
  | .queued | .dequeued | .refused | .replyQueued | .replyDropped => .list
  | .interrupt | .resume | .frameDiscarded => .stack
  | .presence | .stray | .micFault | .excess => .station
  | .trunkState | .alarm | .timebase | .authority => .system

/-- The bit of a category in a category set (11.3). -/
def Category.bit : Category → Nat
  | .floor => 0 | .list => 1 | .stack => 2 | .station => 3 | .system => 4

/-- One link takes or passes over a notice offered at chamber time t: passed over when its category is not in the filter
(R178), stored while fewer than 32 records are queued, otherwise lost with OVERRUN (R179). -/
def LinkReport.offer (t : ChamberTime) (n : Notice) (r : LinkReport) : LinkReport :=
  if r.filter.getLsbD n.kind.category.bit then
    if r.queue.length < Config.noticeCapacity then
      LinkReport.raise .notice { r with queue := r.queue ++ [⟨t, n⟩] }
    else r.raise .overrun
  else r

/-- Offer a notice to both links' queues (R178). -/
def State.notify (s : State) (n : Notice) : State := s.modBothReports (·.offer s.time n)

/-- A notice of a seat. -/
def Notice.ofSeat (k : NoticeKind) (n : Nat) (state : Option Byte := none) (detail : List Word := []) : Notice :=
  ⟨k, .seat n, state, detail⟩

/-- The subject code of a notice record (11.5). -/
def Subject.code : Subject → Nat
  | .none => 0
  | .seat n => n
  | .trunk t => 0x7E0 + t.val
  | .link .a => 0x7E8
  | .link .b => 0x7E9
  | .alarm i => 0x7F0 + i.val

/-- A notice's subject for a frame's source (R177). -/
def Source.subject : Source → Subject
  | .seat n => .seat n
  | .link l => .link l

/-- A notice detail that is a count, an index, a seat or a code. -/
def detailOf (n : Nat) : Word := BitVec.ofNat 32 n

/-- A notice detail that is a code of 11.3. -/
def detailCode (b : Byte) : Word := b.setWidth 32

/-- A notice record as TAKE NOTICES returns it (11.5). -/
def NoticeRecord.bytes (r : NoticeRecord) : List Byte :=
  be32 r.time ++ be16 (2048 * noticeKindRow.idxOf r.notice.kind + r.notice.subject.code) ++
    [r.notice.state.getD 0xFF] ++ be32 (r.notice.detail.getD 0 0) ++ be32 (r.notice.detail.getD 1 0)

/-! ### Status lines (R182) -/

/-- The condition a STAT line's selection shows (R182). -/
def State.condition (s : State) : StatSelection → Bool
  | .low => false
  | .high => true
  | .floorLive => s.floor.slots.toList.any Option.isSome
  | .listWaiting => !s.floor.requests.isEmpty
  | .interrupted => s.floor.phase = .interrupted
  | .halted => s.floor.phase = .halted
  | .replyRound => s.floor.phase = .replyRound
  | .overtimeAny => s.floor.slots.toList.any fun d => d.any (·.overtime)
  | .trunkFaultAny => s.trunks.toList.any fun e => e.state = .fault
  | .trefExternal => s.timeBase.source = .external
  | .beat => s.timeBase.beatPhase = 0 ∨ s.timeBase.beatPhase = 1
  | .aControl => s.hasControl .a

/-- A STAT line's level: the condition, turned over when inverted; low while RSTN is low (R182). -/
def State.statLevel (s : State) (line : StatLine) : Bool :=
  !s.pins.rstnLow && (s.condition line.selection != line.inverted)

end Sys2Proof.Machine
end

