-- ==== Sys2Proof/Machine/Ops.lean ====
section
/-! DEFINITION. The operations the floor's rules share (chapters 1 to 5): comparing points of chamber time, finding a seat,
images and pending marks, and one claim's work on the floor: grants, closes, the reply round, the fill and the serve point. -/

namespace Sys2Proof.Machine

/-! ### Points of chamber time (R72) -/

/-- Chamber time has reached a point (R72). -/
def reached (now point : ChamberTime) : Bool := (now - point).toNat < 2 ^ 31

/-- A point of time so many ticks after another, modulo 2^32. -/
def after (t : ChamberTime) (ticks : Nat) : ChamberTime := t + BitVec.ofNat 32 ticks

/-- The ticks from a point to the present, modulo 2^32 (R27, R48, R53). -/
def age (now point : ChamberTime) : Nat := (now - point).toNat

/-! ### Ordered lists -/

/-- Put x into an ordered list, ahead of what it does not have to follow. -/
def insertBy {α : Type} (le : α → α → Bool) (x : α) : List α → List α
  | [] => [x]
  | y :: ys => if le x y then x :: y :: ys else y :: insertBy le x ys

/-- The list in order; things that are equal in the order keep theirs. -/
def sortBy {α : Type} (le : α → α → Bool) (l : List α) : List α := l.foldr (insertBy le) []

/-! ### Finding seats on the floor (R15, R21, R48) -/

/-- The places of a delegate slot, lowest first. -/
abbrev slotPlaces : List (Fin 6) := List.finRange 6

/-- The places of a chair slot, lowest first. -/
abbrev chairPlaces : List (Fin 2) := List.finRange 2

/-- The open delegate slots in index order (R47). -/
def Floor.openSlots (f : Floor) : List (Fin 6 × DelegateSlot) := slotPlaces.filterMap fun i => f.slots[i].map fun d => (i, d)

/-- How many delegate slots are open. -/
def Floor.openCount (f : Floor) : Nat := f.openSlots.length

/-- The free delegate place of lowest index (R47). -/
def Floor.freeSlot (f : Floor) : Option (Fin 6) := slotPlaces.find? fun i => f.slots[i].isNone

/-- The open delegate slots, oldest first; equal ages by index (R48). -/
def Floor.slotsByAge (f : Floor) (now : ChamberTime) : List (Fin 6 × DelegateSlot) :=
  sortBy (fun x y => age now y.2.grantedAt ≤ age now x.2.grantedAt) f.openSlots

/-- The oldest open SPEAK slot. -/
def Floor.oldestSpeak (f : Floor) (now : ChamberTime) : Option (Fin 6 × DelegateSlot) :=
  (f.slotsByAge now).find? fun x => x.2.kind = .speak

/-- The open SPEAK slot of the seat that the waiting reply entries name (R87). -/
def Floor.targetSlot (f : Floor) : Option (Fin 6 × DelegateSlot) :=
  f.replies.head?.bind fun e => f.openSlots.find? fun x => x.2.kind = .speak ∧ x.2.seat = e.target

/-- The principal: the oldest open SPEAK slot in OPEN and REPLY_ROUND, none in the other phases (R48). In OPEN a grant does not take
it from the seat that the waiting reply entries name (R48, R87; notes/assumptions/36.md). -/
def Floor.principal (f : Floor) (now : ChamberTime) : Option (Fin 6 × DelegateSlot) :=
  match f.phase with
  | .openFloor => f.targetSlot <|> f.oldestSpeak now
  | .replyRound => f.oldestSpeak now
  | .interrupted | .halted => none

/-- The open REPLY slot, if any. -/
def Floor.replySlot (f : Floor) : Option (Fin 6 × DelegateSlot) := f.openSlots.find? fun x => x.2.kind = .reply

/-- The delegate slot a seat holds. -/
def Floor.slotOf (f : Floor) (n : Nat) : Option (Fin 6) := slotPlaces.find? fun i => f.slots[i].any (·.seat = n)

/-- The chair slot a seat holds. -/
def Floor.chairOf (f : Floor) (n : Nat) : Option (Fin 2) := chairPlaces.find? fun i => f.chairs[i].any (·.seat = n)

/-- The free chair place of lower index (R60). -/
def Floor.freeChair (f : Floor) : Option (Fin 2) := chairPlaces.find? fun i => f.chairs[i].isNone

/-- A seat's request list entry. -/
def Floor.requestOf (f : Floor) (n : Nat) : Option RequestEntry := f.requests.find? (·.seat = n)

/-- A seat's reply list entry. -/
def Floor.replyOf (f : Floor) (n : Nat) : Option ReplyEntry := f.replies.find? (·.seat = n)

/-- A frame holds the seat in a slot record or a reply entry (R100). -/
def StackFrame.holds (fr : StackFrame) (n : Nat) : Bool := fr.records.any (·.seat = n) || fr.entries.any (·.seat = n)

/-- A seat's floor state: where it is found (R15). -/
def State.floorState (s : State) (n : Nat) : FloorState :=
  if (s.floor.requestOf n).isSome then .waiting
  else if (s.floor.replyOf n).isSome then .replyWaiting
  else if (s.floor.slotOf n).isSome then .live
  else if (s.floor.chairOf n).isSome then .chairLive
  else if s.floor.stack.any (·.holds n) then .held
  else .idle

/-- The seat is present for floor purposes: PRESENT or FADING (1.5). -/
def State.isHere (s : State) (n : Nat) : Bool := (s.seat n).presence = .present ∨ (s.seat n).presence = .fading

/-- The seat is bound with this class. -/
def State.hasClass (s : State) (n : Nat) (k : SeatClass) : Bool := (s.seat n).binding.any (·.cls = k)

/-- The first present entry of the request list (R21). -/
def State.firstPresent (s : State) : Option RequestEntry := s.floor.requests.find? fun e => s.isHere e.seat

/-- The index of the first present entry (R67). -/
def State.firstPresentIndex (s : State) : Option Nat := s.floor.requests.findIdx? fun e => s.isHere e.seat

/-- The first present reply entry (R86). -/
def State.firstPresentReply (s : State) : Option ReplyEntry := s.floor.replies.find? fun e => s.isHere e.seat

/-! ### Images and pending marks (R16, R19, R146) -/

/-- A slot is warned: its warn point is reached or its overtime flag is SET (R75). -/
def DelegateSlot.warned (now : ChamberTime) (d : DelegateSlot) : Bool := d.overtime || d.warnAt.any (reached now)

/-- A seat's image, by the first line of R16's table that holds. -/
def State.image (s : State) (n : Nat) : Image :=
  let r := s.seat n
  if r.binding.isNone then .dark
  else match s.floor.slotOf n with
    | some i => ⟨true, if s.floor.slots[i].any (·.warned s.time) then .warn else .live⟩
    | none =>
      if (s.floor.chairOf n).isSome then ⟨true, .live⟩
      else if r.refusalUntil.any fun t => !reached s.time t then ⟨false, .refused⟩
      else if (s.floor.requestOf n).isSome then
        ⟨false, if s.firstPresent.any (·.seat = n) then .first else .wait⟩
      else if (s.floor.replyOf n).isSome then ⟨false, .wait⟩
      else if s.floor.stack.any (·.holds n) then ⟨false, .held⟩
      else .dark

/-- A mark of a position enters the pending update list by the trunk's state (R146). -/
def TrunkEngine.takesMark (e : TrunkEngine) (p : Nat) : Bool :=
  match e.state with
  | .down => false
  | .enumerating => 1 ≤ p ∧ p ≤ Config.positions
  | .running | .fault => 1 ≤ p ∧ p ≤ e.found

/-- Mark a position, with or without the label flag: a new entry goes to the tail, an entry keeps its place and a set label
flag (R146). -/
def TrunkEngine.mark (e : TrunkEngine) (p : Nat) (label : Bool) : TrunkEngine :=
  if e.takesMark p then
    if e.pending.any (·.position = p) then
      { e with pending := e.pending.map fun u => if u.position = p then { u with label := u.label || label } else u }
    else { e with pending := e.pending ++ [⟨p, label⟩] }
  else e

/-- Remove a position's pending entry (R146). -/
def TrunkEngine.unmark (e : TrunkEngine) (p : Nat) : TrunkEngine :=
  { e with pending := e.pending.filter (·.position ≠ p) }

/-- Mark a bound seat's position. -/
def State.markSeat (s : State) (n : Nat) (label : Bool) : State :=
  match (s.seat n).binding with
  | some b => s.modTrunk b.trunk (·.mark b.position label)
  | none => s

/-- Work a seat's image out again; a changed image becomes current and marks the position of a bound seat that is not ABSENT
(R19). -/
def State.settleImage (s : State) (n : Nat) : State :=
  if s.image n = (s.seat n).image then s
  else
    let s1 := s.modSeat n fun r => { r with image := s.image n }
    if (s.seat n).presence = .absent then s1 else s1.markSeat n false

/-! ### A claim at work -/

/-- The work on the state inside one event: the seats whose images have changed so far, in the order of the changes,
whether the event is a fill point (R50) or a further serve point (R92), and whether a grant has taken an entry off the request
list (R49). -/
structure Claim where
  st : State
  touched : List Nat
  fillDue : Bool
  serveDue : Bool
  tookEntry : Bool

namespace Claim

/-- A claim about to begin. -/
abbrev start (s : State) : Claim := ⟨s, [], false, false, false⟩

/-- Act on the state alone. -/
def lift (c : Claim) (f : State → State) : Claim := { c with st := f c.st }

def modFloor (c : Claim) (f : Floor → Floor) : Claim := c.lift (·.modFloor f)
def modSeat (c : Claim) (n : Nat) (f : SeatRecord → SeatRecord) : Claim := c.lift (·.modSeat n f)
def raise (c : Claim) (f : EventFlag) : Claim := c.lift (·.raise f)
def notify (c : Claim) (n : Notice) : Claim := c.lift (·.notify n)

abbrev floor (c : Claim) : Floor := c.st.floor
abbrev time (c : Claim) : ChamberTime := c.st.time
abbrev policy (c : Claim) : Policy := c.st.floor.policy

/-- The event is a fill point (R50). -/
def fillPoint (c : Claim) : Claim := { c with fillDue := true }

/-- The event is a serve point (R92). -/
def servePoint (c : Claim) : Claim := { c with serveDue := true }

/-- Note a seat whose image now differs from its current one, once, in the order of the changes (R19). -/
def touch (c : Claim) (n : Nat) : Claim :=
  if c.st.image n = (c.st.seat n).image ∨ n ∈ c.touched then c else { c with touched := c.touched ++ [n] }

def touchAll (c : Claim) (ns : List Nat) : Claim := ns.foldl touch c

/-- Do something that may change the first present entry, and note the old and the new first present seats, the old one first
(R19). -/
def trackHead (c : Claim) (f : Claim → Claim) : Claim :=
  let old := c.st.firstPresent.map (·.seat)
  let c' := f c
  let new := c'.st.firstPresent.map (·.seat)
  if old = new then c' else c'.touchAll (old.toList ++ new.toList)

/-! ### The phase and the reply round (R46, R91, R94) -/

/-- Change the phase, with its PHASE notice and the FLOOR flag; no change raises nothing (R46). Each change within one event is
reported, also where a later one of the same event returns to the first phase (notes/assumptions/39.md). -/
def setPhase (c : Claim) (p : Phase) : Claim :=
  if c.floor.phase = p then c
  else
    ((c.notify ⟨.phase, .none, some (codeIn phaseRow p), [detailCode (codeIn phaseRow c.floor.phase)]⟩).raise .floor).modFloor
      fun f => { f with phase := p }

/-- The reply round begins for a departed speaker (R91). -/
def beginRound (c : Claim) (subject : Nat) : Claim :=
  let c1 := (c.modFloor fun f => { f with subject := some subject }).setPhase .replyRound
  c1.notify (.ofSeat .roundBegin subject none [detailOf c1.floor.replies.length])

/-- The round ends: ROUND_END, the subject cleared, the phase OPEN; a fill point (R94). -/
def endRound (c : Claim) : Claim :=
  let c1 := c.notify ⟨.roundEnd, (c.floor.subject.map Subject.seat).getD .none, none, []⟩
  ((c1.modFloor fun f => { f with subject := none }).setPhase .openFloor).fillPoint

/-! ### Closing delegate slots (R53) -/

/-- Free a delegate place with its RELEASED notice, without the consequences of R53. -/
def releaseSlot (c : Claim) (i : Fin 6) (why : Reason) : Claim :=
  match c.floor.slots[i] with
  | none => c
  | some d =>
    (((c.modFloor fun f => { f with slots := f.slots.set i none }).notify
        (.ofSeat .released d.seat (codeIn reasonRow why) [detailOf i, detailOf (age c.time d.grantedAt)])).raise .floor).touch d.seat

/-- Close a delegate slot with the consequences of R53: the principal's close in OPEN with reply entries waiting begins the
round, a REPLY slot's close with the reply list empty ends it (R93), and the event is a fill point. -/
def closeSlot (c : Claim) (i : Fin 6) (why : Reason) : Claim :=
  match c.floor.slots[i] with
  | none => c
  | some d =>
    let principal := (c.floor.principal c.time).any (·.1 = i)
    let c1 := (c.releaseSlot i why).fillPoint
    if principal ∧ c.floor.phase = .openFloor ∧ c1.floor.replies ≠ [] then c1.beginRound d.seat
    else if d.kind = .reply ∧ c.floor.phase = .replyRound ∧ c1.floor.replies = [] then c1.endRound
    else c1

/-! ### Granting delegate slots (R49, R74, R92) -/

/-- The warn point of a limited slot opened or restored at g with so many ticks ahead of it, under WARN_LEAD lead (R74, R81). -/
def warnPoint (g : ChamberTime) (ticks lead : Nat) : Option ChamberTime :=
  if lead = 0 then none else if lead < ticks then some (after g (ticks - lead)) else some g

/-- A slot granted now (R47, R74). -/
def newSlot (c : Claim) (n : Nat) (kind : SlotKind) (origin : Origin) (allowance : Nat) : DelegateSlot :=
  { seat := n, kind := kind, origin := origin, grantedAt := c.time, allowance := allowance,
    deadline := if allowance = 0 then none else some (after c.time allowance),
    warnAt := if allowance = 0 then none else warnPoint c.time allowance c.policy.warnLead, overtime := false }

/-- The GRANTED notice of a slot (R49). -/
def grantedNotice (i : Fin 6) (d : DelegateSlot) : Notice :=
  .ofSeat .granted d.seat (codeIn originRow d.origin) [detailOf i, detailOf d.allowance]

/-- The allowance of a SPEAK grant: ALLOW, else the entry's override, else SPEAK_ALLOW (R49, R73). -/
def speakAllowance (c : Claim) (n : Nat) (allow : Option Nat) : Nat :=
  (allow <|> (c.floor.requestOf n).bind (·.allowance)).getD c.policy.speakAllow

/-- Grant a SPEAK slot to a seat, taking its request list entry if it has one (R49). -/
def grantSpeak (c : Claim) (n : Nat) (origin : Origin) (allow : Option Nat) : Claim :=
  match c.floor.freeSlot with
  | none => c
  | some i =>
    let d := c.newSlot n .speak origin (c.speakAllowance n allow)
    let c1 := c.trackHead fun c => c.modFloor fun f =>
      { f with requests := f.requests.filter (·.seat ≠ n), slots := f.slots.set i (some d) }
    let c2 := (c1.modSeat n fun r => { r with grantCount := min 15 (r.grantCount + 1) }).touch n
    let c3 := if (c.floor.requestOf n).isSome then { c2.raise .list with tookEntry := true } else c2
    (c3.notify (grantedNotice i d)).raise .floor

/-- Grant a REPLY slot to a seat, taking its reply list entry (R92). -/
def grantReply (c : Claim) (n : Nat) : Claim :=
  match c.floor.freeSlot with
  | none => c
  | some i =>
    let d := c.newSlot n .reply .auto c.policy.replyAllow
    let c1 := c.modFloor fun f =>
      { f with replies := f.replies.filter (·.seat ≠ n), slots := f.slots.set i (some d) }
    (((c1.touch n).notify (grantedNotice i d)).raise .floor).raise .reply

/-! ### The fill, displacement and the serve point (R50, R51, R92) -/

/-- A slot qualifies for displacement (R51). -/
def qualifies (c : Claim) (d : DelegateSlot) : Bool :=
  d.kind = .speak && reached c.time (after d.grantedAt c.policy.minTenure) && d.grantedAt ≠ c.time &&
    reached c.time d.grantedAt

/-- The slot displacement would close: the oldest that qualifies, on a floor just full under DISPLACE (R51). -/
def displaced (c : Claim) : Option (Fin 6) :=
  if c.policy.fullPolicy = .displace ∧ c.floor.openCount = c.policy.floorMax then
    ((c.floor.slotsByAge c.time).find? fun x => c.qualifies x.2).map (·.1)
  else none

/-- The fill's loop (R50): grant the first present entry while fewer slots than FLOOR_MAX are open, or displace for it; it stops
when the displacement has begun a reply round. Each turn takes one entry, so the list's length bounds the turns. -/
def fillLoop : Nat → Claim → Claim
  | 0, c => c
  | k + 1, c =>
    match c.st.firstPresent with
    | none => c
    | some e =>
      if c.floor.openCount < c.policy.floorMax then fillLoop k (c.grantSpeak e.seat .auto none)
      else match c.displaced with
        | none => c
        | some i =>
          let c1 := c.closeSlot i .evict
          if c1.floor.phase = .openFloor then fillLoop k (c1.grantSpeak e.seat .auto none) else c1

/-- The fill: it acts in OPEN under AUTO (R50). -/
def fill (c : Claim) : Claim :=
  if c.floor.phase = .openFloor ∧ c.policy.grantMode = .auto then fillLoop c.floor.requests.length c else c

/-- The serve point of REPLY_ROUND (R92): end the round, or grant one REPLY slot, or wait. -/
def serve (c : Claim) : Claim :=
  if c.floor.replySlot.isSome then c
  else if c.floor.replies = [] then c.endRound
  else if c.floor.openCount < c.policy.floorMax then
    match c.st.firstPresentReply with
    | some e => c.grantReply e.seat
    | none => c
  else c

/-- What stands at the end of an event: at a fill point in OPEN the fill, and the serve point of a round that its displacement
began (R51); in REPLY_ROUND the serve point, and the fill when it ended the round (R92, R94). -/
def settleFloor (c : Claim) : Claim :=
  let c1 :=
    match c.floor.phase with
    | .openFloor =>
      if c.fillDue then
        let f := c.fill
        if f.floor.phase = Phase.replyRound then f.serve else f
      else c
    | .replyRound =>
      if c.fillDue ∨ c.serveDue then
        let r := c.serve
        if r.floor.phase = Phase.openFloor then r.fill else r
      else c
    | .interrupted | .halted => c
  { c1 with fillDue := false, serveDue := false }

/-! ### Leaving the lists (R23, R88) -/

/-- The DEQUEUED notice (R23). -/
def dequeued (n : Nat) (why : Reason) : Notice := .ofSeat .dequeued n (codeIn reasonRow why)

/-- Remove a seat's request list entry with its DEQUEUED notice (R23). -/
def dequeue (c : Claim) (n : Nat) (why : Reason) : Claim :=
  if (c.floor.requestOf n).isSome then
    ((c.trackHead fun c => c.modFloor fun f => { f with requests := f.requests.filter (·.seat ≠ n) }).notify
      (dequeued n why)).touch n
  else c

/-- Remove every request list entry, head first (R40, R66). -/
def clearRequests (c : Claim) (why : Reason) : Claim :=
  let entries := c.floor.requests
  entries.foldl (fun c e => (c.notify (dequeued e.seat why)).touch e.seat) (c.modFloor fun f => { f with requests := [] })

/-- The REPLY_DROPPED notice (R88). -/
def replyDropped (n target : Nat) (why : Reason) : Notice := .ofSeat .replyDropped n (codeIn reasonRow why) [detailOf target]

/-- Remove a seat's reply list entry with its REPLY_DROPPED notice; a serve point in REPLY_ROUND (R88, R92). -/
def dropReply (c : Claim) (n : Nat) (why : Reason) : Claim :=
  match c.floor.replyOf n with
  | none => c
  | some e =>
    ((((c.modFloor fun f => { f with replies := f.replies.filter (·.seat ≠ n) }).notify
      (replyDropped n e.target why)).raise .reply).touch n).servePoint

/-- Remove the reply list entries of these seats in one event, head first (R88). -/
def dropReplies (c : Claim) (ns : List Nat) (why : Reason) : Claim :=
  ((c.floor.replies.map (·.seat)).filter (· ∈ ns)).foldl (fun c n => c.dropReply n why) c

/-- Remove every reply list entry, head first (R57, R65, R99). -/
def clearReplies (c : Claim) (why : Reason) : Claim :=
  let entries := c.floor.replies
  if entries = [] then c
  else
    ((entries.foldl (fun c e => (c.notify (replyDropped e.seat e.target why)).touch e.seat)
      (c.modFloor fun f => { f with replies := [] })).raise .reply).servePoint

/-! ### Chair slots (R58, R60, R61) -/

/-- Change a chair slot's mode, with the FLOOR flag and no notice (R106, R109, R115). -/
def setChairMode (c : Claim) (i : Fin 2) (m : ChairState) : Claim :=
  match c.floor.chairs[i] with
  | none => c
  | some d =>
    if d.mode = m then c
    else (c.modFloor fun f => { f with chairs := f.chairs.set i (some { d with mode := m }) }).raise .floor

/-- Open a chair slot now (R60, R106). -/
def openChair (c : Claim) (i : Fin 2) (n : Nat) (m : ChairState) : Claim :=
  (((c.modFloor fun f => { f with chairs := f.chairs.set i (some ⟨n, c.time, m⟩) }).notify
    (.ofSeat .chairOpen n (codeIn chairStateRow m) [detailOf i])).raise .floor).touch n

/-- Close a chair slot; not a fill point (R61). -/
def closeChair (c : Claim) (i : Fin 2) (why : Reason) : Claim :=
  match c.floor.chairs[i] with
  | none => c
  | some d =>
    (((c.modFloor fun f => { f with chairs := f.chairs.set i none }).notify
      (.ofSeat .chairClose d.seat (codeIn reasonRow why) [detailOf i])).raise .floor).touch d.seat

/-! ### Expiry (R77) and refusals of presses (R18, R30) -/

/-- A slot expires (R77). -/
def expire (c : Claim) (i : Fin 6) : Claim :=
  match c.floor.slots[i] with
  | none => c
  | some d =>
    let action := c.policy.expiryAction
    let c1 := (c.modFloor fun f => { f with slots := f.slots.set i (some { d with overtime := true }) }).modSeat d.seat
      fun r => { r with overtimeMark := true }
    let c2 := ((c1.raise .overtime).notify
      (.ofSeat .overtime d.seat (codeIn expiryRow action) [detailOf i, detailCode (codeIn slotKindRow d.kind)])).touch d.seat
    if action = .close then c2.closeSlot i .time else c2

/-- A button event of a seat is refused: the REFUSED notice, and the refusal display when REFUSE_SHOW is not 0 (R18). -/
def refuse (c : Claim) (n : Nat) (b : Button) (why : PressRefusal) : Claim :=
  let c1 := c.notify (.ofSeat .refused n (codeIn refusalRow why) [detailCode (codeIn buttonRow b)])
  if c.policy.refuseShow = 0 then c1
  else (c1.modSeat n fun r => { r with refusalUntil := some (after c.time c.policy.refuseShow) }).touch n

/-! ### A seat removed from wherever it is found (R6, R7, R8, R117) -/

/-- The 32-bit detail of a held record's remaining time (11.5). -/
def remainingDetail (r : Option Nat) : Word := (r.map detailOf).getD 0xFFFFFFFF#32

/-- The RELEASED notice of a held record that is removed or lost (R112, R117). -/
def heldReleased (h : HeldSlot) (why : Reason) : Notice :=
  .ofSeat .released h.seat (codeIn reasonRow why) [detailCode (codeIn slotKindRow h.kind), remainingDetail h.remaining]

/-- Remove a seat's held slot record and held reply entry from every frame (R117). -/
def dropHeld (c : Claim) (n : Nat) (why : Reason) : Claim :=
  if c.floor.stack.any (·.holds n) then
    let recs := c.floor.stack.flatMap fun fr => fr.records.filter (·.seat = n)
    let ents := c.floor.stack.flatMap fun fr => fr.entries.filter (·.seat = n)
    let c1 := c.modFloor fun f => { f with stack := f.stack.map fun fr =>
      { fr with records := fr.records.filter (·.seat ≠ n), entries := fr.entries.filter (·.seat ≠ n) } }
    let c2 := recs.foldl (fun c h => c.notify (heldReleased h why)) c1
    let c3 := ents.foldl (fun c e => c.notify (replyDropped n e.target why)) c2
    (c3.raise .stack).touch n
  else c

/-- Close the delegate slot a seat holds, if any. -/
def closeSlotOf (c : Claim) (n : Nat) (why : Reason) : Claim :=
  match c.floor.slotOf n with
  | some i => c.closeSlot i why
  | none => c

/-- Close the chair slot a seat holds, if any. -/
def closeChairOf (c : Claim) (n : Nat) (why : Reason) : Claim :=
  match c.floor.chairOf n with
  | some i => c.closeChair i why
  | none => c

/-- Remove a seat from wherever it is found on the floor (R6 step 1, R7, R8). -/
def removeSeat (c : Claim) (n : Nat) (why : Reason) : Claim :=
  ((((c.dequeue n why).dropReply n why).closeSlotOf n why).closeChairOf n why).dropHeld n why

/-- Remove several seats in one event: their reply list entries in list order (R88), then each seat in the order given from wherever
else it is found (notes/assumptions/18.md). -/
def removeSeats (c : Claim) (ns : List Nat) (why : Reason) : Claim :=
  ns.foldl (fun c n => c.removeSeat n why) (c.dropReplies ns why)

/-! ### Halting the floor (R65, R118) -/

/-- The FRAME_DISCARDED notice (R108, R118). -/
def frameDiscarded (fr : StackFrame) (why : Reason) : Notice :=
  ⟨.frameDiscarded, fr.source.subject, some (codeIn reasonRow why), [detailOf fr.records.length, detailOf fr.entries.length]⟩

/-- The seats a frame holds, records first. -/
def heldSeats (fr : StackFrame) : List Nat := fr.records.map (·.seat) ++ fr.entries.map (·.seat)

/-- Discard every frame, top first (R118). -/
def discardFrames (c : Claim) : Claim :=
  let frames := c.floor.stack
  if frames = [] then c
  else
    (frames.foldl (fun c fr => ((c.modFloor fun f => { f with stack := f.stack.tail }).notify
      (frameDiscarded fr .halt)).touchAll (heldSeats fr)) c).raise .stack

/-- Steps 1 to 4 of R65. -/
def clearFloor (c : Claim) : Claim :=
  let c1 := c.discardFrames
  let c2 := chairPlaces.foldl (fun c i => c.setChairMode i .mic) c1
  let c3 := (c2.floor.slotsByAge c2.time).foldl (fun c x => c.releaseSlot x.1 .halt) c2
  c3.clearReplies .halt

/-- The claim of FLOOR HALT outside HALTED (R65); the round's subject ends with the phase (R87). -/
def haltFloor (c : Claim) : Claim :=
  if c.floor.phase = .halted then c
  else (((c.clearFloor).modFloor fun f => { f with subject := none }).setPhase .halted).raise .floor

/-- Close the list gate; an already closed gate changes nothing (R24). -/
def closeGate (c : Claim) : Claim :=
  if c.floor.gate = .closed then c else (c.modFloor fun f => { f with gate := .closed }).raise .list

/-! ### The end of an event -/

/-- What an event leaves: the list version one higher, with the LIST flag, when the event left the list different or a grant
within it took an entry (R22, R31, R49; notes/assumptions/15.md), and the images settled in the order of their changes (R19). -/
def close (before : List RequestEntry) (c : Claim) : State :=
  let s1 :=
    if before ≠ c.floor.requests ∨ c.tookEntry then
      (c.st.modFloor fun f => { f with listVersion := f.listVersion + 1 }).raise .list
    else c.st
  c.touched.foldl State.settleImage s1

end Claim

/-- One event on the floor: its body, then the fill or the serve point at its end, then the list version and the images. -/
def State.event (s : State) (body : Claim → Claim) : State :=
  Claim.close s.floor.requests (body (.start s)).settleFloor

/-! ### Presence (R8) -/

namespace Claim

/-- Write a seat's presence. -/
def setPresence (c : Claim) (n : Nat) (p : Presence) : Claim :=
  c.trackHead fun c => c.modSeat n fun r => { r with presence := p }

/-- The PRESENCE notice and flag of a change made during sweeps (R8). -/
def reportPresence (c : Claim) (n : Nat) (p : Presence) : Claim :=
  (c.notify (.ofSeat .presence n (codeIn presenceRow p))).raise .presence

/-- Mark the position of a seat that returns to PRESENT, with the label flag if it has a label (R8). -/
def markReturn (c : Claim) (n : Nat) : Claim := c.lift fun s => s.markSeat n (s.seat n).label.isSome

/-- A seat becomes ABSENT: it leaves the floor and its pending entry is removed (R8). -/
def leave (c : Claim) (n : Nat) : Claim :=
  let c1 := c.removeSeat n .absent
  match (c.st.seat n).binding with
  | some b => c1.lift (·.modTrunk b.trunk (·.unmark b.position))
  | none => c1

/-- A seat becomes ABSENT during sweeps, with its PRESENCE report (R8, R151). -/
def becomeAbsent (c : Claim) (n : Nat) : Claim := ((c.setPresence n .absent).reportPresence n .absent).leave n

/-- A seat answers during sweeps: PRESENT, reported and marked when it was ABSENT or UNCONFIRMED; a waiting seat that was
UNCONFIRMED makes a fill point, a reply-waiting one a serve point (R8, R50, R92). -/
def becomePresent (c : Claim) (n : Nat) : Claim :=
  match (c.st.seat n).presence with
  | .present => c
  | .fading => c.setPresence n .present
  | .absent => ((c.setPresence n .present).reportPresence n .present).markReturn n
  | .unconfirmed =>
    let c1 := ((c.setPresence n .present).reportPresence n .present).markReturn n
    let c2 := if (c.floor.requestOf n).isSome then c1.fillPoint else c1
    if (c.floor.replyOf n).isSome then c2.servePoint else c2

end Claim
end Sys2Proof.Machine
end

