-- ==== Sys2Proof/Machine/Links.lean ====
section
/-! DEFINITION. The Link Ports and the Command Interpreter (chapter 9): reception, transmission, taking a held command and
answering it, authority and takeover, identity and restart. -/

namespace Sys2Proof.Machine

/-! ### The device reset (R173) -/

/-- Every block takes its device-reset values and the baud straps are sampled from their pins. The pins, the internal timer, the
free value counter and the queue go on (notes/assumptions/9.md). -/
def State.deviceReset (s : State) : State :=
  { State.reset with
    timeBase := .initial s.now, ports := .initial (baudOf s.pins.baud1 s.pins.baud0), pins := s.pins, now := s.now,
    freeDraws := s.freeDraws, pending := s.pending }

/-! ### Transmission (R161, R162) -/

/-- The frame is a REJECT. -/
def TxFrame.isReject : TxFrame → Bool
  | .reject _ => true
  | .reply _ _ => false

/-- REJECT frames waiting behind the frame in transmission. -/
def LinkPort.waitingRejects (p : LinkPort) : Nat := (p.transmit.tail.filter TxFrame.isReject).length

/-- A REJECT is built and handed to the transmit queue, or discarded unsent when four wait (R162). -/
def LinkPort.reject (p : LinkPort) (tag : Byte) (r : RejectReason) : LinkPort :=
  if p.waitingRejects < Config.rejectCapacity then { p with transmit := p.transmit ++ [.reject (rejectFrame tag r)] } else p

/-! ### Reception (R160, R163) -/

/-- The TAG received so far, 0 when the frame is too short to hold it (R161). -/
def LinkPort.receivedTag (p : LinkPort) : Byte := p.buffer.getD 3 0

/-- A frame ends: the assembly buffer is emptied and the receiver returns to HUNT (R160). -/
def LinkPort.endFrame (p : LinkPort) : LinkPort := { p with buffer := [] }

/-- More than 20 ms have passed since the last byte of the frame being received (R160). -/
def LinkPort.silent (p : LinkPort) (m : Nat) : Bool := p.buffer ≠ [] ∧ p.lastByteAt + Config.silenceSpan < m

/-- The frame ends with a REJECT of reason TIMEOUT (R160). -/
def LinkPort.timeout (p : LinkPort) : LinkPort := (p.reject p.receivedTag .timeout).endFrame

/-- The byte would be LEN: the buffer holds the SYNC alone. -/
def LinkPort.awaitsLen (p : LinkPort) : Bool := p.buffer.length = 1

/-- A LEN below 2 or above 252 (R160). -/
def badLen (b : Byte) : Bool := b.toNat < 2 ∨ 252 < b.toNat

/-- With one more byte LEN + 2 bytes have followed LEN (R160). -/
def LinkPort.completesWith (p : LinkPort) : Bool := 2 ≤ p.buffer.length ∧ p.buffer.length + 1 = u8 p.buffer 1 + 4

/-- A whole frame, its bytes from SYNC to CHECK, is checked; it becomes the held command, or is rejected CHECK or BUSY (R160,
R163). -/
def State.completeFrame (s : State) (l : Link) (frame : List Byte) : State :=
  let tag := frame.getD 3 0
  if checkPasses frame.tail then
    let s1 := s.modPort l fun p => { p.endFrame with lastValid := s.time }
    let s2 := if s.hasControl l then { s1 with ports := { s1.ports with takeoverOpen := false } } else s1
    s2.modPort l fun p =>
      if p.command = .idle then
        { p with command := .holding ⟨frame.getD 2 0, tag, (frame.drop 4).take (u8 frame 1 - 2), s.now⟩ }
      else p.reject tag .busy
  else s.modPort l fun p => (p.reject tag .check).endFrame

/-- The port after a silence that is due by now (R160; notes/assumptions/4.md). -/
def State.settleSilence (s : State) (l : Link) : State :=
  s.modPort l fun p => if p.silent s.now then p.timeout else p

/-- One byte is received at moment m (R160). -/
def State.receiveByte (s : State) (l : Link) (b : Byte) (m : Nat) : State :=
  let s0 := (s.reachMoment m).settleSilence l
  let p := s0.port l
  let s1 := s0.modPort l fun p => { p with lastByteAt := s0.now }
  if p.buffer = [] then
    if b = sync then s1.modPort l fun p => { p with buffer := [sync] } else s1
  else if p.awaitsLen ∧ badLen b then s1.modPort l fun p => (p.reject 0 .length).endFrame
  else if p.completesWith then s1.completeFrame l (p.buffer ++ [b])
  else s1.modPort l fun p => { p with buffer := p.buffer ++ [b] }

/-! ### Taking a command (R164 to R166) -/

/-- What a command answers: its status, the result that follows it, and whether a device reset follows the reply (R173). -/
structure Reply where
  status : Status
  result : List Byte
  restart : Bool
  deriving DecidableEq, Repr

/-- A reply of a status and its result. -/
abbrev Reply.of (status : Status) (result : List Byte := []) : Reply := ⟨status, result, false⟩

/-- A command's own action: from its payload and the state to the state and the reply. -/
abbrev Action : Type := List Byte → State → State × Reply

/-- Nothing is done and this status is answered. -/
def refuseWith (status : Status) (s : State) : State × Reply := (s, .of status)

/-- The moment the other port's held command completed, if it holds one. -/
def State.heldAt (s : State) (l : Link) : Option Nat :=
  match (s.port l).command with
  | .holding c => some c.completedAt
  | _ => none

/-- The held command of a port that the interpreter may take now: frames that completed earlier go first, and of two that
completed together either may be first (R164). -/
def State.takeable (s : State) (l : Link) : Option HeldCommand :=
  match (s.port l).command with
  | .holding c => if (s.heldAt l.other).all fun m => c.completedAt ≤ m then some c else none
  | _ => none

/-- The bytes of the reply to a command (R166). -/
def Reply.frame (c : HeldCommand) (r : Reply) : List Byte :=
  linkFrame (replyKind c.kind) c.tag (r.status.code :: r.result)

/-- The reply is handed to the port: the held command becomes absent and the port REPLYING (R163, R166). -/
def State.answer (s : State) (l : Link) (c : HeldCommand) (r : Reply) : State :=
  let s1 := s.modPort l fun p => { p with command := .replying, transmit := p.transmit ++ [.reply (r.frame c) r.restart] }
  { s1 with freeDraws := s1.freeDraws + 1 }

/-- The interpreter takes the held command of a link, if it is one that this row takes: the authority and length checks of R165,
then the command's own action, then its reply. -/
def State.take (s : State) (l : Link) (takes : HeldCommand → Bool) (needsControl : Bool) (lengths : Nat → Bool)
    (action : Action) : State :=
  match s.takeable l with
  | none => s
  | some c =>
    if takes c then
      if needsControl ∧ !s.hasControl l then s.answer l c (.of .denied)
      else if lengths c.payload.length then
        let (s1, r) := action c.payload s
        s1.answer l c r
      else s.answer l c (.of .badLength)
    else s

/-- The command is of this kind. -/
def ofKind (k : Byte) (c : HeldCommand) : Bool := c.kind = k

/-- The command is of this kind and its selector, the payload byte at this place, is none of those that name the kind's other
rows (notes/assumptions/7.md). -/
def ofKindBut (k : Byte) (place : Nat) (others : List Nat) (c : HeldCommand) : Bool :=
  c.kind = k && !others.contains (u8 c.payload place)

/-- The payload has exactly n bytes (R185). -/
def exactly (n : Nat) (len : Nat) : Bool := len = n

/-- The kinds that name a command (11.4). -/
def commandKinds : List Byte :=
  [0x01, 0x02, 0x03, 0x04, 0x05, 0x10, 0x11, 0x12, 0x13, 0x14, 0x15, 0x20, 0x21, 0x22, 0x23, 0x24, 0x25, 0x26, 0x27, 0x28] ++
  [0x30, 0x31, 0x32, 0x33, 0x34, 0x35, 0x36, 0x37, 0x38, 0x40, 0x41, 0x42, 0x48, 0x49, 0x4A, 0x50, 0x51, 0x52, 0x53, 0x54] ++
  [0x60, 0x61, 0x62, 0x63, 0x70, 0x71, 0x72, 0x73, 0x74]

/-! ### Authority and takeover (R167 to R171) -/

/-- The code of a link's authority class (R167, 11.3). -/
def State.classCode (s : State) (l : Link) : Byte := if s.hasControl l then 0 else 1

/-- A move of authority to a link, with its cause: HAND 0, CLAIM 1 (R167). -/
def State.moveAuthority (s : State) (target : Link) (cause : Byte) : State :=
  let s1 := { s with ports := { s.ports with control := target, takeoverOpen := false } }
  (s1.raise .authority).notify ⟨.authority, .none, some (codeIn linkRow target), [detailCode cause]⟩

/-- AUTHORITY HAND (R168). -/
def handAction (l : Link) : Action := fun _ s =>
  let s1 := s.moveAuthority l.other 0
  (s1, .of .done [s1.classCode l])

/-- AUTHORITY CLAIM (R170). -/
def claimAction (l : Link) : Action := fun _ s =>
  if s.hasControl l then (s, .of .unchanged [s.classCode l])
  else if s.ports.takeoverOpen then
    let s1 := s.moveAuthority l 1
    (s1, .of .done [s1.classCode l])
  else refuseWith .denied s

/-- LINK CONFIG (R171). -/
def linkConfigAction : Action := fun p s =>
  let v := u16 p 0
  let result (s : State) := be16 s.ports.takeoverInterval ++ [s.classCode .a, s.classCode .b]
  if 600 < v then refuseWith .range s
  else if v = s.ports.takeoverInterval then (s, .of .unchanged (result s))
  else
    let s1 := { s with ports := { s.ports with takeoverInterval := v, takeoverOpen := false } }
    (s1, .of .done (result s1))

/-- IDENTIFY (R172). -/
def identifyAction (l : Link) : Action := fun _ s =>
  (s, .of .done (be16 0x462 ++ [0x01] ++ be16 Config.seats ++
    [4, be8 Config.positions, 6, 2, be8 Config.listCapacity, be8 Config.replyCapacity, be8 Config.stackCapacity,
     be8 Config.noticeCapacity, s.classCode l]))

/-- One silence measure (R169). -/
def State.measureSilence (s : State) : State :=
  let q := s.ports
  if q.takeoverInterval ≠ 0 ∧ !q.takeoverOpen ∧
      reached s.time (after (s.port q.control).lastValid (10 * q.takeoverInterval)) then
    { s with ports := { q with takeoverOpen := true } }
  else s

/-! ### The rows -/

/-- DEVICE_RESET: RSTN goes low; every block is reset and stays so until RSTN returns high (R173, R176, R182). -/
def execDeviceReset (s : State) : Host.Outcome State Fault Refusal :=
  .next { s.deviceReset with pins := { s.pins with rstnLow := true } }

/-- RESET_RELEASE: RSTN returns high; the straps are sampled (00_scope.md, Electrical notes) and the internal timer's next tick
is counted from now (R123). -/
def execResetRelease (baud1 baud0 : Bool) (m : Nat) (s : State) : Host.Outcome State Fault Refusal :=
  .next (if s.pins.rstnLow then
    let s1 := s.reachMoment m
    { s1 with
      pins := { s1.pins with rstnLow := false, baud1 := baud1, baud0 := baud0 }
      ports := { s1.ports with baud := baudOf baud1 baud0 }
      timeBase := { s1.timeBase with lastTick := s1.now } }
  else s)

/-- LINK_BYTE (R160). -/
def execLinkByte (l : Link) (b : Byte) (m : Nat) (s : State) : Host.Outcome State Fault Refusal :=
  .next (if s.pins.rstnLow then s else s.receiveByte l b m)

/-- LINK_FRAME_COMPLETE: a byte that completes its frame (R160, R163; notes/assumptions/6.md). -/
def execLinkFrameComplete (l : Link) (b : Byte) (m : Nat) (s : State) : Host.Outcome State Fault Refusal :=
  .next (if !s.pins.rstnLow ∧ (s.port l).completesWith ∧ !(s.port l).silent (max s.now m) then s.receiveByte l b m else s)

/-- LEN_REJECT: a byte in LEN's place that is no length (R160; notes/assumptions/6.md). -/
def execLenReject (l : Link) (b : Byte) (m : Nat) (s : State) : Host.Outcome State Fault Refusal :=
  .next (if !s.pins.rstnLow ∧ (s.port l).awaitsLen ∧ badLen b ∧ !(s.port l).silent (max s.now m) then s.receiveByte l b m
    else s)

/-- LINK_FRAME_TIMEOUT: more than 20 ms of silence inside a frame (R160). -/
def execLinkFrameTimeout (l : Link) (s : State) : Host.Outcome State Fault Refusal :=
  .next (if (s.port l).buffer ≠ [] then
    (s.reachMoment ((s.port l).lastByteAt + Config.silenceSpan + 1)).modPort l LinkPort.timeout
  else s)

/-- REPLY_SENT: the reply in transmission has been sent; the port becomes IDLE (R163), and a RESTART's device reset follows
(R173). -/
def execReplySent (l : Link) (s : State) : Host.Outcome State Fault Refusal :=
  .next (match (s.port l).transmit with
    | .reply _ restart :: rest =>
      if restart then s.deviceReset else s.modPort l fun p => { p with transmit := rest, command := .idle }
    | _ => s)

/-- REJECT_SENT: the REJECT in transmission has been sent (R162). -/
def execRejectSent (l : Link) (s : State) : Host.Outcome State Fault Refusal :=
  .next (match (s.port l).transmit with
    | .reject _ :: rest => s.modPort l fun p => { p with transmit := rest }
    | _ => s)

/-- UNKNOWN_COMMAND: BAD_KIND (R165). -/
def execUnknownCommand (l : Link) (s : State) : Host.Outcome State Fault Refusal :=
  .next (s.take l (fun c => !commandKinds.contains c.kind) false (fun _ => true) fun _ s => refuseWith .badKind s)

/-- IDENTIFY (R172). -/
def execIdentify (l : Link) (s : State) : Host.Outcome State Fault Refusal :=
  .next (s.take l (ofKind 0x01) false (exactly 0) (identifyAction l))

/-- RESTART: DONE, and the device reset follows the reply (R173). -/
def execRestart (l : Link) (s : State) : Host.Outcome State Fault Refusal :=
  .next (s.take l (ofKind 0x02) true (exactly 0) fun _ s => (s, ⟨.done, [], true⟩))

/-- AUTHORITY HAND (R168). -/
def execAuthorityHand (l : Link) (s : State) : Host.Outcome State Fault Refusal :=
  .next (s.take l (ofKind 0x03) true (exactly 0) (handAction l))

/-- AUTHORITY CLAIM (R170). -/
def execAuthorityClaim (l : Link) (s : State) : Host.Outcome State Fault Refusal :=
  .next (s.take l (ofKind 0x04) false (exactly 0) (claimAction l))

/-- LINK CONFIG (R171). -/
def execLinkConfig (l : Link) (s : State) : Host.Outcome State Fault Refusal :=
  .next (s.take l (ofKind 0x05) true (exactly 2) linkConfigAction)

/-- SILENCE_MEASURE (R169). -/
def execSilenceMeasure (s : State) : Host.Outcome State Fault Refusal :=
  .next (if 0 < s.due.silence then { s with due := { s.due with silence := s.due.silence - 1 } }.measureSilence else s)

end Sys2Proof.Machine
end

