-- ==== Sys2Proof/Machine/Stack.lean ====
section
/-! DEFINITION. The interruption stack (chapter 6): the push with its overflow, the pop, and the commands SUSPEND, RESUME and
STACK READ. The stack is listed top first. -/

namespace Sys2Proof.Machine
namespace Claim

/-! ### The push (R104 to R109) -/

/-- The state of a seat's chair slot: CLOSED when it holds none (R105). -/
def chairStateOf (c : Claim) (n : Nat) : ChairState :=
  match c.floor.chairOf n with
  | some i => ((c.floor.chairs[i]).map (·.mode)).getD .closed
  | none => .closed

/-- The seat holds no chair slot and both are held in PRIORITY by others (R104, step 1). -/
def chairBusy (c : Claim) (n : Nat) : Bool :=
  (c.floor.chairOf n).isNone && chairPlaces.all fun i => c.floor.chairs[i].any (·.mode = .priority)

/-- Why a chair slot is closed when an overflow returns it to CLOSED (R109). -/
def overflowReason : Source → Reason
  | .seat _ => .bumped
  | .link _ => .host

/-- A seat's chair slot is returned to the state recorded in a discarded frame (R109). -/
def returnAtOverflow (c : Claim) (n : Nat) (recorded : ChairState) (why : Reason) : Claim :=
  match c.floor.chairOf n with
  | none => c
  | some i =>
    match recorded with
    | .mic => c.setChairMode i .mic
    | .closed => c.closeChair i why
    | .priority => c

/-- Give the lowest frame of a seat the recorded chair state; the frames are listed top first (R109). -/
def handChairState (n : Nat) (recorded : Option ChairState) : List StackFrame → Option (List StackFrame)
  | [] => none
  | fr :: rest =>
    match handChairState n recorded rest with
    | some rest' => some (fr :: rest')
    | none => if fr.source = .seat n then some ({ fr with chairState := recorded } :: rest) else none

/-- Give the bottom frame the discarded frame's saved phase and subject; the frames are listed top first (R108). -/
def handPhase (d : StackFrame) : List StackFrame → List StackFrame
  | [] => []
  | [fr] => [{ fr with savedPhase := d.savedPhase, subject := d.subject }]
  | fr :: rest => fr :: handPhase d rest

/-- The overflow of a push by a source onto a full stack (R108, R109). The second part is the chair state handed down to the
frame being pushed, if it is. -/
def overflow (c : Claim) (src : Source) : Claim × Option ChairState :=
  match c.floor.stack.getLast? with
  | none => (c, none)
  | some d =>
    if c.floor.stack.length < Config.stackCapacity then (c, none)
    else
      let c1 := (((c.modFloor fun f => { f with stack := handPhase d f.stack.dropLast }).notify
        (frameDiscarded d .limit)).raise .stack).touchAll (heldSeats d)
      match d.source, d.chairState with
      | .seat n, some recorded =>
        match handChairState n (some recorded) c1.floor.stack with
        | some frames => (c1.modFloor fun f => { f with stack := frames }, none)
        | none =>
          if src = .seat n then (c1, some recorded)
          else (c1.returnAtOverflow n recorded (overflowReason src), none)
      | _, _ => (c1, none)

/-- The held slot record of an open slot (R80, R105). -/
def holdSlot (now : ChamberTime) (d : DelegateSlot) : HeldSlot :=
  { seat := d.seat, kind := d.kind, origin := d.origin,
    remaining := d.deadline.map fun t => if reached now t then 0 else (t - now).toNat,
    overtime := d.overtime, warned := d.warned now }

/-- The new frame is built and put on top; the delegate slots and the reply list move into it (R105). -/
def pushFrame (c : Claim) (src : Source) (chairState : Option ChairState) : Claim :=
  let records := (c.floor.slotsByAge c.time).map fun x => holdSlot c.time x.2
  let entries := c.floor.replies.map fun e => (⟨e.seat, e.target⟩ : HeldReply)
  let fr : StackFrame :=
    { source := src, pushedAt := c.time, savedPhase := c.floor.phase, subject := c.floor.subject, records := records,
      entries := entries, chairState := chairState }
  let c1 := c.modFloor fun f =>
    { f with stack := fr :: f.stack, slots := Vector.replicate 6 none, replies := [], subject := none }
  (if entries = [] then c1 else c1.raise .reply).touchAll (heldSeats fr)

/-- The open chair slots in MIC, the oldest first; equal ages by index (R106). -/
def micChairsByAge (c : Claim) : List (Fin 2 × ChairSlot) :=
  sortBy (fun x y => age c.time y.2.openedAt ≤ age c.time x.2.openedAt)
    (chairPlaces.filterMap fun i => (c.floor.chairs[i]).bind fun d => if d.mode = .mic then some (i, d) else none)

/-- The chair slot of a push by a seat is switched to or opened in PRIORITY, taking over the oldest MIC slot when no place is
free (R106). -/
def takePriority (c : Claim) (n : Nat) : Claim :=
  match c.floor.chairOf n with
  | some i => c.setChairMode i .priority
  | none =>
    match c.floor.freeChair with
    | some i => c.openChair i n .priority
    | none =>
      match c.micChairsByAge with
      | [] => c
      | (i, d) :: _ =>
        ((c.closeChair i .bumped).notify
          (.ofSeat .chairBumped d.seat none [detailOf n, detailOf i])).openChair i n .priority

/-- The phase becomes INTERRUPTED and the push is reported (R107). -/
def reportPush (c : Claim) (src : Source) : Claim :=
  let c1 := c.setPhase .interrupted
  let top := c1.floor.stack.head?
  let held := ((top.map (·.records.length)).getD 0, (top.map (·.entries.length)).getD 0)
  (c1.notify ⟨.interrupt, src.subject, some (be8 c1.floor.stack.length), [detailOf held.1, detailOf held.2]⟩).raise .interrupt

/-- A push of a link (R103, R104). -/
def pushLink (c : Claim) (l : Link) : Claim :=
  let (c1, _) := c.overflow (.link l)
  (c1.pushFrame (.link l) none).reportPush (.link l)

/-- A push of a seat whose chair check has passed (R104). -/
def pushSeat (c : Claim) (n : Nat) : Claim :=
  let (c1, handed) := c.overflow (.seat n)
  let c2 := c1.pushFrame (.seat n) (some (handed.getD (c1.chairStateOf n)))
  (c2.takePriority n).reportPush (.seat n)

/-! ### The pop (R111 to R116) -/

/-- Why a held record cannot return, if it cannot: the first of UNBIND, DISABLE and ABSENT that applies (R112, R113). `here` says
whether the seat's presence suffices. The class alone gives UNBIND (notes/assumptions/22.md). -/
def lostReason (s : State) (n : Nat) (here : Bool) : Option Reason :=
  let r := s.seat n
  if r.binding.isNone then some .unbind
  else if !r.enabled then some .disable
  else if !here then some .absent
  else if !s.hasClass n .delegate then some .unbind
  else none

/-- The slot a held record is restored to (R81, R112). -/
def restoredSlot (now : ChamberTime) (lead : Nat) (h : HeldSlot) : DelegateSlot :=
  { seat := h.seat, kind := h.kind, origin := h.origin, grantedAt := now,
    allowance := h.remaining.elim 0 fun r => if r = 0 then 1 else r,
    deadline := h.remaining.map (after now),
    warnAt := h.remaining.bind fun r => if h.warned then some now else warnPoint now r lead,
    overtime := h.overtime }

/-- One held slot record is restored or lost; the counts are those restored and lost so far (R112). -/
def restoreRecord (x : Claim × Nat × Nat) (h : HeldSlot) : Claim × Nat × Nat :=
  let (c, restored, lost) := x
  let lose (why : Reason) := ((c.notify (heldReleased h why)).touch h.seat, restored, lost + 1)
  match lostReason c.st h.seat (c.st.isHere h.seat) with
  | some why => lose why
  | none =>
    match c.floor.freeSlot with
    | none => lose .limit
    | some i =>
      if c.policy.floorMax ≤ c.floor.openCount then lose .limit
      else
        let c1 := c.modFloor fun f => { f with slots := f.slots.set i (some (restoredSlot c.time c.policy.warnLead h)) }
        ((c1.raise .floor).touch h.seat, restored + 1, lost)

/-- One held reply entry returns or is dropped (R113). -/
def returnEntry (c : Claim) (e : HeldReply) : Claim :=
  let c1 :=
    match lostReason c.st e.seat ((c.st.seat e.seat).presence ≠ .absent) with
    | some why => c.notify (replyDropped e.seat e.target why)
    | none => c.modFloor fun f => { f with replies := f.replies ++ [({ seat := e.seat, target := e.target, stamp := c.time } : ReplyEntry)] }
  (c1.raise .reply).touch e.seat

/-- The phase is reconciled with what the pop restored (R114). -/
def reconcile (c : Claim) (saved : Phase) : Claim :=
  match saved with
  | .openFloor =>
    match c.floor.replies with
    | [] => c
    | e :: _ => if (c.floor.principal c.time).any (·.2.seat = e.target) then c else c.beginRound e.target
  | .replyRound => if c.floor.replySlot.isNone ∧ c.floor.replies = [] then c.endRound else c
  | .halted | .interrupted => c

/-- The restored slots whose deadline is the moment of the pop expire, in slot order (R81, R115). -/
def expireRestored (c : Claim) : Claim :=
  slotPlaces.foldl (fun c i =>
    if c.floor.slots[i].any fun d => d.deadline = some c.time ∧ !d.overtime ∧ d.grantedAt = c.time then c.expire i else c) c

/-- The chair slot of a popped frame's source is returned to the frame's state (R115); a recorded PRIORITY leaves the slot in the
mode it is found in, MIC too (notes/assumptions/38.md). -/
def returnChair (c : Claim) (fr : StackFrame) (why : Reason) : Claim :=
  match fr.source, fr.chairState with
  | .seat n, some recorded =>
    if c.st.hasClass n .president then
      match c.floor.chairOf n with
      | none => c
      | some i =>
        match recorded with
        | .priority => c
        | .mic => c.setChairMode i .mic
        | .closed => c.closeChair i why
    else c
  | _, _ => c

/-- A pop of the top frame, by the source's PRIO press (why SELF) or by RESUME (why HOST), with the numbers of records restored
and lost (R111 to R116). -/
def pop (c : Claim) (why : Reason) : Claim × Nat × Nat :=
  match c.floor.stack with
  | [] => (c, 0, 0)
  | fr :: rest =>
    let c1 := (c.modFloor fun f => { f with stack := rest, subject := fr.subject }).setPhase fr.savedPhase
    let (c2, restored, lost) := fr.records.foldl restoreRecord (c1, 0, 0)
    let c3 := fr.entries.foldl returnEntry c2
    let c4 := ((c3.reconcile fr.savedPhase).expireRestored).returnChair fr why
    let c5 := (c4.notify ⟨.resume, fr.source.subject, some (be8 rest.length), [detailOf restored, detailOf lost]⟩).raise
      .interrupt
    (c5.fillPoint, restored, lost)

end Claim

/-! ### The commands -/

/-- SUSPEND (R103). -/
def suspendAction (l : Link) : Action := fun _ s =>
  let dropped := if s.floor.stack.length < Config.stackCapacity then 0 else 1
  let s1 := s.event fun c => c.pushLink l
  (s1, .of .done [be8 s1.floor.stack.length, dropped])

/-- RESUME (R111). -/
def resumeAction : Action := fun _ s =>
  if s.floor.stack = [] then refuseWith .notInterrupted s
  else
    let (_, restored, lost) := (Claim.start s).pop .host
    let s1 := s.event fun c => (c.pop .host).1
    (s1, .of .done [be8 s1.floor.stack.length, codeIn phaseRow s1.floor.phase, be8 restored, be8 lost])

/-- The source field of a stack frame record (11.5). -/
def Source.bytes : Source → List Byte
  | .seat n => be16 n
  | .link .a => be16 0xFFF0
  | .link .b => be16 0xFFF1

/-- A remaining time, FFFFh for UNLIMITED (11.3). -/
def remainingBytes (r : Option Nat) : List Byte := be16 (r.getD 0xFFFF)

/-- A held slot record (11.5). -/
def HeldSlot.bytes (h : HeldSlot) : List Byte :=
  be16 h.seat ++ [codeIn slotKindRow h.kind, codeIn originRow h.origin] ++ remainingBytes h.remaining ++
    [(if h.overtime then 1 else 0) ||| (if h.warned then 2 else 0)]

/-- A stack frame (11.5). -/
def StackFrame.bytes (fr : StackFrame) : List Byte :=
  fr.source.bytes ++ be32 fr.pushedAt ++ [codeIn phaseRow fr.savedPhase] ++ be16 (fr.subject.getD 0) ++
    [(fr.chairState.map (codeIn chairStateRow)).getD 0xFF, be8 fr.records.length] ++ fr.records.flatMap HeldSlot.bytes ++
    [be8 fr.entries.length] ++ fr.entries.flatMap fun e => be16 e.seat ++ be16 e.target

/-- STACK READ (R120). -/
def stackReadAction : Action := fun p s =>
  let i := u8 p 0
  let depth := be8 s.floor.stack.length
  if 3 < i then refuseWith .range s
  else match s.floor.stack[i]? with
    | none => (s, .of .notFound [depth])
    | some fr => (s, .of .done (depth :: fr.bytes))

/-- SUSPEND (R103). -/
def execSuspend (l : Link) (s : State) : Host.Outcome State Fault Refusal :=
  .next (s.take l (ofKind 0x48) true (exactly 0) (suspendAction l))

/-- RESUME (R111). -/
def execResume (l : Link) (s : State) : Host.Outcome State Fault Refusal :=
  .next (s.take l (ofKind 0x49) true (exactly 0) resumeAction)

/-- STACK READ (R120). -/
def execStackRead (l : Link) (s : State) : Host.Outcome State Fault Refusal :=
  .next (s.take l (ofKind 0x4A) false (exactly 1) stackReadAction)

end Sys2Proof.Machine
end

