-- ==== Sys2Proof/Machine/Intake.lean ====
section
/-! DEFINITION. What an advance brings to the floor: the intake with its batch, its draws and its presses (chapter 2), the
deadline pass (R76), the displacement check (R52) and the ends of refusal displays (R18); and the HOLD input (R25). -/

namespace Sys2Proof.Machine

/-! ### The draw generator (R28, R29) -/

/-- One step of the draw generator; the new state is also the output (R29). -/
def drawStep (w : Word) : Word :=
  let a := w ^^^ (w <<< 13)
  let b := a ^^^ (a >>> 17)
  b ^^^ (b <<< 5)

/-- Exchange the items at two places (R28). -/
def exchange {α : Type} (items : List α) (i j : Nat) : List α :=
  match items[i]?, items[j]? with
  | some x, some y => (items.set i y).set j x
  | _, _ => items

/-- Draw an order for the items from place i down to place 1 (R28, R41). -/
def drawFrom {α : Type} : Nat → Word → List α → List α × Word
  | 0, w, items => (items, w)
  | i + 1, w, items =>
    let w' := drawStep w
    drawFrom i w' (exchange items (i + 1) (w'.toNat % (i + 2)))

/-- Draw an order for all the items: one step for each but one of them (R28, R41). -/
def drawOrder {α : Type} (w : Word) (items : List α) : List α × Word := drawFrom (items.length - 1) w items

/-- The things named in a list, each once, in the order of their first places. -/
def distinct {α : Type} [DecidableEq α] : List α → List α
  | [] => []
  | x :: xs => x :: (distinct xs).filter (· ≠ x)

/-! ### The batch (R26 to R28) -/

/-- A record's stamp is earlier than the present chamber time (R26). -/
def CaptureRecord.qualifies (now : ChamberTime) (r : CaptureRecord) : Bool := reached now (r.stamp + 1)

/-- The notice with which a record is dropped from the batch, if it is dropped (R26). -/
def State.strayNotice (s : State) (r : CaptureRecord) : Option Notice :=
  if s.seatAt r.trunk r.position ≠ some r.seat then
    some ⟨.stray, .trunk r.trunk, none, [detailOf r.position, detailOf r.seat]⟩
  else if s.isHere r.seat then none
  else some (.ofSeat .stray r.seat (codeIn presenceRow (s.seat r.seat).presence))

/-- The records by stamp, oldest first, and by seat among equal stamps; records of one seat keep their order (R27). -/
def bySeat (now : ChamberTime) (batch : List CaptureRecord) : List CaptureRecord :=
  sortBy (fun x y => age now y.stamp < age now x.stamp ∨ age now y.stamp = age now x.stamp ∧ x.seat ≤ y.seat) batch

/-- One tie group, ordered by seat, put into drawn order (R28). -/
def drawGroup (w : Word) (group : List CaptureRecord) : List CaptureRecord × Word :=
  let (seats, w') := drawOrder w (distinct (group.map (·.seat)))
  (seats.flatMap fun n => group.filter (·.seat = n), w')

/-- The batch's tie groups, oldest stamp first, each put into drawn order (R28). -/
def drawBatch (w : Word) (ordered : List CaptureRecord) : List CaptureRecord × Word :=
  (distinct (ordered.map (·.stamp))).foldl (fun (done, w) t =>
    let (group, w') := drawGroup w (ordered.filter (·.stamp = t))
    (done ++ group, w')) ([], w)

/-- The batch in the order in which it is applied, and the draw state after it (R27, R28). -/
def orderBatch (now : ChamberTime) (p : Policy) (w : Word) (batch : List CaptureRecord) : List CaptureRecord × Word :=
  match p.tieOrder with
  | .seat => (bySeat now batch, w)
  | .draw => drawBatch w (bySeat now batch)

/-! ### Presses -/

/-- The button belongs to the class (R3). -/
def SeatClass.hasButton : SeatClass → Button → Bool
  | .delegate, .req | .delegate, .rpl => true
  | .chair, .mic | .chair, .next | .chair, .cut => true
  | .president, .mic | .president, .next | .president, .cut | .president, .prio => true
  | _, _ => false

namespace Claim

/-- A request list entry put at an index, with its QUEUED notice (R23, R32, R37). -/
def enqueue (c : Claim) (i : Nat) (e : RequestEntry) : Claim :=
  ((c.trackHead fun c => c.modFloor fun f => { f with requests := f.requests.insertIdx i e }).notify
    (.ofSeat .queued e.seat (codeIn originRow e.origin) [detailOf i])).touch e.seat

/-- The join checks of a REQ press by an IDLE seat, and the join (R32). -/
def joinRequests (c : Claim) (n : Nat) (stamp : ChamberTime) : Claim :=
  let p := c.policy
  if c.floor.gate = .closed then c.refuse n .req .listClosed
  else if p.grantQuota ≠ 0 ∧ p.grantQuota ≤ (c.st.seat n).grantCount then c.refuse n .req .quota
  else if p.listMax ≤ c.floor.requests.length then c.refuse n .req .listFull
  else c.enqueue c.floor.requests.length ⟨n, .button, stamp, none⟩

/-- A REQ press of an enabled DELEGATE seat (R32, R33). Such a seat is never CHAIR_LIVE. -/
def pressReq (c : Claim) (n : Nat) (stamp : ChamberTime) : Claim :=
  match c.st.floorState n with
  | .waiting => c.dequeue n .cancel
  | .live => if c.policy.selfClose then c.closeSlotOf n .self else c.refuse n .req .notSelfClose
  | .replyWaiting => c.refuse n .req .seatBusy
  | .held => c.refuse n .req .held
  | .idle | .chairLive => c.joinRequests n stamp

/-- The join checks of an RPL press by an IDLE seat, and the join (R89). -/
def joinReplies (c : Claim) (n : Nat) (stamp : ChamberTime) : Claim :=
  if c.floor.phase ≠ .openFloor then c.refuse n .rpl .phase
  else match c.floor.principal c.time with
    | none => c.refuse n .rpl .noTarget
    | some (_, d) =>
      if c.policy.replyMax ≤ c.floor.replies.length then c.refuse n .rpl .replyFull
      else
        (((c.modFloor fun f => { f with replies := f.replies ++ [({ seat := n, target := d.seat, stamp := stamp } : ReplyEntry)] }).notify
          (.ofSeat .replyQueued n none [detailOf d.seat, detailOf c.floor.replies.length])).raise .reply).touch n

/-- An RPL press of an enabled DELEGATE seat (R89). -/
def pressRpl (c : Claim) (n : Nat) (stamp : ChamberTime) : Claim :=
  match c.st.floorState n with
  | .replyWaiting => c.dropReply n .cancel
  | .waiting | .live => c.refuse n .rpl .seatBusy
  | .held => c.refuse n .rpl .held
  | .idle | .chairLive => c.joinReplies n stamp

/-- A MIC press (R60). -/
def pressMic (c : Claim) (n : Nat) : Claim :=
  match c.floor.chairOf n with
  | some i => if c.chairStateOf n = .priority then c.refuse n .mic .phase else c.closeChair i .self
  | none =>
    match c.floor.freeChair with
    | some i => c.openChair i n .mic
    | none => c.refuse n .mic .chairBusy

/-- A CUT press (R62). -/
def pressCut (c : Claim) (n : Nat) : Claim :=
  match c.floor.phase with
  | .openFloor =>
    match c.floor.principal c.time with
    | some (i, _) => c.closeSlot i .chair
    | none => c.refuse n .cut .noTarget
  | .replyRound =>
    match c.floor.replySlot with
    | some (i, _) => c.closeSlot i .chair
    | none => c.refuse n .cut .noTarget
  | .interrupted | .halted => c.refuse n .cut .phase

/-- A NEXT press (R63). -/
def pressNext (c : Claim) (n : Nat) : Claim :=
  if !c.policy.chairNext then c.refuse n .next .policy
  else if c.floor.phase ≠ .openFloor then c.refuse n .next .phase
  else if c.policy.floorMax ≤ c.floor.openCount then c.refuse n .next .floorFull
  else match c.st.firstPresent with
    | none => c.refuse n .next .empty
    | some e => c.grantSpeak e.seat .chair none

/-- A PRIO press: the source of the top frame pops it, any other seat pushes (R102, R104). -/
def pressPrio (c : Claim) (n : Nat) : Claim :=
  if c.floor.stack.head?.any fun fr => fr.source = .seat n then (c.pop .self).1
  else if c.chairBusy n then c.refuse n .prio .chairBusy
  else c.pushSeat n

/-- One button event: the class check, the enable check, then the button's own rule (R3, R30, R32, R59, R89). -/
def press (c : Claim) (n : Nat) (stamp : ChamberTime) (b : Button) : Claim :=
  let r := c.st.seat n
  if !(r.binding.any fun x => x.cls.hasButton b) then c.refuse n b .cls
  else if !r.enabled then c.refuse n b .disabled
  else match b with
    | .req => c.pressReq n stamp
    | .rpl => c.pressRpl n stamp
    | .mic => c.pressMic n
    | .cut => c.pressCut n
    | .next => c.pressNext n
    | .prio => c.pressPrio n

/-- One record of the batch, its presses in their order (R30, R31). -/
def applyRecord (c : Claim) (r : CaptureRecord) : Claim := r.counts.presses.foldl (fun c b => c.press r.seat r.stamp b) c

/-- The intake: the STRAY notices of the dropped records, then the batch. An intake whose batch is not empty is a fill point
(R26, R31, R50; notes/assumptions/17.md, 28.md). -/
def intake (c : Claim) : Claim :=
  let trunks := c.st.trunks.toList
  let taken := trunks.flatMap fun e => e.fifo.filter (·.qualifies c.time)
  let c1 := c.lift fun s => { s with trunks := s.trunks.map fun e =>
    { e with fifo := e.fifo.filter fun r => !r.qualifies c.time } }
  let c2 := (taken.filterMap c.st.strayNotice).foldl notify c1
  let batch := taken.filter fun r => (c.st.strayNotice r).isNone
  let (ordered, w) := orderBatch c.time c.policy c.floor.draw batch
  let c3 := ordered.foldl applyRecord (c2.modFloor fun f => { f with draw := w })
  if batch = [] then c3 else c3.fillPoint

/-- One slot in the deadline pass: warned, then expired (R76). -/
def passSlot (c : Claim) (i : Fin 6) : Claim :=
  match c.floor.slots[i] with
  | none => c
  | some d =>
    let c1 := c.touch d.seat
    if (d.deadline.any (reached c.time)) ∧ !d.overtime then c1.expire i else c1

/-- The deadline pass over the open slots, oldest first (R76). -/
def deadlinePass (c : Claim) : Claim := ((c.floor.slotsByAge c.time).map (·.1)).foldl passSlot c

/-- The displacement check's conditions (R52). -/
def displacementDue (c : Claim) : Bool :=
  c.policy.grantMode = .auto ∧ c.floor.phase = .openFloor ∧ c.st.firstPresent.isSome ∧ c.displaced.isSome

/-- The refusal displays that have run out are removed (R18), in ascending seat order (notes/assumptions/18.md). -/
def endRefusals (c : Claim) : Claim :=
  (c.st.seatList.filter fun x => x.1.refusalUntil.any (reached c.time)).foldl
    (fun c x => (c.modSeat x.2 fun r => { r with refusalUntil := none }).touch x.2) c

end Claim

/-- The intake is held (R25). -/
def State.intakeHeld (s : State) : Bool := s.pins.hold || s.floor.hold = .held

/-- INTAKE (R25, R31). -/
def execIntake (s : State) : Host.Outcome State Fault Refusal :=
  .next (if 0 < s.due.intake then
    let s1 := { s with due := { s.due with intake := s.due.intake - 1 } }
    if s1.intakeHeld then s1 else s1.event Claim.intake
  else s)

/-- DEADLINE_PASS (R76). -/
def execDeadlinePass (s : State) : Host.Outcome State Fault Refusal :=
  .next (if 0 < s.due.deadlinePass then
    { s with due := { s.due with deadlinePass := s.due.deadlinePass - 1 } }.event Claim.deadlinePass
  else s)

/-- DISPLACEMENT_CHECK (R52). -/
def execDisplacementCheck (s : State) : Host.Outcome State Fault Refusal :=
  .next (if 0 < s.due.displacement then
    { s with due := { s.due with displacement := s.due.displacement - 1 } }.event fun c =>
      if c.displacementDue then c.fillPoint else c
  else s)

/-- REFUSAL_END (R18). -/
def execRefusalEnd (s : State) : Host.Outcome State Fault Refusal :=
  .next (if 0 < s.due.refusalEnd then
    { s with due := { s.due with refusalEnd := s.due.refusalEnd - 1 } }.event Claim.endRefusals
  else s)

/-- HOLD_INPUT_CHANGE (R25). -/
def execHoldInputChange (high : Bool) (s : State) : Host.Outcome State Fault Refusal :=
  .next { s with pins := { s.pins with hold := high } }

end Sys2Proof.Machine
end

