-- ==== Sys2Proof/Machine/Time.lean ====
section
/-! DEFINITION. The Time Base (chapter 7): ticks, the qualification of TREF, moving chamber time (R85, R128), beats and alarm
points. -/

namespace Sys2Proof.Machine

/-! ### Ticks (R121 to R126) -/

/-- One more advance is outstanding for each block (R122). -/
def AdvanceDue.add (d : AdvanceDue) : AdvanceDue :=
  ⟨d.intake + 1, d.deadlinePass + 1, d.displacement + 1, d.refusalEnd + 1, d.alarmCheck + 1, d.beat + 1, d.silence + 1⟩

/-- A tick at moment m: chamber time advances and m becomes the last tick (R121, R122). -/
def State.tick (s : State) (m : Nat) : State :=
  { s with
    timeBase := { s.timeBase with chamberTime := s.timeBase.chamberTime + 1, lastTick := m }
    due := s.due.add }

/-- The source state and the qualification count are changed, with the report of R126 when the source changes. -/
def State.setSource (s : State) (src : TickSource) (count : Nat) : State :=
  let old := s.timeBase.source
  let s1 := s.modTime fun t => { t with source := src, count := count }
  if old = src then s1
  else
    (s1.raise .timebase).notify
      ⟨.timebase, .none, some (codeIn sourceRow src), [detailCode (codeIn sourceRow old), detailOf count]⟩

/-- A change of source together with a tick: which of the two is taken first is free (R126). The notice is stored within the
tick's own step, ahead of the events of its advance (notes/assumptions/13.md). -/
def State.tickWithSource (s : State) (m : Nat) (src : TickSource) (count : Nat) : State :=
  let s1 := { s with freeDraws := s.freeDraws + 1 }
  if Config.noticeBeforeAdvance s.freeDraws then (s1.setSource src count).tick m else (s1.tick m).setSource src count

/-- The internal timer's fallback tick (R125). -/
def State.fallback (s : State) (m : Nat) : State := s.tickWithSource m .internal 0

/-- A pulse becomes the last pulse, and the source and count become these (R124). -/
def State.countPulse (s : State) (m : Nat) (src : TickSource) (count : Nat) : State :=
  (s.setSource src count).modTime fun t => { t with lastPulse := some m }

/-- A pulse taken in QUALIFYING (R124). -/
def State.qualifyingPulse (s : State) (m : Nat) : State :=
  let t := s.timeBase
  let good := t.lastPulse.any fun p => p + Config.pulseLow ≤ m ∧ m ≤ p + Config.pulseHigh
  if !good then s.countPulse m .qualifying 1
  else if t.count + 1 < Config.qualifyCount then s.countPulse m .qualifying (t.count + 1)
  else
    let s1 := s.modTime fun t => { t with lastPulse := some m }
    if t.lastTick + Config.joinSpan ≤ m then s1.tickWithSource m .external Config.qualifyCount
    else s1.setSource .external Config.qualifyCount

/-- A pulse taken in EXTERNAL (R125). -/
def State.externalPulse (s : State) (m : Nat) : State :=
  if s.timeBase.lastTick + Config.pulseLow ≤ m then s.tick m else s.setSource .internal 0

/-- A pulse at the present moment, taken by the source state (R123 to R125). -/
def State.takePulse (s : State) : State :=
  match s.timeBase.source with
  | .internal => if s.timeBase.mode = .auto then s.countPulse s.now .qualifying 1 else s
  | .qualifying => s.qualifyingPulse s.now
  | .external => s.externalPulse s.now

/-- A TREF pulse at moment m; a fallback that was due before it is taken first (notes/assumptions/4.md). -/
def State.pulse (s : State) (m : Nat) : State :=
  let s1 := s.reachMoment m
  let due := s1.timeBase.lastTick + Config.fallbackSpan
  if s1.timeBase.source = .external ∧ due < s1.now then (s1.fallback due).takePulse else s1.takePulse

/-! ### Alarm points (R131) -/

/-- The event flag of an alarm point. -/
def alarmFlag : Fin 3 → EventFlag
  | 0 => .alarm0
  | 1 => .alarm1
  | 2 => .alarm2

namespace Claim

/-- Change one alarm point. -/
def modAlarm (c : Claim) (i : Fin 3) (f : Alarm → Alarm) : Claim :=
  c.lift (·.modTime fun t => { t with alarms := t.alarms.set i (f t.alarms[i]) })

/-- An alarm point is armed and its target reached (R131). -/
def alarmDue (c : Claim) (i : Fin 3) : Bool := c.st.timeBase.alarms[i].armed && reached c.time c.st.timeBase.alarms[i].target

/-- An alarm fires (R131). -/
def fireAlarm (c : Claim) (i : Fin 3) : Claim :=
  let a := c.st.timeBase.alarms[i]
  let c1 := ((c.modAlarm i fun a => { a with armed := false }).raise (alarmFlag i)).notify
    ⟨.alarm, .alarm i, some (codeIn alarmActionRow a.action), [a.target]⟩
  match a.action with
  | .none => c1
  | .haltFloor => c1.haltFloor
  | .closeList => c1.closeGate

/-- Fire every alarm that is due, in ascending number (R131). -/
def checkAlarms (c : Claim) : Claim := (List.finRange 3).foldl (fun c i => if c.alarmDue i then c.fireAlarm i else c) c

end Claim

/-- How many alarm points are armed. -/
def State.armedCount (s : State) : Nat := (s.timeBase.alarms.toList.filter (·.armed)).length

/-! ### Moving chamber time (R85, R128) -/

/-- The relative points of a delegate slot, shifted (R85). -/
def DelegateSlot.shift (x : ChamberTime) (d : DelegateSlot) : DelegateSlot :=
  { d with grantedAt := d.grantedAt + x, deadline := d.deadline.map (· + x), warnAt := d.warnAt.map (· + x) }

/-- The relative points of the Floor Engine, shifted (R85). -/
def Floor.shift (x : ChamberTime) (f : Floor) : Floor :=
  { f with
    slots := f.slots.map (Option.map (DelegateSlot.shift x))
    chairs := f.chairs.map (Option.map fun d => { d with openedAt := d.openedAt + x })
    stack := f.stack.map fun fr => { fr with pushedAt := fr.pushedAt + x }
    requests := f.requests.map fun e => { e with stamp := e.stamp + x }
    replies := f.replies.map fun e => { e with stamp := e.stamp + x } }

/-- Every relative point of chamber time, shifted by a difference (R85). -/
def State.shiftPoints (s : State) (x : ChamberTime) : State :=
  { s with
    floor := s.floor.shift x
    seats := s.seats.map fun r => { r with refusalUntil := r.refusalUntil.map (· + x) }
    trunks := s.trunks.map fun e => { e with fifo := e.fifo.map fun r => { r with stamp := r.stamp + x } }
    ports := { s.ports with
      portA := { s.ports.portA with lastValid := s.ports.portA.lastValid + x }
      portB := { s.ports.portB with lastValid := s.ports.portB.lastValid + x } } }

/-- The code of the state SET of a TIMEBASE notice (R128, 11.3). -/
abbrev setCode : Byte := 3

/-- Chamber time is moved, with its shift, its alarms and its report (R128). -/
def State.setTime (s : State) (v : ChamberTime) : State :=
  let old := s.time
  let s1 := (s.modTime fun t => { t with chamberTime := v }).shiftPoints (v - old)
  let s2 := s1.event Claim.checkAlarms
  (s2.raise .timebase).notify ⟨.timebase, .none, some setCode, [old, v]⟩

/-- TIME SET (R128). -/
def timeSetAction : Action := fun p s =>
  let v := u32 p 0
  if v = s.time then (s, .of .unchanged (be32 s.time ++ [0]))
  else
    let s1 := s.setTime v
    (s1, .of .done (be32 s.time ++ [be8 (s.armedCount - s1.armedCount)]))

/-- TIME READ (R129). -/
def timeReadAction : Action := fun _ s =>
  let t := s.timeBase
  (s, .of .done (be32 t.chamberTime ++
    [codeIn timeModeRow t.mode, codeIn sourceRow t.source, be8 t.count, t.beatPhase.setWidth 8] ++
    t.alarms.toList.flatMap fun a => [yesNo a.armed] ++ be32 a.target ++ [codeIn alarmActionRow a.action]))

/-- TIMEBASE MODE (R127). -/
def timebaseModeAction : Action := fun p s =>
  match ofCode timeModeRow (u8 p 0) with
  | none => refuseWith .badArg s
  | some m =>
    let result (s : State) := [codeIn sourceRow s.timeBase.source]
    if m = s.timeBase.mode then (s, .of .unchanged (result s))
    else
      let s1 := s.modTime fun t => { t with mode := m }
      let s2 := if m = .internal ∧ s.timeBase.source ≠ .internal then s1.setSource .internal 0 else s1
      (s2, .of .done (result s2))

/-- ALARM SET (R132). -/
def alarmSetAction : Action := fun p s =>
  if h : u8 p 0 < 3 then
    match ofCode alarmActionRow (u8 p 5) with
    | none => refuseWith .badArg s
    | some a =>
      let i : Fin 3 := ⟨u8 p 0, h⟩
      let s1 := s.modTime fun t => { t with alarms := t.alarms.set i ⟨true, u32 p 1, a⟩ }
      let fires := reached s.time (u32 p 1)
      (if fires then s1.event (·.fireAlarm i) else s1, .of .done [yesNo fires])
  else refuseWith .range s

/-- ALARM CLEAR (R133). -/
def alarmClearAction : Action := fun p s =>
  if h : u8 p 0 < 3 then
    let i : Fin 3 := ⟨u8 p 0, h⟩
    if s.timeBase.alarms[i].armed then
      (s.modTime fun t => { t with alarms := t.alarms.set i { t.alarms[i] with armed := false } }, .of .done)
    else refuseWith .unchanged s
  else refuseWith .range s

/-! ### Beats (R130) -/

/-- A beat is issued: the phase moves on and is handed to every RUNNING trunk, replacing one still waiting (R130, R145). -/
def State.issueBeat (s : State) : State :=
  let phase := s.timeBase.beatPhase + 1
  { s with
    timeBase := { s.timeBase with beatCount := 0, beatPhase := phase }
    trunks := s.trunks.map fun e => if e.state = .running then { e with waitingBeat := some phase } else e }

/-- One beat count (R130). -/
def State.countBeat (s : State) : State :=
  if s.timeBase.beatCount = 4 then s.issueBeat else s.modTime fun t => { t with beatCount := t.beatCount + 1 }

/-! ### The rows -/

/-- INTERNAL_TICK: while the source is INTERNAL or QUALIFYING the internal timer makes a tick 100 ms after the last one, or at
once if that has passed (R123, R127). -/
def execInternalTick (s : State) : Host.Outcome State Fault Refusal :=
  .next (if !s.pins.rstnLow ∧ s.timeBase.source ≠ .external then
    let s1 := s.reachMoment (s.timeBase.lastTick + Config.tickSpan)
    s1.tick s1.now
  else s)

/-- TREF_PULSE (R123 to R125). -/
def execTrefPulse (m : Nat) (s : State) : Host.Outcome State Fault Refusal := .next (if s.pins.rstnLow then s else s.pulse m)

/-- FALLBACK_TICK: while the source is EXTERNAL, 150 ms after the last tick (R125). -/
def execFallbackTick (s : State) : Host.Outcome State Fault Refusal :=
  .next (if !s.pins.rstnLow ∧ s.timeBase.source = .external then
    let s1 := s.reachMoment (s.timeBase.lastTick + Config.fallbackSpan)
    s1.fallback s1.now
  else s)

/-- ALARM_CHECK (R131). -/
def execAlarmCheck (s : State) : Host.Outcome State Fault Refusal :=
  .next (if 0 < s.due.alarmCheck then
    { s with due := { s.due with alarmCheck := s.due.alarmCheck - 1 } }.event Claim.checkAlarms
  else s)

/-- BEAT (R130). -/
def execBeat (s : State) : Host.Outcome State Fault Refusal :=
  .next (if 0 < s.due.beat then { s with due := { s.due with beat := s.due.beat - 1 } }.countBeat else s)

/-- TIME SET (R128). -/
def execTimeSet (l : Link) (s : State) : Host.Outcome State Fault Refusal :=
  .next (s.take l (ofKind 0x50) true (exactly 4) timeSetAction)

/-- TIME READ (R129). -/
def execTimeRead (l : Link) (s : State) : Host.Outcome State Fault Refusal :=
  .next (s.take l (ofKind 0x51) false (exactly 0) timeReadAction)

/-- TIMEBASE MODE (R127). -/
def execTimebaseMode (l : Link) (s : State) : Host.Outcome State Fault Refusal :=
  .next (s.take l (ofKind 0x52) true (exactly 1) timebaseModeAction)

/-- ALARM SET (R132). -/
def execAlarmSet (l : Link) (s : State) : Host.Outcome State Fault Refusal :=
  .next (s.take l (ofKind 0x53) true (exactly 6) alarmSetAction)

/-- ALARM CLEAR (R133). -/
def execAlarmClear (l : Link) (s : State) : Host.Outcome State Fault Refusal :=
  .next (s.take l (ofKind 0x54) true (exactly 1) alarmClearAction)

end Sys2Proof.Machine
end

