-- ==== Sys2Proof/Machine/Trunks.lean ====
section
/-! DEFINITION. The Trunk Engines (chapter 8): trunk states, enumeration, sweeps, pending updates, answers, capture and misses,
and the trunk commands. -/

namespace Sys2Proof.Machine

/-! ### One engine -/

/-- The protocol state of the station at a position; the initial state outside 1 to 120, which no rule reads. -/
def TrunkEngine.station (e : TrunkEngine) (p : Nat) : PositionState :=
  if h : 1 ≤ p ∧ p ≤ 120 then e.positions[p - 1]'(by omega) else .initial

/-- Change the protocol state at a position. -/
def TrunkEngine.modStation (e : TrunkEngine) (p : Nat) (f : PositionState → PositionState) : TrunkEngine :=
  if h : 1 ≤ p ∧ p ≤ 120 then
    { e with positions := e.positions.set (p - 1) (f (e.positions[p - 1]'(by omega))) (by omega) }
  else e

/-- One more in an error count, which stops at 65535 (R136). -/
def countUp (n : Nat) : Nat := min 65535 (n + 1)

/-- Put a frame on the line as soon as it is free (11.6; notes/assumptions/23.md). -/
def TrunkEngine.send (e : TrunkEngine) (now : Nat) (frame : List Byte) : TrunkEngine :=
  { e with lineFrame := frame, lineUntil := max now e.lineUntil + Config.byteSpan * frame.length }

/-- Begin a POLL or LABEL transaction (R136). -/
def TrunkEngine.begin (e : TrunkEngine) (now : Nat) (isProbe : Bool) (p : Nat) (micOpen : Bool) (frame : List Byte) :
    TrunkEngine :=
  let e1 := e.send now frame
  { e1 with inFlight := some ⟨isProbe, p, micOpen, e1.lineUntil + e1.waitInForce⟩ }

/-- The settings as set are taken into force (R138, R143). -/
def TrunkEngine.takeSettings (e : TrunkEngine) : TrunkEngine :=
  { e with periodInForce := e.periodSet, waitInForce := e.waitSet }

/-- A sweep starts (R143). -/
def TrunkEngine.startSweep (e : TrunkEngine) (now : Nat) : TrunkEngine :=
  { e.takeSettings with
    sweepCounter := e.sweepCounter + 1, sweepStartedAt := now, sweepHeard := false, plan := .sweeping 1 0 }

/-- What enumeration start and DISABLE clear: the transaction, the waiting beat, the FIFO, the pending list (R138, R154). -/
def TrunkEngine.abandon (e : TrunkEngine) : TrunkEngine :=
  { e with inFlight := none, waitingBeat := none, fifo := [], pending := [], plan := .quiet }

/-- N and every position's protocol state are cleared (R138, R154). -/
def TrunkEngine.forget (e : TrunkEngine) : TrunkEngine :=
  { e with found := 0, positions := Vector.replicate 120 .initial }

/-- The seats bound on a trunk, ascending, with their positions. -/
def State.boundOn (s : State) (t : TrunkNo) : List (Nat × Nat) :=
  s.seatList.filterMap fun x => x.1.binding.bind fun b => if b.trunk = t then some (x.2, b.position) else none

/-- The image of the seat bound at a position, or SHUT and OFF when none is (R143, R147). -/
def State.imageAt (s : State) (t : TrunkNo) (p : Nat) : Image := ((s.seatAt t p).map fun n => (s.seat n).image).getD .dark

/-- The label of the seat bound at a position, empty when there is none (R147). -/
def State.labelAt (s : State) (t : TrunkNo) (p : Nat) : List Byte :=
  (((s.seatAt t p).bind fun n => (s.seat n).label)).getD []

namespace Claim

/-- Change a Trunk Engine within a claim. -/
def modTrunk (c : Claim) (t : TrunkNo) (f : TrunkEngine → TrunkEngine) : Claim := c.lift (·.modTrunk t f)

/-- The trunk's state becomes this, with the report of R135, made also when it stays the same at a restart. -/
def setTrunkState (c : Claim) (t : TrunkNo) (new : TrunkState) : Claim :=
  let old := (c.st.trunk t).state
  ((c.modTrunk t fun e => { e with state := new }).notify
    ⟨.trunkState, .trunk t, some (codeIn trunkStateRow new),
      [detailOf (c.st.trunk t).found, detailCode (codeIn trunkStateRow old)]⟩).raise .trunk

/-- Write the presence of several seats at once (R138, R141, R154). -/
def setPresences (c : Claim) (ns : List Nat) (p : Presence) : Claim :=
  c.trackHead fun c => ns.foldl (fun c n => c.modSeat n fun r => { r with presence := p }) c

/-- The slots of a trunk's seats are closed with reason TRUNK: delegate slots oldest first, then chair slots in index order (R138,
step 3). -/
def closeTrunkSlots (c : Claim) (t : TrunkNo) : Claim :=
  let onTrunk (n : Nat) : Bool := (c.st.seat n).binding.any (·.trunk = t)
  let slots := (c.floor.slotsByAge c.time).filter fun x => onTrunk x.2.seat
  let chairs := chairPlaces.filter fun i => c.floor.chairs[i].any fun d => onTrunk d.seat
  chairs.foldl (fun c i => c.closeChair i .trunk) (slots.foldl (fun c x => c.closeSlot x.1 .trunk) c)

/-- The claim that starts enumeration (R138). -/
def startEnumeration (c : Claim) (t : TrunkNo) : Claim :=
  let c1 := (c.modTrunk t TrunkEngine.abandon).closeTrunkSlots t
  let c2 := (c1.setPresences ((c1.st.boundOn t).map (·.1)) .unconfirmed).raise .presence
  let c3 := c2.modTrunk t fun e => e.forget.takeSettings
  (c3.setTrunkState t .enumerating).fillPoint

/-- The claim of TRUNK CONTROL DISABLE (R154; notes/assumptions/18.md). -/
def disableTrunk (c : Claim) (t : TrunkNo) : Claim :=
  let c1 := (c.modTrunk t TrunkEngine.abandon).closeTrunkSlots t
  let ns := (c1.st.boundOn t).map (·.1)
  let c2 := ((c1.setPresences ns .absent).raise .presence).removeSeats ns .absent
  let c3 := c2.modTrunk t TrunkEngine.forget
  (c3.setTrunkState t .down).fillPoint

/-- The claim that completes enumeration (R141): the seats whose probes were answered become PRESENT and are marked, the others
become ABSENT and leave, both in position order but for the reply entries, which leave in list order (R88;
notes/assumptions/18.md). -/
def completeEnumeration (c : Claim) (t : TrunkNo) : Claim :=
  let e := c.st.trunk t
  let bound := sortBy (fun (x y : Nat × Nat) => x.2 ≤ y.2) (c.st.boundOn t)
  let answered (x : Nat × Nat) : Bool := x.2 ≤ e.found && (e.station x.2).miss = 0
  let here := (bound.filter answered).map (·.1)
  let gone := (bound.filter fun x => !answered x).map (·.1)
  let c1 := here.foldl markReturn ((c.setPresences here .present).setPresences gone .absent)
  let c2 := gone.foldl leave (c1.dropReplies gone .absent)
  let c3 := c2.modTrunk t fun e => { e with pending := e.pending.filter (·.position ≤ e.found), plan := .quiet }
  ((c3.raise .presence).setTrunkState t (if e.found = 0 then .fault else .running)).fillPoint

end Claim

/-! ### Enumeration (R138 to R141) -/

/-- ASSIGN with upstream count 0 is sent, and the wait of 50 ms from its end begins (R139; notes/assumptions/29.md). -/
def State.sendAssign (s : State) (t : TrunkNo) : State :=
  s.modTrunk t fun e =>
    let e1 := e.send s.now (assignFrame 0)
    { e1 with plan := .tallyWait (e1.lineUntil + Config.tallySpan) }

/-- Enumeration starts: the claim of R138, then the ASSIGN of R139. -/
def State.enumerate (s : State) (t : TrunkNo) : State := (s.event (·.startEnumeration t)).sendAssign t

/-- Enumeration completes, and the first sweep of a RUNNING trunk starts at once (R141, R143). -/
def State.completeTrunk (s : State) (t : TrunkNo) : State :=
  let s1 := s.event (·.completeEnumeration t)
  if (s1.trunk t).state = .running then s1.modTrunk t (·.startSweep s1.now) else s1

/-- N is found: the probes begin, or enumeration completes at once when there is none to make (R139 to R141). -/
def State.foundCount (s : State) (t : TrunkNo) (n : Nat) : State :=
  let s1 := s.modTrunk t fun e => { e with found := n, plan := .probing 1 }
  if n = 0 then s1.completeTrunk t else s1

/-- A sweep ends: a RUNNING trunk none of whose transactions since the sweep's start had a valid answer becomes FAULT (R143). -/
def State.endSweep (s : State) (t : TrunkNo) : State :=
  let e := s.trunk t
  let s1 := s.modTrunk t fun e => { e with plan := .waiting }
  if e.state = .running ∧ !e.sweepHeard then (Claim.start s1 |>.setTrunkState t .fault).st else s1

/-- What follows the end of a transaction: the last probe completes enumeration (R141), the sweep transaction at position N ends
its sweep (R143). -/
def State.afterTransaction (s : State) (t : TrunkNo) : State :=
  let e := s.trunk t
  match e.plan with
  | .probing next => if e.found < next then s.completeTrunk t else s
  | .sweeping next _ => if e.found < next then s.endSweep t else s
  | _ => s

/-! ### Answers (R140, R148 to R153) -/

/-- The actual microphone state of an answer is compared with the gate its frame carried (R153). -/
def Claim.checkMic (c : Claim) (t : TrunkNo) (p : Nat) (commanded actual : Bool) : Claim :=
  let mark (v : Bool) := c.modTrunk t (·.modStation p fun x => { x with mismatch := v })
  if commanded = actual then mark false
  else if ((c.st.trunk t).station p).mismatch then c
  else match c.st.seatAt t p with
    | some n =>
      ((mark true).notify (.ofSeat .micFault n none [detailCode (yesNo commanded), detailCode (yesNo actual)])).modSeat n
        fun r => { r with micFaultMark := true }
    | none => (mark true).notify ⟨.micFault, .trunk t, none, [detailOf p, detailCode (yesNo actual)]⟩

/-- Turn E of a position over (R149, R150). -/
def Claim.acknowledge (c : Claim) (t : TrunkNo) (p : Nat) : Claim :=
  c.modTrunk t (·.modStation p fun x => { x with toggle := !x.toggle })

/-- A report is captured, taken as a repeat, withheld by a full FIFO, or stray (R149, R150). -/
def Claim.takeReport (c : Claim) (t : TrunkNo) (p : Nat) (r : StatusReport) : Claim :=
  let e := c.st.trunk t
  if r.counts.isZero ∨ r.toggle ≠ (e.station p).toggle then c
  else match c.st.seatAt t p with
    | some n =>
      if e.fifo.length < Config.fifoCapacity then
        (c.modTrunk t fun e => { e with fifo := e.fifo ++ [⟨t, p, n, r.counts, c.time⟩] }).acknowledge t p
      else c
    | none => (c.notify ⟨.stray, .trunk t, none, [detailOf p]⟩).acknowledge t p

/-- The seat bound at a position, if any, is given the answer's station kind (R9). -/
def Claim.recordKind (c : Claim) (t : TrunkNo) (p : Nat) (r : StatusReport) : Claim :=
  match c.st.seatAt t p with
  | some n => c.modSeat n fun x => { x with kind := some r.counts.kind }
  | none => c

/-- A valid answer from a position of a RUNNING or FAULT trunk (R148). -/
def Claim.takeStatus (c : Claim) (t : TrunkNo) (x : Transaction) (r : StatusReport) : Claim :=
  let p := x.position
  let lost := decide (((c.st.trunk t).station p).miss = 3)
  let c1 := if (c.st.trunk t).state = .fault then c.setTrunkState t .running else c
  let c2 := c1.modTrunk t fun e => { e.modStation p fun y => { y with miss := 0 } with sweepHeard := true }
  let c3 := match c2.st.seatAt t p with
    | some n => c2.becomePresent n
    | none => c2
  let c4 := (c3.recordKind t p r).checkMic t p x.micOpen r.micOpen
  if lost then c4.modTrunk t (·.modStation p fun y => { y with toggle := r.toggle }) else c4.takeReport t p r

/-- A valid answer to a probe (R140). -/
def Claim.takeProbe (c : Claim) (t : TrunkNo) (p : Nat) (r : StatusReport) : Claim :=
  (c.modTrunk t (·.modStation p fun y => { y with toggle := r.toggle, miss := 0 })).recordKind t p r

/-- A miss at a position (R151). -/
def Claim.takeMiss (c : Claim) (t : TrunkNo) (p : Nat) : Claim :=
  let misses := min 3 (((c.st.trunk t).station p).miss + 1)
  let c1 := c.modTrunk t (·.modStation p fun y => { y with miss := misses })
  match c1.st.seatAt t p with
  | none => c1
  | some n =>
    match (c1.st.seat n).presence with
    | .absent => c1
    | .unconfirmed => if misses = 3 then c1.becomeAbsent n else c1
    | .present | .fading => if misses = 3 then c1.becomeAbsent n else c1.setPresence n .fading

/-- A transaction ends with an answer fault: an unanswered probe leaves its position unsynchronised (R140), any other
transaction is a miss (R151). -/
def State.faultTransaction (s : State) (t : TrunkNo) (x : Transaction) : State :=
  let s1 := s.modTrunk t fun e => { e with inFlight := none }
  let s2 :=
    if x.isProbe then s1.modTrunk t (·.modStation x.position fun y => { y with miss := 3 })
    else s1.event (·.takeMiss t x.position)
  s2.afterTransaction t

/-- The moment an answer whose last byte ended at m is complete: after 30 microseconds of idle line (R187). The last byte
cannot come before the end of the engine's own frame. It is the answer's own moment, whatever the timer reads when the answer is
taken (notes/assumptions/23.md). -/
def State.answerAt (s : State) (t : TrunkNo) (m : Nat) : Nat := max (s.trunk t).lineUntil m + Config.idleSpan

/-- The transaction in flight of the wanted sort, with an answer that is complete within its wait (R136, R187). -/
def State.answered (s : State) (t : TrunkNo) (m : Nat) (wanted : Transaction → Bool) : Option Transaction :=
  (s.trunk t).inFlight.filter fun x => wanted x && decide (s.answerAt t m ≤ x.answerBy)

/-! ### The rows of the engines -/

/-- TALLY_RECEIVED: an answer in the TALLY wait (R139, R187). -/
def execTallyReceived (t : TrunkNo) (bytes : List Byte) (m : Nat) (s : State) : Host.Outcome State Fault Refusal :=
  .next (match (s.trunk t).plan with
    | .tallyWait u =>
      if s.answerAt t m ≤ u then
        let s1 := s.reachMoment (s.answerAt t m)
        match classifyTally bytes with
        | .discarded => s1
        | .checkFault => s1.modTrunk t fun e => { e with crcErrors := countUp e.crcErrors }
        | .valid n =>
          if n ≤ Config.positions then s1.foundCount t n
          else (s1.notify ⟨.excess, .trunk t, none, [detailOf n]⟩).foundCount t Config.positions
      else s
    | _ => s)

/-- TALLY_WAIT_EXPIRY (R139). -/
def execTallyWaitExpiry (t : TrunkNo) (s : State) : Host.Outcome State Fault Refusal :=
  .next (match (s.trunk t).plan with
    | .tallyWait u => (s.reachMoment u).foundCount t 0
    | _ => s)

/-- PROBE (R140). -/
def execProbe (t : TrunkNo) (s : State) : Host.Outcome State Fault Refusal :=
  let e := s.trunk t
  .next (match e.plan, e.inFlight with
    | .probing next, none =>
      if next ≤ e.found then
        s.modTrunk t fun e =>
          { e.begin s.now true next false (pollFrame next false .dark) with plan := .probing (next + 1) }
      else s
    | _, _ => s)

/-- PROBE_ANSWER (R140). -/
def execProbeAnswer (t : TrunkNo) (bytes : List Byte) (m : Nat) (s : State) : Host.Outcome State Fault Refusal :=
  .next (match s.answered t m (·.isProbe) with
    | none => s
    | some x =>
      match classifyAnswer x.position bytes with
      | .valid r =>
        let s1 := (s.reachMoment (s.answerAt t m)).modTrunk t fun e => { e with inFlight := none }
        ((Claim.start s1).takeProbe t x.position r).st.afterTransaction t
      | _ => s)

/-- SWEEP_START (R143). -/
def execSweepStart (t : TrunkNo) (s : State) : Host.Outcome State Fault Refusal :=
  let e := s.trunk t
  .next (if e.plan = .waiting ∧ e.inFlight = none then
    let s1 := s.reachMoment (e.sweepStartedAt + e.periodInForce * Config.ms)
    s1.modTrunk t (·.startSweep s1.now)
  else s)

/-- SWEEP_POLL: the next POLL of the sweep, when nothing waits ahead of it (R143, R144). -/
def execSweepPoll (t : TrunkNo) (s : State) : Host.Outcome State Fault Refusal :=
  let e := s.trunk t
  .next (match e.plan, e.inFlight, e.waitingBeat with
    | .sweeping next served, none, none =>
      if next ≤ e.found ∧ (e.pending = [] ∨ served = 4) then
        let i := s.imageAt t next
        s.modTrunk t fun e =>
          { e.begin s.now false next i.micOpen (pollFrame next (e.station next).toggle i) with
            plan := .sweeping (next + 1) 0 }
      else s
    | _, _, _ => s)

/-- SEND_BEAT (R144, R145). -/
def execSendBeat (t : TrunkNo) (s : State) : Host.Outcome State Fault Refusal :=
  let e := s.trunk t
  .next (match e.waitingBeat, e.inFlight with
    | some phase, none => s.modTrunk t fun e => { e.send s.now (beatFrame phase) with waitingBeat := none }
    | _, _ => s)

/-- SERVE_PENDING: the oldest pending entry, ahead of the next POLL of the sweep (R144, R147). -/
def execServePending (t : TrunkNo) (s : State) : Host.Outcome State Fault Refusal :=
  let e := s.trunk t
  .next (match e.plan, e.inFlight, e.waitingBeat, e.pending with
    | .sweeping next served, none, none, u :: rest =>
      if next ≤ e.found ∧ served < 4 then
        let i := s.imageAt t u.position
        let ack := (e.station u.position).toggle
        let frame := if u.label then labelFrame u.position ack i (s.labelAt t u.position) else pollFrame u.position ack i
        s.modTrunk t fun e =>
          { e.begin s.now false u.position i.micOpen frame with pending := rest, plan := .sweeping next (served + 1) }
      else s
    | _, _, _, _ => s)

/-- STATUS_ANSWER (R148). -/
def execStatusAnswer (t : TrunkNo) (bytes : List Byte) (m : Nat) (s : State) : Host.Outcome State Fault Refusal :=
  .next (match s.answered t m (!·.isProbe) with
    | none => s
    | some x =>
      match classifyAnswer x.position bytes with
      | .valid r =>
        let s1 := (s.reachMoment (s.answerAt t m)).modTrunk t fun e => { e with inFlight := none }
        (s1.event (·.takeStatus t x r)).afterTransaction t
      | _ => s)

/-- ANSWER_FAULT: the transaction ends when its wait runs out, and its error count rises then (R136; notes/assumptions/34.md). -/
def execAnswerFault (t : TrunkNo) (bytes : List Byte) (m : Nat) (s : State) : Host.Outcome State Fault Refusal :=
  .next (match s.answered t m (fun _ => true) with
    | none => s
    | some x =>
      let s1 := s.reachMoment x.answerBy
      match classifyAnswer x.position bytes with
      | .valid _ => s
      | .checkFault => (s1.modTrunk t fun e => { e with crcErrors := countUp e.crcErrors }).faultTransaction t x
      | .formatFault => (s1.modTrunk t fun e => { e with formatErrors := countUp e.formatErrors }).faultTransaction t x)

/-- ANSWER_WAIT_EXPIRY (R136, R140, R151). -/
def execAnswerWaitExpiry (t : TrunkNo) (s : State) : Host.Outcome State Fault Refusal :=
  .next (match (s.trunk t).inFlight with
    | none => s
    | some x =>
      ((s.reachMoment x.answerBy).modTrunk t fun e => { e with misses := countUp e.misses }).faultTransaction t x)

/-! ### The trunk commands (R155 to R158) -/

/-- A trunk command's action on the trunk its first byte names; a number above 3 is answered RANGE (8.9). -/
def onTrunk (f : TrunkNo → Action) : Action := fun p s =>
  if h : u8 p 0 < 4 then f ⟨u8 p 0, h⟩ p s else refuseWith .range s

/-- The trunk state as a result (R155). -/
def State.trunkResult (s : State) (t : TrunkNo) : List Byte := [codeIn trunkStateRow (s.trunk t).state]

/-- The engine stops driving the line (R154). -/
def State.stopLine (s : State) (t : TrunkNo) : State := s.modTrunk t fun e => { e with lineFrame := [], lineUntil := s.now }

/-- TRUNK CONTROL (R155). -/
def trunkControlAction : Action := onTrunk fun t p s =>
  let done (s : State) := (s, Reply.of .done (s.trunkResult t))
  let unchanged := (s, Reply.of .unchanged (s.trunkResult t))
  match u8 p 1, (s.trunk t).state with
  | 0, .down => done (s.enumerate t)
  | 0, .enumerating => refuseWith .trunkState s
  | 0, .running | 0, .fault => unchanged
  | 1, .down => refuseWith .trunkState s
  | 1, .enumerating | 1, .running | 1, .fault => done (s.enumerate t)
  | 2, .down => unchanged
  | 2, .enumerating | 2, .running | 2, .fault => done ((s.event (·.disableTrunk t)).stopLine t)
  | _, _ => refuseWith .badArg s

/-- TRUNK CONFIG (R156). -/
def trunkConfigAction : Action := onTrunk fun t p s =>
  let period := u16 p 1
  let wait := u16 p 3
  let e := s.trunk t
  if period < 10 ∨ 250 < period ∨ wait < 100 ∨ 2000 < wait then refuseWith .range s
  else if period = e.periodSet ∧ wait = e.waitSet then refuseWith .unchanged s
  else (s.modTrunk t fun e => { e with periodSet := period, waitSet := wait }, .of .done)

/-- The positions 1 to N whose miss count is 0 (R158). -/
def TrunkEngine.answering (e : TrunkEngine) : Nat :=
  ((List.range e.found).filter fun i => (e.station (i + 1)).miss = 0).length

/-- TRUNK READ (R158). -/
def trunkReadAction : Action := onTrunk fun t _ s =>
  let e := s.trunk t
  (s, .of .done (s.trunkResult t ++ [be8 e.found] ++ be16 e.sweepCounter.toNat ++ be16 e.periodInForce ++ be16 e.periodSet ++
    be16 e.waitInForce ++ be16 e.waitSet ++ be16 e.crcErrors ++ be16 e.formatErrors ++ be16 e.misses ++
    [be8 e.fifo.length, be8 e.pending.length, be8 e.answering]))

/-- COUNTS CLEAR (R157). -/
def countsClearAction : Action := onTrunk fun t _ s =>
  (s.modTrunk t fun e => { e with crcErrors := 0, formatErrors := 0, misses := 0 }, .of .done)

/-- TRUNK CONTROL with action ENABLE (R155). -/
def execTrunkEnable (l : Link) (s : State) : Host.Outcome State Fault Refusal :=
  .next (s.take l (ofKindBut 0x60 1 [1, 2]) true (exactly 2) trunkControlAction)

/-- TRUNK CONTROL with action ENUMERATE (R155). -/
def execTrunkEnumerate (l : Link) (s : State) : Host.Outcome State Fault Refusal :=
  .next (s.take l (ofKindBut 0x60 1 [0, 2]) true (exactly 2) trunkControlAction)

/-- TRUNK CONTROL with action DISABLE (R154, R155). -/
def execTrunkDisable (l : Link) (s : State) : Host.Outcome State Fault Refusal :=
  .next (s.take l (ofKindBut 0x60 1 [0, 1]) true (exactly 2) trunkControlAction)

/-- TRUNK CONFIG (R156). -/
def execTrunkConfig (l : Link) (s : State) : Host.Outcome State Fault Refusal :=
  .next (s.take l (ofKind 0x61) true (exactly 5) trunkConfigAction)

/-- TRUNK READ (R158). -/
def execTrunkRead (l : Link) (s : State) : Host.Outcome State Fault Refusal :=
  .next (s.take l (ofKind 0x62) false (exactly 1) trunkReadAction)

/-- COUNTS CLEAR (R157). -/
def execCountsClear (l : Link) (s : State) : Host.Outcome State Fault Refusal :=
  .next (s.take l (ofKind 0x63) true (exactly 1) countsClearAction)

end Sys2Proof.Machine
end

