-- ==== Sys2Proof/Machine/Seats.lean ====
section
/-! DEFINITION. The seat commands (chapter 1): SEAT BIND, SEAT UNBIND, SEAT ENABLE, SEAT LABEL, SEAT READ and MARKS CLEAR. -/

namespace Sys2Proof.Machine

/-- A seat number within 1 to 480. -/
def seatOk (n : Nat) : Bool := 1 ≤ n ∧ n ≤ Config.seats

/-- The seats of a range that passes the checks of R7, ascending. -/
def seatRange (p : List Byte) : Option (List Nat) :=
  let base := u16 p 0
  let count := u8 p 2
  if seatOk base ∧ 1 ≤ count ∧ count ≤ 32 ∧ base + count ≤ Config.seats + 1 then some (List.range' base count) else none

/-! ### Binding (R4 to R6) -/

/-- The presence a seat is given when it is bound at a position of a trunk (R5). -/
def TrunkEngine.presenceAtBind (e : TrunkEngine) : Presence :=
  match e.state with
  | .down => .absent
  | .enumerating | .running | .fault => .unconfirmed

/-- A binding is marked when its trunk is RUNNING or FAULT and reaches its position (R5). -/
def TrunkEngine.marksBind (e : TrunkEngine) (p : Nat) : Bool := (e.state = .running ∨ e.state = .fault) ∧ p ≤ e.found

namespace Claim

/-- The pair of a seat is released: its position is marked with the label flag, which a DOWN trunk does not enter (R146), and
leaves the map (R6, steps 2 and 3). With no seat at the position the entry carries SHUT, OFF and an empty label (R147). -/
def releasePair (c : Claim) (n : Nat) : Claim :=
  match (c.st.seat n).binding with
  | none => c
  | some b =>
    (c.modTrunk b.trunk (·.mark b.position true)).modSeat n
      fun r => { r with binding := none }

/-- A binding to another pair (R5). -/
def bind (c : Claim) (n : Nat) (b : Binding) : Claim :=
  let e := c.st.trunk b.trunk
  let c1 := (c.releasePair n).modSeat n fun r =>
    { r with binding := some b, kind := none, presence := e.presenceAtBind, image := .dark }
  let c2 := if e.marksBind b.position then
      c1.modTrunk b.trunk (·.mark b.position (c1.st.seat n).label.isSome)
    else c1
  c2.touch n

/-- The claim of SEAT UNBIND (R6). -/
def unbind (c : Claim) (n : Nat) : Claim :=
  let c1 := ((c.removeSeat n .unbind).releasePair n).modSeat n fun r =>
    { r with kind := none, presence := .absent, refusalUntil := none, image := .dark }
  c1.fillPoint

/-- One seat of a SEAT ENABLE range (R7). -/
def setEnabled (c : Claim) (v : Bool) (n : Nat) : Claim :=
  if (c.st.seat n).enabled = v then c
  else
    let c1 := c.modSeat n fun r => { r with enabled := v }
    if v then c1 else (c1.removeSeat n .disable).fillPoint

end Claim

/-- SEAT BIND (R4, R5). -/
def seatBindAction : Action := fun p s =>
  let n := u16 p 0
  let position := u8 p 3
  if !seatOk n ∨ 3 < u8 p 2 ∨ position < 1 ∨ Config.positions < position then refuseWith .range s
  else if h : u8 p 2 < 4 then
    let t : TrunkNo := ⟨u8 p 2, h⟩
    match ofCode classRow (u8 p 4) with
    | none => refuseWith .badArg s
    | some k =>
      let b : Binding := ⟨t, position, k⟩
      let old := (s.seat n).binding
      if old.isSome ∧ s.floorState n ≠ .idle then refuseWith .seatBusy s
      else if (s.seatAt t position).any (· ≠ n) then refuseWith .seatBusy s
      else if old = some b then refuseWith .unchanged s
      else if old.any fun o => o.trunk = t ∧ o.position = position then
        (s.event fun c => (c.modSeat n fun r => { r with binding := some b }).touch n, .of .done)
      else (s.event (·.bind n b), .of .done)
  else refuseWith .range s

/-- SEAT UNBIND (R6). -/
def seatUnbindAction : Action := fun p s =>
  let n := u16 p 0
  if !seatOk n then refuseWith .range s
  else if (s.seat n).binding.isNone then refuseWith .unbound s
  else (s.event (·.unbind n), .of .done)

/-- SEAT ENABLE (R7): the seats are taken in ascending number, each removal whole before the next, and so are the notices of the reply
entries that leave (notes/assumptions/40.md). -/
def seatEnableAction : Action := fun p s =>
  match seatRange p with
  | none => refuseWith .range s
  | some ns =>
    match ofCode noYesRow (u8 p 3) with
    | none => refuseWith .badArg s
    | some v =>
      if ns.all fun n => (s.seat n).enabled = v then refuseWith .unchanged s
      else (s.event fun c => ns.foldl (fun c n => c.setEnabled v n) c.fillPoint, .of .done)

/-! ### Labels (R12, R13) -/

/-- A label is stored or removed, and the position of a bound seat that is not ABSENT is marked (R13). -/
def State.storeLabel (s : State) (n : Nat) (codes : List Byte) : State :=
  let s1 := s.modSeat n fun r => { r with label := if codes = [] then none else some codes }
  if (s.seat n).presence = .absent then s1 else s1.markSeat n true

/-- SEAT LABEL (R12). -/
def seatLabelAction : Action := fun p s =>
  let n := u16 p 0
  let text := p.drop 2
  if !seatOk n then refuseWith .range s
  else match convertLabel text with
    | .error at_ => (s, .of .illegalChar [be8 at_])
    | .ok codes =>
      let s1 := s.storeLabel n codes
      if Config.labelCapacity < text.length then (s1, .of .truncated [be8 (Config.labelCapacity + 1)]) else (s1, .of .done)

/-! ### Reading (R14, R186) -/

/-- A seat record; `draw` and `place` name the free value of an absent refusal_until (11.5; notes/assumptions/14.md, 27.md). -/
def State.seatBytes (s : State) (draw place n : Nat) : List Byte :=
  let r := s.seat n
  let label := r.label.getD []
  let bound : Byte := if r.binding.isSome then 0x80 else 0
  let enabled : Byte := if r.enabled then 0x40 else 0
  let cls : Byte := (r.binding.map fun b => codeIn classRow b.cls).getD 0
  be16 n ++
    [bound ||| enabled ||| cls <<< 4 ||| codeIn presenceRow r.presence <<< 2 ||| codeIn stationKindRow r.kind,
     (r.binding.map fun b => be8 b.trunk).getD 0xFF, (r.binding.map fun b => be8 b.position).getD 0,
     (if r.overtimeMark then 0x80 else 0) ||| (if r.micFaultMark then 0x40 else 0) |||
       (if r.refusalUntil.isSome then 0x20 else 0) ||| be8 r.grantCount] ++
    be32 (r.refusalUntil.getD (Config.absentTime draw place)) ++
    [codeIn floorStateRow (s.floorState n) <<< 5 ||| (if r.image.micOpen then 0x10 else 0) ||| codeIn lampRow r.image.lamp,
     be8 label.length] ++ label

/-- Whole records taken from the front while fewer than 16 are taken and the next fits the room left (R186). -/
def takeFitting : Nat → Nat → List (List Byte) → List (List Byte)
  | 0, _, _ => []
  | _, _, [] => []
  | k + 1, room, r :: rest => if r.length ≤ room then r :: takeFitting k (room - r.length) rest else []

/-- SEAT READ (R14, R186). The next base and the record count take 3 bytes of the result. -/
def seatReadAction : Action := fun p s =>
  match seatRange p with
  | none => refuseWith .range s
  | some ns =>
    let records := takeFitting 16 (Config.maxResult - 3) (ns.map fun n => s.seatBytes s.freeDraws (n - u16 p 0) n)
    let all := records.length = ns.length
    let next := if all then 0 else u16 p 0 + records.length
    (s, .of (if all then .done else .more) (be16 next ++ [be8 records.length] ++ records.flatten))

/-- MARKS CLEAR (R11). -/
def marksClearAction : Action := fun p s =>
  match seatRange p with
  | none => refuseWith .range s
  | some ns =>
    (ns.foldl (fun s n => s.modSeat n fun r =>
      { r with overtimeMark := false, micFaultMark := false, grantCount := 0 }) s, .of .done)

/-! ### The rows -/

/-- SEAT BIND (R4, R5). -/
def execSeatBind (l : Link) (s : State) : Host.Outcome State Fault Refusal :=
  .next (s.take l (ofKind 0x10) true (exactly 5) seatBindAction)

/-- SEAT UNBIND (R6). -/
def execSeatUnbind (l : Link) (s : State) : Host.Outcome State Fault Refusal :=
  .next (s.take l (ofKind 0x11) true (exactly 2) seatUnbindAction)

/-- SEAT ENABLE (R7). -/
def execSeatEnable (l : Link) (s : State) : Host.Outcome State Fault Refusal :=
  .next (s.take l (ofKind 0x12) true (exactly 4) seatEnableAction)

/-- SEAT LABEL: 2 to 250 bytes (R12, R185). -/
def execSeatLabel (l : Link) (s : State) : Host.Outcome State Fault Refusal :=
  .next (s.take l (ofKind 0x13) true (fun n => 2 ≤ n ∧ n ≤ 250) seatLabelAction)

/-- SEAT READ (R14). -/
def execSeatRead (l : Link) (s : State) : Host.Outcome State Fault Refusal :=
  .next (s.take l (ofKind 0x14) false (exactly 3) seatReadAction)

/-- MARKS CLEAR (R11). -/
def execMarksClear (l : Link) (s : State) : Host.Outcome State Fault Refusal :=
  .next (s.take l (ofKind 0x15) true (exactly 3) marksClearAction)

end Sys2Proof.Machine
end

