-- ==== Sys2Proof/Machine/Lists.lean ====
section
/-! DEFINITION. The request list commands (chapter 2), INTAKE HOLD and SEED, and the reply list commands (chapter 5). -/

namespace Sys2Proof.Machine

/-- The list version and length of a reply (11.4). -/
def State.listVersionBytes (s : State) : List Byte := be16 s.floor.listVersion.toNat
def State.listLengthByte (s : State) : Byte := be8 s.floor.requests.length

/-! ### Inserting and moving (R36 to R39) -/

/-- The index a place names in a list of this length, if it names one: INDEX takes 0 to the length (R37, R39). -/
def placeIndex (place : Place) (index length : Nat) : Option Nat :=
  match place with
  | .head => some 0
  | .tail => some length
  | .index => if index ≤ length then some index else none

/-- An override field: FFFFh is absent, above 36000 is out of range (R36, 11.3). -/
def overrideOf (v : Nat) : Except Status (Option Nat) :=
  if v = 0xFFFF then .ok none else if Config.maxTicks < v then .error .range else .ok (some v)

/-- The first of the checks 5 to 10 of R36 that fails. -/
def State.insertRefusal (s : State) (n : Nat) : Option Status :=
  let r := s.seat n
  if r.binding.isNone then some .unbound
  else if !s.hasClass n .delegate then some .cls
  else if !r.enabled then some .disabled
  else if r.presence = .absent then some .absentSeat
  else if s.floorState n ≠ .idle then some .seatBusy
  else if Config.listCapacity ≤ s.floor.requests.length then some .full
  else none

/-- LIST INSERT (R36, R37). -/
def listInsertAction : Action := fun p s =>
  let n := u16 p 0
  if !seatOk n then refuseWith .range s
  else match ofCode placeRow (u8 p 2) with
    | none => refuseWith .badArg s
    | some place =>
      match placeIndex place (u8 p 3) s.floor.requests.length with
      | none => refuseWith .range s
      | some i =>
        match overrideOf (u16 p 4) with
        | .error e => refuseWith e s
        | .ok allowance =>
          match s.insertRefusal n with
          | some e => refuseWith e s
          | none =>
            let s1 := s.event fun c => (c.enqueue i ⟨n, .host, s.time, allowance⟩).fillPoint
            (s1, .of .done ([be8 i] ++ s1.listVersionBytes ++ [s1.listLengthByte]))

/-- LIST REMOVE (R38). -/
def listRemoveAction : Action := fun p s =>
  let n := u16 p 0
  if !seatOk n then refuseWith .range s
  else if (s.floor.requestOf n).isNone then refuseWith .notFound s
  else
    let s1 := s.event (·.dequeue n .host)
    (s1, .of .done (s1.listVersionBytes ++ [s1.listLengthByte]))

/-- The list in another order; the images of the old and new first present seats follow (R23). -/
def Claim.reorder (c : Claim) (entries : List RequestEntry) : Claim :=
  c.trackHead (·.modFloor fun f => { f with requests := entries })

/-- LIST MOVE (R39). -/
def listMoveAction : Action := fun p s =>
  let n := u16 p 0
  if !seatOk n then refuseWith .range s
  else match ofCode placeRow (u8 p 2) with
    | none => refuseWith .badArg s
    | some place =>
      match s.floor.requestOf n with
      | none => refuseWith .notFound s
      | some e =>
        let rest := s.floor.requests.filter (·.seat ≠ n)
        match placeIndex place (u8 p 3) rest.length with
        | none => refuseWith .range s
        | some i =>
          let moved := rest.insertIdx i e
          if moved = s.floor.requests then (s, .of .unchanged ([be8 i] ++ s.listVersionBytes))
          else
            let s1 := s.event fun c => (c.reorder moved).fillPoint
            (s1, .of .done ([be8 i] ++ s1.listVersionBytes))

/-- LIST CLEAR (R40). -/
def listClearAction : Action := fun _ s =>
  if s.floor.requests = [] then (s, .of .unchanged [0])
  else (s.event (·.clearRequests .clear), .of .done [s.listLengthByte])

/-- LIST SHUFFLE (R41). -/
def listShuffleAction : Action := fun _ s =>
  let result (s : State) := s.listVersionBytes ++ be32 s.floor.draw
  if s.floor.requests.length < 2 then (s, .of .unchanged (result s))
  else
    let (entries, w) := drawOrder s.floor.draw s.floor.requests
    let s1 := s.event fun c => ((c.reorder entries).modFloor fun f => { f with draw := w }).fillPoint
    (s1, .of .done (result s1))

/-- LIST GATE (R42). -/
def listGateAction : Action := fun p s =>
  match ofCode gateRow (u8 p 0) with
  | none => refuseWith .badArg s
  | some g =>
    if g = s.floor.gate then refuseWith .unchanged s
    else ((s.modFloor fun f => { f with gate := g }).raise .list, .of .done)

/-- A list entry record (11.5). -/
def RequestEntry.bytes (i : Nat) (e : RequestEntry) : List Byte :=
  [be8 i] ++ be16 e.seat ++ [codeIn originRow e.origin] ++ be32 e.stamp ++ be16 (e.allowance.getD 0xFFFF)

/-- LIST READ: at most 12 entries from the cursor (R43). -/
def listReadAction : Action := fun p s =>
  let cursor := u8 p 0
  if 63 < cursor then refuseWith .range s
  else
    let entries := (s.floor.requests.zipIdx.drop cursor).take 12
    let more := cursor + 12 < s.floor.requests.length
    (s, .of (if more then .more else .done)
      (s.listVersionBytes ++ [s.listLengthByte, codeIn gateRow s.floor.gate, be8 (if more then cursor + 12 else 0),
        be8 entries.length] ++ entries.flatMap fun x => x.1.bytes x.2))

/-- INTAKE HOLD (R35). -/
def intakeHoldAction : Action := fun p s =>
  match ofCode holdRow (u8 p 0) with
  | none => refuseWith .badArg s
  | some h =>
    if h = s.floor.hold then refuseWith .unchanged s else (s.modFloor fun f => { f with hold := h }, .of .done)

/-- SEED (R29). -/
def seedAction : Action := fun p s =>
  if u32 p 0 = 0 then refuseWith .range s else (s.modFloor fun f => { f with draw := u32 p 0 }, .of .done)

/-! ### The reply list (R97 to R99) -/

/-- A reply entry record (11.5). -/
def ReplyEntry.bytes (i : Nat) (e : ReplyEntry) : List Byte := [be8 i] ++ be16 e.seat ++ be16 e.target ++ be32 e.stamp

/-- REPLY READ (R97). -/
def replyReadAction : Action := fun _ s =>
  let f := s.floor
  let slot := f.replySlot
  (s, .of .done ([codeIn phaseRow f.phase] ++ be16 (f.subject.getD 0) ++ be16 ((f.replies.head?.map (·.target)).getD 0) ++
    be16 ((slot.map (·.2.seat)).getD 0) ++
    [(slot.map fun x => be8 x.1).getD 0xFF, be8 f.policy.replyMax, be8 f.replies.length] ++
    f.replies.zipIdx.flatMap fun x => x.1.bytes x.2))

/-- REPLY REMOVE (R98). -/
def replyRemoveAction : Action := fun p s =>
  let n := u16 p 0
  if !seatOk n then refuseWith .range s
  else if (s.floor.replyOf n).isNone then refuseWith .notFound s
  else
    let s1 := s.event (·.dropReply n .host)
    (s1, .of .done [be8 s1.floor.replies.length])

/-- REPLY END (R99). In INTERRUPTED and HALTED the list is empty (R87). -/
def replyEndAction : Action := fun _ s =>
  if s.floor.replies = [] then (s, .of .unchanged [0])
  else (s.event (·.clearReplies .host), .of .done [be8 s.floor.replies.length])

/-! ### The rows -/

/-- LIST INSERT (R36, R37). -/
def execListInsert (l : Link) (s : State) : Host.Outcome State Fault Refusal :=
  .next (s.take l (ofKind 0x20) true (exactly 6) listInsertAction)

/-- LIST REMOVE (R38). -/
def execListRemove (l : Link) (s : State) : Host.Outcome State Fault Refusal :=
  .next (s.take l (ofKind 0x21) true (exactly 2) listRemoveAction)

/-- LIST MOVE (R39). -/
def execListMove (l : Link) (s : State) : Host.Outcome State Fault Refusal :=
  .next (s.take l (ofKind 0x22) true (exactly 4) listMoveAction)

/-- LIST CLEAR (R40). -/
def execListClear (l : Link) (s : State) : Host.Outcome State Fault Refusal :=
  .next (s.take l (ofKind 0x23) true (exactly 0) listClearAction)

/-- LIST SHUFFLE (R41). -/
def execListShuffle (l : Link) (s : State) : Host.Outcome State Fault Refusal :=
  .next (s.take l (ofKind 0x24) true (exactly 0) listShuffleAction)

/-- LIST GATE (R42). -/
def execListGate (l : Link) (s : State) : Host.Outcome State Fault Refusal :=
  .next (s.take l (ofKind 0x25) true (exactly 1) listGateAction)

/-- LIST READ (R43). -/
def execListRead (l : Link) (s : State) : Host.Outcome State Fault Refusal :=
  .next (s.take l (ofKind 0x26) false (exactly 1) listReadAction)

/-- INTAKE HOLD (R35). -/
def execIntakeHold (l : Link) (s : State) : Host.Outcome State Fault Refusal :=
  .next (s.take l (ofKind 0x27) true (exactly 1) intakeHoldAction)

/-- SEED (R29). -/
def execSeed (l : Link) (s : State) : Host.Outcome State Fault Refusal :=
  .next (s.take l (ofKind 0x28) true (exactly 4) seedAction)

/-- REPLY READ (R97). -/
def execReplyRead (l : Link) (s : State) : Host.Outcome State Fault Refusal :=
  .next (s.take l (ofKind 0x40) false (exactly 0) replyReadAction)

/-- REPLY REMOVE (R98). -/
def execReplyRemove (l : Link) (s : State) : Host.Outcome State Fault Refusal :=
  .next (s.take l (ofKind 0x41) true (exactly 2) replyRemoveAction)

/-- REPLY END (R99). -/
def execReplyEnd (l : Link) (s : State) : Host.Outcome State Fault Refusal :=
  .next (s.take l (ofKind 0x42) true (exactly 0) replyEndAction)

end Sys2Proof.Machine
end

