-- ==== Sys2Proof/Machine/Floors.lean ====
section
/-! DEFINITION. The floor commands (chapter 3): FLOOR OPEN, FLOOR HALT, FLOOR CLEAR, GRANT, CLOSE, FLOOR READ, POLICY SET and
POLICY READ; and EXTEND (chapter 4). -/

namespace Sys2Proof.Machine

/-! ### Opening, halting and clearing (R64 to R66) -/

/-- FLOOR OPEN (R64). -/
def floorOpenAction : Action := fun _ s =>
  match s.floor.phase with
  | .openFloor | .replyRound => (s, .of .unchanged [0])
  | .interrupted => refuseWith .phase s
  | .halted =>
    let s1 := s.event fun c => (c.setPhase .openFloor).fillPoint
    (s1, .of .done [be8 s1.floor.openCount])

/-- FLOOR HALT (R65). -/
def floorHaltAction : Action := fun _ s =>
  if s.floor.phase = .halted then (s, .of .unchanged [0, 0])
  else (s.event Claim.haltFloor, .of .done [be8 s.floor.openCount, be8 s.floor.stack.length])

/-- How many chair slots are open. -/
def Floor.chairCount (f : Floor) : Nat := (f.chairs.toList.filter Option.isSome).length

/-- The claim of FLOOR CLEAR (R66). -/
def Claim.clearAll (c : Claim) : Claim :=
  let c1 := chairPlaces.foldl (fun c i => c.closeChair i .clear) c.clearFloor
  ((c1.clearRequests .clear).modFloor fun f => { f with subject := none }).setPhase .halted

/-- FLOOR CLEAR (R66). -/
def floorClearAction : Action := fun _ s =>
  if s.floor.phase = .halted ∧ s.floor.chairCount = 0 ∧ s.floor.requests = [] then (s, .of .unchanged [0, 0, 0])
  else (s.event Claim.clearAll,
    .of .done [be8 s.floor.openCount, be8 s.floor.chairCount, be8 s.floor.requests.length])

/-! ### GRANT (R54, R55) -/

/-- The target of a GRANT (R54). -/
inductive GrantTarget where
  | next | seat (n : Nat)
  deriving DecidableEq, Repr

/-- A GRANT's target and modifiers, after its checks 1 to 3 (R54, 11.4). -/
structure GrantArgs where
  target : GrantTarget
  evict : Bool
  allow : Option Nat
  deriving DecidableEq, Repr

/-- The payload of a GRANT, or the first failure of checks 1 to 3 of R54. -/
def grantArgs (p : List Byte) : Except Status GrantArgs :=
  let evict := (p.getD 3 0).getLsbD 0
  let allow := if (p.getD 3 0).getLsbD 1 then some (u16 p 4) else none
  if 1 < u8 p 0 then .error .badArg
  else if u8 p 0 = 1 ∧ !seatOk (u16 p 1) then .error .range
  else if allow.any (Config.maxTicks < ·) then .error .range
  else .ok ⟨if u8 p 0 = 1 then .seat (u16 p 1) else .next, evict, allow⟩

/-- The seat a GRANT names, or the first failure of its checks 5 and 6 (R54). -/
def State.grantSeatOf (s : State) : GrantTarget → Except Status Nat
  | .next =>
    match s.firstPresent with
    | some e => .ok e.seat
    | none => .error .empty
  | .seat n =>
    let r := s.seat n
    if r.binding.isNone then .error .unbound
    else if !s.hasClass n .delegate then .error .cls
    else if !r.enabled then .error .disabled
    else if !s.isHere n then .error .absentSeat
    else if s.floorState n = .idle ∨ s.floorState n = .waiting then .ok n
    else .error .seatBusy

/-- The floor is full for a GRANT, with or without EVICT (R54, check 7). -/
def Floor.fullForGrant (f : Floor) (evict : Bool) : Bool :=
  if evict then
    f.policy.floorMax < f.openCount ∨ f.openCount = f.policy.floorMax ∧ !(f.openSlots.any fun x => x.2.kind = .speak)
  else f.policy.floorMax ≤ f.openCount

/-- The claim of a GRANT: EVICT on a full floor first closes the oldest SPEAK slot; no fill follows (R55). -/
def Claim.grantHost (c : Claim) (n : Nat) (evict : Bool) (allow : Option Nat) : Claim :=
  let c1 :=
    if evict ∧ c.floor.openCount = c.policy.floorMax then
      match c.floor.oldestSpeak c.time with
      | some (i, _) => c.closeSlot i .evict
      | none => c
    else c
  { c1.grantSpeak n .host allow with fillDue := false, serveDue := false }

/-- A point of chamber time in a reply, with a free value when it is absent (R185; notes/assumptions/14.md). -/
def State.timeBytes (s : State) (place : Nat) (t : Option ChamberTime) : List Byte :=
  be32 (t.getD (Config.absentTime s.freeDraws place))

/-- A flag byte of up to three flags, bit 0 first. -/
def flagByte (b0 b1 b2 : Bool) : Byte := (if b0 then 1 else 0) ||| (if b1 then 2 else 0) ||| (if b2 then 4 else 0)

/-- What a GRANT answers of the slot it opened (11.4). -/
def State.grantResult (s : State) (n : Nat) : List Byte :=
  match (s.floor.slotOf n).bind fun i => s.floor.slots[i].map fun d => (i, d) with
  | none => []
  | some (i, d) =>
    be16 n ++ [be8 i] ++ be16 d.allowance ++ [flagByte d.deadline.isSome false false] ++ s.timeBytes 0 d.deadline

/-- GRANT (R54, R55). -/
def grantAction : Action := fun p s =>
  match grantArgs p with
  | .error e => refuseWith e s
  | .ok a =>
    if s.floor.phase ≠ .openFloor then refuseWith .phase s
    else match s.grantSeatOf a.target with
      | .error e => refuseWith e s
      | .ok n =>
        if s.floor.fullForGrant a.evict then refuseWith .full s
        else
          let s1 := s.event (·.grantHost n a.evict a.allow)
          (s1, .of .done (s1.grantResult n))

/-! ### CLOSE (R56, R57) -/

/-- CLOSE SEAT (R56). -/
def closeSeatAction (n : Nat) (s : State) : State × Reply :=
  if !seatOk n then refuseWith .range s
  else match s.floor.slotOf n, s.floor.chairOf n with
    | some i, _ => (s.event (·.closeSlot i .host), .of .done [1])
    | none, some i =>
      if s.floor.chairs[i].any (·.mode = .priority) then refuseWith .phase s
      else (s.event (·.closeChair i .host), .of .done [0])
    | none, none => refuseWith .notFound s

/-- The claim of CLOSE ALL in OPEN and REPLY_ROUND (R57). -/
def Claim.closeAllSlots (c : Claim) : Claim :=
  let c1 := if c.floor.phase = .replyRound then c.clearReplies .host else c
  (c1.floor.slotsByAge c1.time).foldl (fun c x => c.closeSlot x.1 .host) c1

/-- CLOSE ALL (R57). -/
def closeAllAction (s : State) : State × Reply :=
  let unchanged := (s, Reply.of .unchanged [0])
  match s.floor.phase with
  | .interrupted | .halted => unchanged
  | .openFloor | .replyRound =>
    if s.floor.openCount = 0 ∧ s.floor.replies = [] then unchanged
    else (s.event Claim.closeAllSlots, .of .done [be8 s.floor.openCount])

/-- CLOSE, by its selector (R56). -/
def closeAction : Action := fun p s =>
  match u8 p 0 with
  | 0 => closeSeatAction (u16 p 1) s
  | 1 => closeAllAction s
  | _ => refuseWith .badArg s

/-! ### FLOOR READ (R67) -/

/-- A delegate slot record (11.5). -/
def State.slotBytes (s : State) (i : Fin 6) (d : DelegateSlot) : List Byte :=
  [be8 i] ++ be16 d.seat ++ [codeIn slotKindRow d.kind, codeIn originRow d.origin] ++ be32 d.grantedAt ++ be16 d.allowance ++
    s.timeBytes (2 * i) d.deadline ++ s.timeBytes (2 * i + 1) d.warnAt ++
    [flagByte d.deadline.isSome d.warnAt.isSome d.overtime]

/-- The open chair slots with their places. -/
def Floor.openChairs (f : Floor) : List (Fin 2 × ChairSlot) := chairPlaces.filterMap fun i => f.chairs[i].map fun d => (i, d)

/-- A chair slot record (11.5). -/
def chairBytes (i : Fin 2) (d : ChairSlot) : List Byte :=
  [be8 i] ++ be16 d.seat ++ be32 d.openedAt ++ [codeIn chairStateRow d.mode]

/-- FLOOR READ (R67): the open slots are listed by ascending index (notes/assumptions/33.md), and the HOLD input's level is 1 for
high and 0 for low (notes/assumptions/37.md). -/
def floorReadAction : Action := fun _ s =>
  let f := s.floor
  (s, .of .done (be32 s.time ++
    [codeIn phaseRow f.phase, ((f.principal s.time).map fun x => be8 x.1).getD 0xFF] ++ be16 (f.subject.getD 0) ++
    [be8 f.openCount] ++ (f.openSlots.flatMap fun x => s.slotBytes x.1 x.2) ++
    [be8 f.chairCount] ++ (f.openChairs.flatMap fun x => chairBytes x.1 x.2) ++
    s.listVersionBytes ++
    [s.listLengthByte, codeIn gateRow f.gate, (s.firstPresentIndex.map be8).getD 0xFF, be8 f.replies.length,
      be8 f.stack.length, codeIn holdRow f.hold, yesNo s.pins.hold] ++ be32 f.draw))

/-! ### Policy (R68 to R71) -/

/-- POLICY SET (R69). -/
def policySetAction : Action := fun p s =>
  match s.floor.policy.setPairs [] (policyPairs p) with
  | .error e => refuseWith e s
  | .ok q =>
    if q = s.floor.policy then refuseWith .unchanged s
    else (s.event fun c => ((c.modFloor fun f => { f with policy := q }).raise .floor).fillPoint, .of .done)

/-- POLICY READ (R71). -/
def policyReadAction : Action := fun _ s =>
  (s, .of .done (policyRow.zipIdx.flatMap fun x => be8 x.2 :: be16 (s.floor.policy.value x.1)))

/-! ### EXTEND (R82 to R84) -/

/-- The ticks left to a point: 0 when it has been reached (R82). -/
def ticksLeft (now t : ChamberTime) : Nat := if reached now t then 0 else (t - now).toNat

/-- The answer of an EXTEND for an open slot (11.4). -/
def State.slotLimitResult (s : State) (deadline : Option ChamberTime) : List Byte :=
  [flagByte deadline.isSome false false] ++ s.timeBytes 0 deadline ++ remainingBytes (deadline.map (ticksLeft s.time))

/-- The answer of an EXTEND for a held record, its deadline absent (R84). -/
def State.heldLimitResult (s : State) (remaining : Option Nat) : List Byte :=
  [flagByte false false false] ++ s.timeBytes 0 none ++ remainingBytes remaining

/-- An open slot with n more ticks (R83). -/
def DelegateSlot.extend (now : ChamberTime) (n : Nat) (d : DelegateSlot) : DelegateSlot :=
  { d with
    deadline := d.deadline.map (after · n)
    warnAt := d.warnAt.map (after · n)
    overtime := d.overtime && d.deadline.any fun t => reached now (after t n) }

/-- EXTEND for an open slot (R82, R83). -/
def extendSlot (s : State) (n : Nat) (i : Fin 6) (d : DelegateSlot) : State × Reply :=
  match d.deadline with
  | none => (s, .of .unchanged (s.slotLimitResult none))
  | some t =>
    if Config.maxTicks < ticksLeft s.time (after t n) then (s, .of .unchanged (s.slotLimitResult (some t)))
    else
      let s1 := s.event fun c =>
        ((c.modFloor fun f => { f with slots := f.slots.set i (some (d.extend s.time n)) }).raise .floor).touch d.seat
      (s1, .of .done (s1.slotLimitResult (some (after t n))))

/-- A seat's held slot record, in any frame. -/
def Floor.heldOf (f : Floor) (m : Nat) : Option HeldSlot := (f.stack.flatMap (·.records)).find? (·.seat = m)

/-- A held record with n more ticks (R84). -/
def HeldSlot.extend (n : Nat) (h : HeldSlot) : HeldSlot :=
  { h with remaining := h.remaining.map (· + n), overtime := false, warned := false }

/-- EXTEND for a held record (R82, R84). -/
def extendHeld (s : State) (n : Nat) (h : HeldSlot) : State × Reply :=
  match h.remaining with
  | none => (s, .of .unchanged (s.heldLimitResult none))
  | some r =>
    if Config.maxTicks < r + n then (s, .of .unchanged (s.heldLimitResult (some r)))
    else
      let s1 := (s.modFloor fun f => { f with stack := f.stack.map fun fr =>
        { fr with records := fr.records.map fun x => if x.seat = h.seat then x.extend n else x } }).raise .floor
      (s1, .of .done (s1.heldLimitResult (some (r + n))))

/-- EXTEND (R82). -/
def extendAction : Action := fun p s =>
  let m := u16 p 0
  let n := u16 p 2
  if !seatOk m ∨ n < 1 ∨ Config.maxTicks < n then refuseWith .range s
  else match (s.floor.slotOf m).bind fun i => s.floor.slots[i].map fun d => (i, d) with
    | some (i, d) => extendSlot s n i d
    | none =>
      match s.floor.heldOf m with
      | some h => extendHeld s n h
      | none => refuseWith .notFound s

/-! ### The rows -/

/-- FLOOR OPEN (R64). -/
def execFloorOpen (l : Link) (s : State) : Host.Outcome State Fault Refusal :=
  .next (s.take l (ofKind 0x30) true (exactly 0) floorOpenAction)

/-- FLOOR HALT (R65). -/
def execFloorHalt (l : Link) (s : State) : Host.Outcome State Fault Refusal :=
  .next (s.take l (ofKind 0x31) true (exactly 0) floorHaltAction)

/-- FLOOR CLEAR (R66). -/
def execFloorClear (l : Link) (s : State) : Host.Outcome State Fault Refusal :=
  .next (s.take l (ofKind 0x32) true (exactly 0) floorClearAction)

/-- GRANT with target NEXT (R54, R55). -/
def execGrantNext (l : Link) (s : State) : Host.Outcome State Fault Refusal :=
  .next (s.take l (ofKindBut 0x33 0 [1]) true (exactly 6) grantAction)

/-- GRANT with target SEAT (R54, R55). -/
def execGrantSeat (l : Link) (s : State) : Host.Outcome State Fault Refusal :=
  .next (s.take l (ofKindBut 0x33 0 [0]) true (exactly 6) grantAction)

/-- CLOSE with selector SEAT (R56). -/
def execCloseSeat (l : Link) (s : State) : Host.Outcome State Fault Refusal :=
  .next (s.take l (ofKindBut 0x34 0 [1]) true (exactly 3) closeAction)

/-- CLOSE with selector ALL (R57). -/
def execCloseAll (l : Link) (s : State) : Host.Outcome State Fault Refusal :=
  .next (s.take l (ofKindBut 0x34 0 [0]) true (exactly 3) closeAction)

/-- FLOOR READ (R67). -/
def execFloorRead (l : Link) (s : State) : Host.Outcome State Fault Refusal :=
  .next (s.take l (ofKind 0x35) false (exactly 0) floorReadAction)

/-- POLICY SET: 3 to 45 bytes in multiples of 3 (R69, R185). -/
def execPolicySet (l : Link) (s : State) : Host.Outcome State Fault Refusal :=
  .next (s.take l (ofKind 0x36) true (fun n => 3 ≤ n ∧ n ≤ 45 ∧ n % 3 = 0) policySetAction)

/-- POLICY READ (R71). -/
def execPolicyRead (l : Link) (s : State) : Host.Outcome State Fault Refusal :=
  .next (s.take l (ofKind 0x37) false (exactly 0) policyReadAction)

/-- EXTEND (R82 to R84). -/
def execExtend (l : Link) (s : State) : Host.Outcome State Fault Refusal :=
  .next (s.take l (ofKind 0x38) true (exactly 4) extendAction)

end Sys2Proof.Machine
end

