-- ==== Sys2Proof/Machine/Reports.lean ====
section
/-! DEFINITION. The Report Unit's commands (chapter 10): TAKE EVENTS, TAKE NOTICES, ATTN MASK, NOTICE FILTER and LINES SET. -/

namespace Sys2Proof.Machine

/-- TAKE EVENTS (R175). -/
def takeEventsAction (l : Link) : Action := fun _ s =>
  (s.modReport l fun r => { r with flags := 0 }, .of .done (be16 (s.reportOf l).flags.toNat))

/-- TAKE NOTICES (R180). -/
def takeNoticesAction (l : Link) : Action := fun p s =>
  let n := u8 p 0
  if n < 1 ∨ 16 < n then refuseWith .range s
  else
    let q := (s.reportOf l).queue
    (s.modReport l fun r => { r with queue := q.drop n },
      .of (if n < q.length then .more else .done)
        (be8 (q.take n).length :: (q.take n).flatMap NoticeRecord.bytes))

/-- ATTN MASK (R176). -/
def attnMaskAction (l : Link) : Action := fun p s =>
  let v := BitVec.ofNat 16 (u16 p 0)
  if v = (s.reportOf l).mask then (s, .of .unchanged (be16 v.toNat))
  else (s.modReport l fun r => { r with mask := v }, .of .done (be16 v.toNat))

/-- NOTICE FILTER (R181); the unused bits of the category set are disregarded (11.1). -/
def noticeFilterAction (l : Link) : Action := fun p s =>
  let v := BitVec.ofNat 5 (u8 p 0)
  if v = (s.reportOf l).filter then (s, .of .unchanged [v.setWidth 8])
  else (s.modReport l fun r => { r with filter := v }, .of .done [v.setWidth 8])

/-- The setting of STAT0 or STAT1. -/
def State.line (s : State) : Fin 2 → StatLine
  | 0 => s.report.stat0
  | 1 => s.report.stat1

/-- Set one STAT line. -/
def State.setLine (s : State) (i : Fin 2) (x : StatLine) : State :=
  match i with
  | 0 => { s with report := { s.report with stat0 := x } }
  | 1 => { s with report := { s.report with stat1 := x } }

/-- The setting and level of both STAT lines (R183); the level is 1 for high and 0 for low (notes/assumptions/37.md). -/
def State.linesResult (s : State) : List Byte :=
  [s.report.stat0, s.report.stat1].flatMap fun x => [codeIn statRow x.selection, yesNo x.inverted, yesNo (s.statLevel x)]

/-- LINES SET (R183). -/
def linesSetAction : Action := fun p s =>
  if h : u8 p 0 < 2 then
    match ofCode statRow (u8 p 1), ofCode noYesRow (u8 p 2) with
    | some sel, some inv =>
      let i : Fin 2 := ⟨u8 p 0, h⟩
      if s.line i = ⟨sel, inv⟩ then (s, .of .unchanged s.linesResult)
      else
        let s1 := s.setLine i ⟨sel, inv⟩
        (s1, .of .done s1.linesResult)
    | _, _ => refuseWith .badArg s
  else refuseWith .range s

/-- TAKE EVENTS (R175). -/
def execTakeEvents (l : Link) (s : State) : Host.Outcome State Fault Refusal :=
  .next (s.take l (ofKind 0x70) false (exactly 0) (takeEventsAction l))

/-- TAKE NOTICES (R180). -/
def execTakeNotices (l : Link) (s : State) : Host.Outcome State Fault Refusal :=
  .next (s.take l (ofKind 0x71) false (exactly 1) (takeNoticesAction l))

/-- ATTN MASK (R176). -/
def execAttnMask (l : Link) (s : State) : Host.Outcome State Fault Refusal :=
  .next (s.take l (ofKind 0x72) false (exactly 2) (attnMaskAction l))

/-- NOTICE FILTER (R181). -/
def execNoticeFilter (l : Link) (s : State) : Host.Outcome State Fault Refusal :=
  .next (s.take l (ofKind 0x73) false (exactly 1) (noticeFilterAction l))

/-- LINES SET (R183). -/
def execLinesSet (l : Link) (s : State) : Host.Outcome State Fault Refusal :=
  .next (s.take l (ofKind 0x74) true (exactly 3) linesSetAction)

end Sys2Proof.Machine
end

