-- ==== Sys2Proof/Machine/Dispatch.lean ====
section
/-! DEFINITION. What each event does to everything but the queue: one arm per row of spec/opcode_table.json, each one call of the
row's meaning. -/

namespace Sys2Proof.Machine

/-- The effect of one event (95_what_each_step_holds.md). -/
def exec (i : Instr) (s : State) : Host.Outcome State Fault Refusal :=
  match i with
  | .deviceReset => Sys2Proof.Machine.execDeviceReset s
  | .holdInputChange high => Sys2Proof.Machine.execHoldInputChange high s
  | .internalTick => Sys2Proof.Machine.execInternalTick s
  | .trefPulse m => Sys2Proof.Machine.execTrefPulse m s
  | .fallbackTick => Sys2Proof.Machine.execFallbackTick s
  | .intake => Sys2Proof.Machine.execIntake s
  | .deadlinePass => Sys2Proof.Machine.execDeadlinePass s
  | .displacementCheck => Sys2Proof.Machine.execDisplacementCheck s
  | .refusalEnd => Sys2Proof.Machine.execRefusalEnd s
  | .alarmCheck => Sys2Proof.Machine.execAlarmCheck s
  | .beat => Sys2Proof.Machine.execBeat s
  | .silenceMeasure => Sys2Proof.Machine.execSilenceMeasure s
  | .linkFrameComplete l b m => Sys2Proof.Machine.execLinkFrameComplete l b m s
  | .lenReject l b m => Sys2Proof.Machine.execLenReject l b m s
  | .linkFrameTimeout l => Sys2Proof.Machine.execLinkFrameTimeout l s
  | .replySent l => Sys2Proof.Machine.execReplySent l s
  | .unknownCommand l => Sys2Proof.Machine.execUnknownCommand l s
  | .identify l => Sys2Proof.Machine.execIdentify l s
  | .restart l => Sys2Proof.Machine.execRestart l s
  | .authorityHand l => Sys2Proof.Machine.execAuthorityHand l s
  | .authorityClaim l => Sys2Proof.Machine.execAuthorityClaim l s
  | .linkConfig l => Sys2Proof.Machine.execLinkConfig l s
  | .seatBind l => Sys2Proof.Machine.execSeatBind l s
  | .seatUnbind l => Sys2Proof.Machine.execSeatUnbind l s
  | .seatEnable l => Sys2Proof.Machine.execSeatEnable l s
  | .seatLabel l => Sys2Proof.Machine.execSeatLabel l s
  | .seatRead l => Sys2Proof.Machine.execSeatRead l s
  | .marksClear l => Sys2Proof.Machine.execMarksClear l s
  | .listInsert l => Sys2Proof.Machine.execListInsert l s
  | .listRemove l => Sys2Proof.Machine.execListRemove l s
  | .listMove l => Sys2Proof.Machine.execListMove l s
  | .listClear l => Sys2Proof.Machine.execListClear l s
  | .listShuffle l => Sys2Proof.Machine.execListShuffle l s
  | .listGate l => Sys2Proof.Machine.execListGate l s
  | .listRead l => Sys2Proof.Machine.execListRead l s
  | .intakeHold l => Sys2Proof.Machine.execIntakeHold l s
  | .seed l => Sys2Proof.Machine.execSeed l s
  | .floorOpen l => Sys2Proof.Machine.execFloorOpen l s
  | .floorHalt l => Sys2Proof.Machine.execFloorHalt l s
  | .floorClear l => Sys2Proof.Machine.execFloorClear l s
  | .grantNext l => Sys2Proof.Machine.execGrantNext l s
  | .grantSeat l => Sys2Proof.Machine.execGrantSeat l s
  | .closeSeat l => Sys2Proof.Machine.execCloseSeat l s
  | .closeAll l => Sys2Proof.Machine.execCloseAll l s
  | .floorRead l => Sys2Proof.Machine.execFloorRead l s
  | .policySet l => Sys2Proof.Machine.execPolicySet l s
  | .policyRead l => Sys2Proof.Machine.execPolicyRead l s
  | .extend l => Sys2Proof.Machine.execExtend l s
  | .replyRead l => Sys2Proof.Machine.execReplyRead l s
  | .replyRemove l => Sys2Proof.Machine.execReplyRemove l s
  | .replyEnd l => Sys2Proof.Machine.execReplyEnd l s
  | .suspend l => Sys2Proof.Machine.execSuspend l s
  | .resume l => Sys2Proof.Machine.execResume l s
  | .stackRead l => Sys2Proof.Machine.execStackRead l s
  | .timeSet l => Sys2Proof.Machine.execTimeSet l s
  | .timeRead l => Sys2Proof.Machine.execTimeRead l s
  | .timebaseMode l => Sys2Proof.Machine.execTimebaseMode l s
  | .alarmSet l => Sys2Proof.Machine.execAlarmSet l s
  | .alarmClear l => Sys2Proof.Machine.execAlarmClear l s
  | .trunkEnable l => Sys2Proof.Machine.execTrunkEnable l s
  | .trunkEnumerate l => Sys2Proof.Machine.execTrunkEnumerate l s
  | .trunkDisable l => Sys2Proof.Machine.execTrunkDisable l s
  | .trunkConfig l => Sys2Proof.Machine.execTrunkConfig l s
  | .trunkRead l => Sys2Proof.Machine.execTrunkRead l s
  | .countsClear l => Sys2Proof.Machine.execCountsClear l s
  | .takeEvents l => Sys2Proof.Machine.execTakeEvents l s
  | .takeNotices l => Sys2Proof.Machine.execTakeNotices l s
  | .attnMask l => Sys2Proof.Machine.execAttnMask l s
  | .noticeFilter l => Sys2Proof.Machine.execNoticeFilter l s
  | .linesSet l => Sys2Proof.Machine.execLinesSet l s
  | .tallyReceived t bytes m => Sys2Proof.Machine.execTallyReceived t bytes m s
  | .tallyWaitExpiry t => Sys2Proof.Machine.execTallyWaitExpiry t s
  | .probe t => Sys2Proof.Machine.execProbe t s
  | .probeAnswer t bytes m => Sys2Proof.Machine.execProbeAnswer t bytes m s
  | .sweepStart t => Sys2Proof.Machine.execSweepStart t s
  | .sweepPoll t => Sys2Proof.Machine.execSweepPoll t s
  | .sendBeat t => Sys2Proof.Machine.execSendBeat t s
  | .servePending t => Sys2Proof.Machine.execServePending t s
  | .statusAnswer t bytes m => Sys2Proof.Machine.execStatusAnswer t bytes m s
  | .answerFault t bytes m => Sys2Proof.Machine.execAnswerFault t bytes m s
  | .answerWaitExpiry t => Sys2Proof.Machine.execAnswerWaitExpiry t s
  | .resetRelease baud1 baud0 m => Sys2Proof.Machine.execResetRelease baud1 baud0 m s
  | .linkByte l b m => Sys2Proof.Machine.execLinkByte l b m s
  | .rejectSent l => Sys2Proof.Machine.execRejectSent l s

end Sys2Proof.Machine
end

