-- ==== Sys2Proof/Safety.lean ====
section
/-! DEFINITION. What stays true of the block at every step: the capacities and laws the manual states of its queues, FIFOs,
lists, stack, ports and counters. -/

namespace Sys2Proof.Machine

/-- A notice queue holds at most 32 records (R179). -/
def LinkReport.wf (r : LinkReport) : Prop := r.queue.length ≤ Config.noticeCapacity

/-- Both notice queues keep their capacity (R179). -/
def State.reportsWf (s : State) : Prop := s.report.linkA.wf ∧ s.report.linkB.wf

/-- How many replies a transmit queue holds. -/
def LinkPort.replies (p : LinkPort) : Nat := (p.transmit.filter fun f => !f.isReject).length

/-- A port holds its one reply exactly while it is REPLYING, and at most four REJECTs wait behind the frame in transmission
(R162, R163). -/
def LinkPort.wf (p : LinkPort) : Prop :=
  p.replies = (if p.command = .replying then 1 else 0) ∧ p.waitingRejects ≤ Config.rejectCapacity

/-- Both ports keep the laws of R162 and R163. -/
def State.portsWf (s : State) : Prop := s.ports.portA.wf ∧ s.ports.portB.wf

/-- The pending update list holds at most one entry for each of the positions 1 to 120 (R146). -/
def TrunkEngine.pendingWf (e : TrunkEngine) : Prop :=
  e.pending.length ≤ Config.positions ∧ (e.pending.map (·.position)).Nodup ∧
    ∀ x ∈ e.pending, 1 ≤ x.position ∧ x.position ≤ Config.positions

/-- A trunk engine keeps its capacities: N, the FIFO, the miss counts, the error counts and the pending update list (R134, R146). -/
def TrunkEngine.wf (e : TrunkEngine) : Prop :=
  e.found ≤ Config.positions ∧ e.fifo.length ≤ Config.fifoCapacity ∧ (∀ p, (e.station p).miss ≤ 3) ∧
    e.crcErrors ≤ 65535 ∧ e.formatErrors ≤ 65535 ∧ e.misses ≤ 65535 ∧ e.pendingWf

/-- All four engines keep their capacities (R134). -/
def State.trunksWf (s : State) : Prop := ∀ t, (s.trunk t).wf

/-- Of the frames, listed top first, the bottom one saved another phase than INTERRUPTED and every other one saved INTERRUPTED
(R101). -/
def framesWf : List StackFrame → Prop
  | [] => True
  | [fr] => fr.savedPhase ≠ .interrupted
  | fr :: rest => fr.savedPhase = .interrupted ∧ framesWf rest

/-- The stack holds at most 4 frames, the phase is INTERRUPTED exactly when it holds at least one, and the frames saved the phases
that R101 gives them (R100, R101). -/
def Floor.stackWf (f : Floor) : Prop :=
  f.stack.length ≤ Config.stackCapacity ∧ (f.phase = .interrupted ↔ f.stack ≠ []) ∧ framesWf f.stack

/-- The draw state is not zero (R29). -/
def Floor.drawWf (f : Floor) : Prop := f.draw ≠ 0

/-! ### The words of the statements: commands -/

/-- The interpreter may take this command of link l (R164), and it passes the checks of R165: it is of this kind, its link has the
authority it needs, and its payload has this length. -/
structure State.Takes (s : State) (l : Link) (c : HeldCommand) (kind : Byte) (needsControl : Bool) (length : Nat) : Prop where
  held : s.takeable l = some c
  kind : c.kind = kind
  control : needsControl = true → s.hasControl l = true
  length : c.payload.length = length

/-- A row of the table in which the interpreter takes a command: which held commands it takes, whether they need CONTROL, and
the payload lengths allowed (R165, 11.4). -/
structure CommandRow where
  row : Link → Instr
  takes : HeldCommand → Bool
  needsControl : Bool
  lengths : Nat → Bool

/-- The rows of the commands (11.4), but for UNKNOWN_COMMAND. -/
def commandRows : List CommandRow :=
  [⟨.identify, ofKind 0x01, false, exactly 0⟩,
   ⟨.restart, ofKind 0x02, true, exactly 0⟩,
   ⟨.authorityHand, ofKind 0x03, true, exactly 0⟩,
   ⟨.authorityClaim, ofKind 0x04, false, exactly 0⟩,
   ⟨.linkConfig, ofKind 0x05, true, exactly 2⟩,
   ⟨.seatBind, ofKind 0x10, true, exactly 5⟩,
   ⟨.seatUnbind, ofKind 0x11, true, exactly 2⟩,
   ⟨.seatEnable, ofKind 0x12, true, exactly 4⟩,
   ⟨.seatLabel, ofKind 0x13, true, fun n => 2 ≤ n ∧ n ≤ 250⟩,
   ⟨.seatRead, ofKind 0x14, false, exactly 3⟩,
   ⟨.marksClear, ofKind 0x15, true, exactly 3⟩,
   ⟨.listInsert, ofKind 0x20, true, exactly 6⟩,
   ⟨.listRemove, ofKind 0x21, true, exactly 2⟩,
   ⟨.listMove, ofKind 0x22, true, exactly 4⟩,
   ⟨.listClear, ofKind 0x23, true, exactly 0⟩,
   ⟨.listShuffle, ofKind 0x24, true, exactly 0⟩,
   ⟨.listGate, ofKind 0x25, true, exactly 1⟩,
   ⟨.listRead, ofKind 0x26, false, exactly 1⟩,
   ⟨.intakeHold, ofKind 0x27, true, exactly 1⟩,
   ⟨.seed, ofKind 0x28, true, exactly 4⟩,
   ⟨.floorOpen, ofKind 0x30, true, exactly 0⟩,
   ⟨.floorHalt, ofKind 0x31, true, exactly 0⟩,
   ⟨.floorClear, ofKind 0x32, true, exactly 0⟩,
   ⟨.grantNext, ofKindBut 0x33 0 [1], true, exactly 6⟩,
   ⟨.grantSeat, ofKindBut 0x33 0 [0], true, exactly 6⟩,
   ⟨.closeSeat, ofKindBut 0x34 0 [1], true, exactly 3⟩,
   ⟨.closeAll, ofKindBut 0x34 0 [0], true, exactly 3⟩,
   ⟨.floorRead, ofKind 0x35, false, exactly 0⟩,
   ⟨.policySet, ofKind 0x36, true, fun n => 3 ≤ n ∧ n ≤ 45 ∧ n % 3 = 0⟩,
   ⟨.policyRead, ofKind 0x37, false, exactly 0⟩,
   ⟨.extend, ofKind 0x38, true, exactly 4⟩,
   ⟨.replyRead, ofKind 0x40, false, exactly 0⟩,
   ⟨.replyRemove, ofKind 0x41, true, exactly 2⟩,
   ⟨.replyEnd, ofKind 0x42, true, exactly 0⟩,
   ⟨.suspend, ofKind 0x48, true, exactly 0⟩,
   ⟨.resume, ofKind 0x49, true, exactly 0⟩,
   ⟨.stackRead, ofKind 0x4A, false, exactly 1⟩,
   ⟨.timeSet, ofKind 0x50, true, exactly 4⟩,
   ⟨.timeRead, ofKind 0x51, false, exactly 0⟩,
   ⟨.timebaseMode, ofKind 0x52, true, exactly 1⟩,
   ⟨.alarmSet, ofKind 0x53, true, exactly 6⟩,
   ⟨.alarmClear, ofKind 0x54, true, exactly 1⟩,
   ⟨.trunkEnable, ofKindBut 0x60 1 [1, 2], true, exactly 2⟩,
   ⟨.trunkEnumerate, ofKindBut 0x60 1 [0, 2], true, exactly 2⟩,
   ⟨.trunkDisable, ofKindBut 0x60 1 [0, 1], true, exactly 2⟩,
   ⟨.trunkConfig, ofKind 0x61, true, exactly 5⟩,
   ⟨.trunkRead, ofKind 0x62, false, exactly 1⟩,
   ⟨.countsClear, ofKind 0x63, true, exactly 1⟩,
   ⟨.takeEvents, ofKind 0x70, false, exactly 0⟩,
   ⟨.takeNotices, ofKind 0x71, false, exactly 1⟩,
   ⟨.attnMask, ofKind 0x72, false, exactly 2⟩,
   ⟨.noticeFilter, ofKind 0x73, false, exactly 1⟩,
   ⟨.linesSet, ofKind 0x74, true, exactly 3⟩]

/-- The commands whose whole effect lies on the floor (chapters 2 to 6). -/
def floorRows : List (Link → Instr) :=
  [.listInsert, .listRemove, .listMove, .listClear, .listShuffle, .listGate, .listRead, .intakeHold, .seed,
   .floorOpen, .floorHalt, .floorClear, .grantNext, .grantSeat, .closeSeat, .closeAll, .floorRead, .policySet, .policyRead,
   .extend, .replyRead, .replyRemove, .replyEnd, .suspend, .resume, .stackRead]

/-- A fill point of this floor grants nothing and serves nothing (R50, R92). -/
def State.noFill (s : State) : Prop :=
  s.floor.phase = .halted ∨ s.floor.phase = .interrupted ∨
    s.floor.phase = .openFloor ∧ s.floor.policy.grantMode = .manual

/-- Link l's set of event flags holds a flag (R174). -/
def State.flagged (s : State) (l : Link) (e : EventFlag) : Prop := (s.reportOf l).flags.getLsbD e.bit = true

/-- The seat holds at most one delegate slot and at most one chair slot, as R15 has it. -/
def Floor.oneSlot (f : Floor) (n : Nat) : Prop :=
  (∀ (i j : Fin 6) (d e : DelegateSlot), f.slots[i] = some d → f.slots[j] = some e → d.seat = n → e.seat = n → i = j) ∧
    ∀ (i j : Fin 2) (d e : ChairSlot), f.chairs[i] = some d → f.chairs[j] = some e → d.seat = n → e.seat = n → i = j

/-! ### The words of the statements: slots, rounds and what an event leaves -/

/-- A slot opened now with this allowance (0 is unlimited), under WARN_LEAD `lead` (R47, R74). -/
def slotNow (now : ChamberTime) (lead n : Nat) (kind : SlotKind) (origin : Origin) (allowance : Nat) : DelegateSlot :=
  { seat := n, kind := kind, origin := origin, grantedAt := now, allowance := allowance
    deadline := if allowance = 0 then none else some (after now allowance)
    warnAt :=
      if allowance = 0 ∨ lead = 0 then none
      else if lead < allowance then some (after now (allowance - lead)) else some now
    overtime := false }

/-- The reply round begins for this seat, with its reports (R91). -/
def State.roundBegun (s : State) (subject : Nat) : State :=
  (((s.notify ⟨.phase, .none, some 1, [0]⟩).raise .floor).notify
    ⟨.roundBegin, .seat subject, none, [detailOf s.floor.replies.length]⟩).modFloor
      fun f => { f with phase := .replyRound, subject := some subject }

/-- The reply round ends, with its reports (R94). -/
def State.roundEnded (s : State) : State :=
  (((s.notify ⟨.roundEnd, (s.floor.subject.map Subject.seat).getD .none, none, []⟩).notify
    ⟨.phase, .none, some 0, [1]⟩).raise .floor).modFloor fun f => { f with phase := .openFloor, subject := none }

/-- The close of the slot in place i, for this reason code, with its report and its consequences for the round: the principal's
close in OPEN with entries waiting begins it, the REPLY slot's close with none waiting ends it (R53, R91, R93); the principal is that of
notes/assumptions/36.md. -/
def State.slotClosed (s : State) (i : Fin 6) (d : DelegateSlot) (why : Byte) : State :=
  let x := ((s.notify ⟨.released, .seat d.seat, some why, [detailOf i, detailOf (s.time - d.grantedAt).toNat]⟩).raise .floor).modFloor
    fun f => { f with slots := f.slots.set i none }
  if s.floor.phase = .openFloor ∧ s.floor.replies ≠ [] ∧ (s.floor.principal s.time).any (·.1 = i) then x.roundBegun d.seat
  else if s.floor.phase = .replyRound ∧ s.floor.replies = [] ∧ d.kind = .reply then x.roundEnded
  else x

/-- The grant of a SPEAK slot in place j to a seat, with its report; it takes the seat's request list entry (R49). -/
def State.speakGranted (s : State) (j : Fin 6) (n : Nat) (origin : Origin) (allowance : Nat) : State :=
  let x := ((s.notify ⟨.granted, .seat n, some (codeIn originRow origin), [detailOf j, detailOf allowance]⟩).raise .floor).modFloor
    fun f => { f with slots := f.slots.set j (some (slotNow s.time f.policy.warnLead n .speak origin allowance)) }
  if s.floor.requestOf n = none then x
  else (x.raise .list).modFloor fun f =>
    { f with requests := f.requests.filter (·.seat ≠ n), listVersion := f.listVersion + 1 }

/-- The grant of a REPLY slot in place j to a seat, with its report; it takes the seat's reply entry (R92). -/
def State.replyGranted (s : State) (j : Fin 6) (n : Nat) : State :=
  (((s.notify ⟨.granted, .seat n, some 0, [detailOf j, detailOf s.floor.policy.replyAllow]⟩).raise .floor).raise .reply).modFloor
    fun f => { f with
      slots := f.slots.set j (some (slotNow s.time f.policy.warnLead n .reply .auto f.policy.replyAllow))
      replies := f.replies.filter (·.seat ≠ n) }

/-- The floor and the reports after the fill point at the end of an event that left the state s, where the rules fix them without
a fill: nothing in HALTED and INTERRUPTED and in OPEN under MANUAL (R50), the serve point in REPLY_ROUND (R92). None where the
fill of R50 runs. -/
def State.settled (s : State) : Option State :=
  let manual := s.floor.policy.grantMode = .manual
  match s.floor.phase with
  | .halted | .interrupted => some s
  | .openFloor => if manual then some s else none
  | .replyRound =>
    if s.floor.replySlot ≠ none then some s
    else if s.floor.replies = [] then if manual then some s.roundEnded else none
    else if s.floor.openCount < s.floor.policy.floorMax then
      match s.firstPresentReply, s.floor.freeSlot with
      | some e, some j => some (s.replyGranted j e.seat)
      | _, _ => some s
    else some s

/-- The event that left the state x before its fill point ends in t: the floor and the reports are those of `settled`, and where
the fill of R50 runs under FLOOR_MAX of at most 6 with no replies waiting, it leaves no present entry beside a free place. -/
structure State.Settles (x t : State) : Prop where
  fixed : ∀ y, x.settled = some y → t.floor = y.floor ∧ t.report = y.report
  filled : x.floor.phase = .openFloor → x.floor.policy.grantMode = .auto → x.floor.policy.floorMax ≤ 6 → x.floor.replies = [] →
    t.floor.openCount < x.floor.policy.floorMax → ∀ e ∈ t.floor.requests, t.isHere e.seat = false

/-- The same for an event that is a serve point alone (R92): in OPEN nothing follows. -/
def State.roundSettles (x t : State) : Prop :=
  (x.floor.phase ≠ .replyRound → t.floor = x.floor ∧ t.report = x.report) ∧ (x.floor.phase = .replyRound → x.Settles t)

/-- The same for a floor f whose reports are not given: the floor of t is the one that follows f in the state s. -/
def Floor.settlesFloor (f : Floor) (s t : State) : Prop :=
  (∀ y, ({ s with floor := f } : State).settled = some y → t.floor = y.floor) ∧
    (f.phase = .openFloor → f.policy.grantMode = .auto → f.policy.floorMax ≤ 6 → f.replies = [] →
      t.floor.openCount < f.policy.floorMax → ∀ e ∈ t.floor.requests, t.isHere e.seat = false)

/-- An intake that ends in t refuses this press of a seat: the REFUSED notice alone is raised, and the refusal display is set where
REFUSE_SHOW is not 0 (R18, R30). -/
structure State.Refuses (s t : State) (n : Nat) (b : Button) (why : PressRefusal) : Prop where
  settles : (s.notify ⟨.refused, .seat n, some (codeIn refusalRow why), [detailCode (codeIn buttonRow b)]⟩).Settles t
  display : (t.seat n).refusalUntil =
    if s.floor.policy.refuseShow = 0 then (s.seat n).refusalUntil else some (after s.time s.floor.policy.refuseShow)

/-- Every reply list entry leaves for this reason code, head first, with its report (R57, R88). -/
def State.repliesDropped (s : State) (why : Byte) : State :=
  if s.floor.replies = [] then s
  else ((s.floor.replies.foldl (fun x e => x.notify ⟨.replyDropped, .seat e.seat, some why, [detailOf e.target]⟩) s).raise
    .reply).modFloor fun f => { f with replies := [] }

/-- These delegate slots close for this reason code, in this order (R48, R53; by slotClosed, so by notes/assumptions/36.md). -/
def State.slotsClosed (s : State) (slots : List (Fin 6 × DelegateSlot)) (why : Byte) : State :=
  slots.foldl (fun x y => x.slotClosed y.1 y.2 why) s

/-- These chair slots close for this reason code, in this order, with their reports (R61). -/
def State.chairsClosed (s : State) (chairs : List (Fin 2 × ChairSlot)) (why : Byte) : State :=
  chairs.foldl (fun x y => ((x.notify ⟨.chairClose, .seat y.2.seat, some why, [detailOf y.1]⟩).raise .floor).modFloor fun f =>
    { f with chairs := f.chairs.set y.1 none }) s

/-- A seat is removed from wherever it is found, for this reason code: its request list entry, its reply list entry, its delegate slot
with what the close does to the round, its chair slot, its held records and its held reply entries, each with its notice and flag
(R6 step 1, R23, R53, R61, R88, R117). -/
def State.seatRemoved (s : State) (n : Nat) (why : Byte) : State :=
  let s1 : State := if s.floor.requestOf n = none then s else
    (s.notify ⟨.dequeued, .seat n, some why, []⟩).modFloor fun f => { f with requests := f.requests.filter (·.seat ≠ n) }
  let s2 : State := match s1.floor.replyOf n with
    | none => s1
    | some e => ((s1.notify ⟨.replyDropped, .seat n, some why, [detailOf e.target]⟩).raise .reply).modFloor
        fun f => { f with replies := f.replies.filter (·.seat ≠ n) }
  let s3 : State := match (s2.floor.slotOf n).bind fun i => s2.floor.slots[i].map fun d => (i, d) with
    | none => s2
    | some (i, d) => s2.slotClosed i d why
  let s4 : State := match s3.floor.chairOf n with
    | none => s3
    | some j => ((s3.notify ⟨.chairClose, .seat n, some why, [detailOf j]⟩).raise .floor).modFloor
        fun f => { f with chairs := f.chairs.set j none }
  let held : List HeldSlot := s4.floor.stack.flatMap fun fr => fr.records.filter (·.seat = n)
  let heldReplies : List HeldReply := s4.floor.stack.flatMap fun fr => fr.entries.filter (·.seat = n)
  let s5 : State := held.foldl (fun x h => x.notify ⟨.released, .seat n, some why,
    [detailCode (codeIn slotKindRow h.kind), (h.remaining.map detailOf).getD 0xFFFFFFFF]⟩) s4
  let s6 : State := heldReplies.foldl (fun x e => x.notify ⟨.replyDropped, .seat n, some why, [detailOf e.target]⟩) s5
  if held = [] ∧ heldReplies = [] then s6 else (s6.raise .stack).modFloor fun f => { f with
    stack := f.stack.map fun fr => { fr with
      records := fr.records.filter (·.seat ≠ n), entries := fr.entries.filter (·.seat ≠ n) } }

/-- The end of an event that left the request list of s0 as that of x: one version for the event, and the LIST flag, where the list
differs (R22, R23; notes/assumptions/15.md). -/
def State.listTold (x s0 : State) : State :=
  if x.floor.requests = s0.floor.requests then x
  else (x.raise .list).modFloor fun f => { f with listVersion := f.listVersion + 1 }

/-- The records an intake takes: those of the four FIFOs stamped earlier than the present (R26). -/
def State.taken (s : State) : List CaptureRecord :=
  s.trunks.toList.flatMap fun e => e.fifo.filter fun r => reached s.time (r.stamp + 1)

/-- An intake is due and not held, it takes one record, the record's seat is bound where it was and present, and the record gives
one press, of this button, which belongs to the seat's class; the seat is enabled (R3, R25, R26, R30, R59). -/
structure State.OnePress (s : State) (r : CaptureRecord) (b : Button) : Prop where
  due : 0 < s.due.intake
  high : s.pins.hold = false
  hold : s.floor.hold = .released
  taken : s.taken = [r]
  bound : s.seatAt r.trunk r.position = some r.seat
  here : s.isHere r.seat = true
  press : r.counts.presses = [b]

/-- The pressing seat's class has this button and the seat is enabled (R3, R59). -/
def State.mayPress (s : State) (n : Nat) (b : Button) : Prop :=
  (∃ x, (s.seat n).binding = some x ∧ x.cls.hasButton b = true) ∧ (s.seat n).enabled = true

/-- The seat a GRANT names passes its checks 5 and 6 (R54). -/
def State.grantNames (s : State) (c : HeldCommand) (n : Nat) : Prop :=
  u8 c.payload 0 = 0 ∧ s.firstPresent.map (·.seat) = some n ∨
    u8 c.payload 0 = 1 ∧ u16 c.payload 1 = n ∧ s.hasClass n .delegate = true ∧ (s.seat n).enabled = true ∧ s.isHere n = true ∧
      (s.floorState n = .idle ∨ s.floorState n = .waiting)

/-! ### The words of the statements: the policy, the time and the status lines -/

/-- The range of each policy field in field code order, an enumerated field's by its codes (R68, 11.3). -/
def policyRanges : List (Nat × Nat) :=
  [(1, 6), (0, 1), (0, 1), (0, 6000), (0, 1), (0, 1), (1, 64), (0, 1), (0, 15), (0, 8), (0, 36000), (0, 36000), (0, 6000), (0, 1),
   (0, 50)]

/-- The policy with this value in the field of this code (R68, R69, 11.3). -/
def Policy.stored (p : Policy) (field v : Nat) : Policy :=
  match field with
  | 0 => { p with floorMax := v }
  | 1 => { p with grantMode := if v = 0 then .auto else .manual }
  | 2 => { p with fullPolicy := if v = 0 then .wait else .displace }
  | 3 => { p with minTenure := v }
  | 4 => { p with selfClose := v ≠ 0 }
  | 5 => { p with chairNext := v ≠ 0 }
  | 6 => { p with listMax := v }
  | 7 => { p with tieOrder := if v = 0 then .seat else .draw }
  | 8 => { p with grantQuota := v }
  | 9 => { p with replyMax := v }
  | 10 => { p with speakAllow := v }
  | 11 => { p with replyAllow := v }
  | 12 => { p with warnLead := v }
  | 13 => { p with expiryAction := if v = 0 then .warn else .close }
  | 14 => { p with refuseShow := v }
  | _ => p

/-- Pair j of a POLICY SET passes its checks: it names a field that no pair before it names, with a value in the field's range
(R69). -/
def policyPairOk (payload : List Byte) (j : Nat) : Prop :=
  (∀ i, i < j → u8 payload (3 * i) ≠ u8 payload (3 * j)) ∧
    ∃ r, policyRanges[u8 payload (3 * j)]? = some r ∧ r.1 ≤ u16 payload (3 * j + 1) ∧ u16 payload (3 * j + 1) ≤ r.2

/-- The floor with its relative points moved by a difference (R85). -/
def Floor.moved (f : Floor) (x : ChamberTime) : Floor :=
  { f with
    slots := f.slots.map (Option.map fun d => { d with
      grantedAt := d.grantedAt + x, deadline := d.deadline.map (· + x), warnAt := d.warnAt.map (· + x) })
    chairs := f.chairs.map (Option.map fun d => { d with openedAt := d.openedAt + x })
    stack := f.stack.map fun fr => { fr with pushedAt := fr.pushedAt + x }
    requests := f.requests.map fun e => { e with stamp := e.stamp + x }
    replies := f.replies.map fun e => { e with stamp := e.stamp + x } }

/-- An alarm fires: it is armed and chamber time has reached its target (R131). -/
def State.fires (s : State) (i : Fin 3) : Bool := s.timeBase.alarms[i].armed && reached s.time s.timeBase.alarms[i].target

/-- The alarms that fire, in ascending number (R131). -/
def State.firing (s : State) : List (Fin 3) := (List.finRange 3).filter s.fires

/-- A firing alarm has this action. -/
def State.firesAction (s : State) (a : AlarmAction) : Bool := s.firing.any fun i => s.timeBase.alarms[i].action = a

/-- The floor after the claim of FLOOR HALT, which does nothing when the phase is HALTED (R65). -/
def Floor.halted (f : Floor) : Floor :=
  if f.phase = .halted then f
  else { f with
    phase := .halted, subject := none, slots := Vector.replicate 6 none, replies := [], stack := []
    chairs := f.chairs.map (Option.map fun d => { d with mode := .mic }) }

/-- The floor the firing alarms leave: HALT_FLOOR halts it and CLOSE_LIST closes the gate (R131). -/
def State.alarmFloor (s : State) : Floor :=
  let f := if s.firesAction .haltFloor then s.floor.halted else s.floor
  { f with gate := if s.firesAction .closeList then .closed else f.gate }

/-- The reports of the firing alarms where none of them halts the floor: each one's flag and ALARM notice, and the LIST flag where
the gate closes (R24, R131). -/
def State.alarmsReported (s : State) : State :=
  let x := s.firing.foldl (fun x i => (x.raise (alarmFlag i)).notify
    ⟨.alarm, .alarm i, some (codeIn alarmActionRow s.timeBase.alarms[i].action), [s.timeBase.alarms[i].target]⟩) s
  if s.firesAction .closeList ∧ s.floor.gate = .opened then x.raise .list else x

/-- A selection's condition holds (R182). -/
def State.statHigh (s : State) : StatSelection → Prop
  | .low => False
  | .high => True
  | .floorLive => ∃ i : Fin 6, s.floor.slots[i] ≠ none
  | .listWaiting => s.floor.requests ≠ []
  | .interrupted => s.floor.phase = .interrupted
  | .halted => s.floor.phase = .halted
  | .replyRound => s.floor.phase = .replyRound
  | .overtimeAny => ∃ (i : Fin 6) (d : DelegateSlot), s.floor.slots[i] = some d ∧ d.overtime = true
  | .trunkFaultAny => ∃ i, (s.trunk i).state = .fault
  | .trefExternal => s.timeBase.source = .external
  | .beat => s.timeBase.beatPhase = 0 ∨ s.timeBase.beatPhase = 1
  | .aControl => s.ports.control = .a

/-! ### The words of the statements: the trunks -/

/-- The seat is bound on this trunk. -/
def State.boundTo (s : State) (tr : TrunkNo) (n : Nat) : Bool := (s.seat n).binding.any (·.trunk = tr)

/-- The slots of the trunk's seats are closed with reason TRUNK: delegate slots oldest first, with the round that a close begins or
ends (notes/assumptions/36.md), then chair slots in index order; the PRESENCE flag is set (R138, R154). -/
def State.trunkReleased (s : State) (tr : TrunkNo) : State :=
  (((s.slotsClosed ((s.floor.slotsByAge s.time).filter fun x => s.boundTo tr x.2.seat) 6).chairsClosed
    (s.floor.openChairs.filter fun x => s.boundTo tr x.2.seat) 6)).raise .presence

/-- The floor after the seats of a trunk have left the lists and the frames (R154, step 4). -/
def State.seatsGone (s : State) (tr : TrunkNo) (f : Floor) : Floor :=
  { f with
    requests := f.requests.filter fun e => !s.boundTo tr e.seat
    replies := f.replies.filter fun e => !s.boundTo tr e.seat
    stack := f.stack.map fun fr => { fr with
      records := fr.records.filter fun h => !s.boundTo tr h.seat
      entries := fr.entries.filter fun e => !s.boundTo tr e.seat }
    listVersion := if f.requests.any fun e => s.boundTo tr e.seat then f.listVersion + 1 else f.listVersion }

/-- The report of a trunk's new state, with the found count 0 (R135). -/
def State.trunkReported (s : State) (tr : TrunkNo) (new old : Byte) : State :=
  (s.notify ⟨.trunkState, .trunk tr, some new, [0, detailCode old]⟩).raise .trunk

/-- The plan after a transaction of a sweep or of the pending update list: the sweep ends with the transaction at position N (R143). -/
def TrunkEngine.planAfter (e : TrunkEngine) : EnginePlan :=
  match e.plan with
  | .sweeping next served => if e.found < next then .waiting else .sweeping next served
  | p => p

/-- A row that ends the transaction x with an answer fault, with what it adds to CRC_ERRORS, FORMAT_ERRORS and MISSES (R136,
R187). -/
def State.FaultRow (s : State) (tr : TrunkNo) (x : Transaction) (row : Instr) (crc format misses : Nat) : Prop :=
  row = .answerWaitExpiry tr ∧ crc = 0 ∧ format = 0 ∧ misses = 1 ∨
    ∃ bytes m, row = .answerFault tr bytes m ∧ s.answerAt tr m ≤ x.answerBy ∧
      (classifyAnswer x.position bytes = .checkFault ∧ crc = 1 ∧ format = 0 ∧ misses = 0 ∨
        classifyAnswer x.position bytes = .formatFault ∧ crc = 0 ∧ format = 1 ∧ misses = 0)

/-- What the completion of enumeration leaves, `answered` being the positions whose probe had a valid answer: their seats PRESENT and
their positions marked, every other seat of the trunk ABSENT and off the floor, no pending entry beyond N (R141). -/
structure State.Completed (s t : State) (tr : TrunkNo) (answered : Nat → Prop) : Prop where
  here : ∀ n b, 1 ≤ n → n ≤ 480 → (s.seat n).binding = some b → b.trunk = tr → answered b.position →
    (t.seat n).presence = .present ∧ ((s.trunk tr).state = .enumerating → 1 ≤ b.position → b.position ≤ 120 →
      ∃ y ∈ (t.trunk tr).pending, y.position = b.position ∧ ((s.seat n).label ≠ none → y.label = true))
  gone : ∀ n b, 1 ≤ n → n ≤ 480 → (s.seat n).binding = some b → b.trunk = tr → ¬ answered b.position →
    (t.seat n).presence = .absent ∧ (s.floor.oneSlot n → t.floorState n = .idle)
  beyond : ∀ y ∈ (t.trunk tr).pending, y.position ≤ (s.trunk tr).found

/-! ### The words of the statements: the interruption stack -/

/-- A chair slot whose seat's state is returned to a recorded one (R109, R115). -/
def Floor.chairReturned (f : Floor) (n : Nat) (recorded : ChairState) : Vector (Option ChairSlot) 2 :=
  match f.chairOf n, recorded with
  | some j, .closed => f.chairs.set j none
  | some j, .mic => f.chairs.set j (f.chairs[j].map fun d => { d with mode := .mic })
  | _, _ => f.chairs

/-- The frame of a push (R80, R105). -/
def Floor.frameOf (f : Floor) (now : ChamberTime) (src : Source) (chair : Option ChairState) : StackFrame :=
  { source := src, pushedAt := now, savedPhase := f.phase, subject := f.subject
    records := (f.slotsByAge now).map fun x =>
      { seat := x.2.seat, kind := x.2.kind, origin := x.2.origin
        remaining := x.2.deadline.map fun t => if reached now t then 0 else (t - now).toNat
        overtime := x.2.overtime, warned := x.2.overtime || x.2.warnAt.any (reached now) }
    entries := f.replies.map fun e => ⟨e.seat, e.target⟩
    chairState := chair }

/-- The floor after a push of this frame (R105, R107). -/
def Floor.pushed (f : Floor) (fr : StackFrame) : Floor :=
  { f with phase := .interrupted, subject := none, slots := Vector.replicate 6 none, replies := [], stack := fr :: f.stack }

/-- The discard of the bottom frame d of a full stack: its saved phase and subject go to the new bottom frame, its chair state to
the lowest frame of the same seat, the pushed one the highest; with no such frame the seat's chair slot is returned. The second
part is what the pushed frame is handed (R108, R109). -/
def Floor.overflowed (f : Floor) (src : Source) : Floor × Option ChairState :=
  match f.stack with
  | [a, b, c, d] =>
    let c' : StackFrame := { c with savedPhase := d.savedPhase, subject := d.subject }
    match d.source, d.chairState with
    | .seat n, some r =>
      if c.source = .seat n then ({ f with stack := [a, b, { c' with chairState := some r }] }, none)
      else if b.source = .seat n then ({ f with stack := [a, { b with chairState := some r }, c'] }, none)
      else if a.source = .seat n then ({ f with stack := [{ a with chairState := some r }, b, c'] }, none)
      else if src = .seat n then ({ f with stack := [a, b, c'] }, some r)
      else ({ f with stack := [a, b, c'], chairs := f.chairReturned n r }, none)
    | _, _ => ({ f with stack := [a, b, c'] }, none)
  | _ => (f, none)

/-- A seat found in a frame may return to the floor, its presence apart (R112, R113). -/
def State.mayReturn (s : State) (n : Nat) : Bool := s.hasClass n .delegate && (s.seat n).enabled

/-- The held records a pop restores, in their order (R112). -/
def State.restoredRecords (s : State) (fr : StackFrame) : List HeldSlot :=
  (fr.records.filter fun h => s.mayReturn h.seat && s.isHere h.seat).take s.floor.policy.floorMax

/-- The reply entries a pop returns (R113). -/
def State.returnedReplies (s : State) (fr : StackFrame) : List ReplyEntry :=
  (fr.entries.filter fun e => s.mayReturn e.seat && decide ((s.seat e.seat).presence ≠ .absent)).map
    fun e => { seat := e.seat, target := e.target, stamp := s.time }

/-- The phase and subject of a popped floor (R112, R114): OPEN stays where the seat that the returned entries name is restored, and so
is principal (notes/assumptions/36.md). -/
def State.popPhase (s : State) (fr : StackFrame) : Phase × Option Nat :=
  match fr.savedPhase, s.returnedReplies fr with
  | .openFloor, e :: _ =>
    if (s.restoredRecords fr).any (fun h => h.kind = .speak ∧ h.seat = e.target) then (.openFloor, fr.subject)
    else (.replyRound, some e.target)
  | .replyRound, [] => if (s.restoredRecords fr).any (·.kind = .reply) then (.replyRound, fr.subject) else (.openFloor, none)
  | p, _ => (p, fr.subject)

/-- The floor a pop of frame fr leaves before its fill point, on a floor without slots and replies, where the slots restored at
their deadline go into overtime and run on (R81, R112 to R115). -/
def State.popped (s : State) (fr : StackFrame) (rest : List StackFrame) : Floor :=
  { s.floor with
    stack := rest
    phase := (s.popPhase fr).1
    subject := (s.popPhase fr).2
    slots := Vector.ofFn fun j => (s.restoredRecords fr)[j]?.map fun h =>
      { Claim.restoredSlot s.time s.floor.policy.warnLead h with overtime := h.overtime || decide (h.remaining = some 0) }
    replies := s.returnedReplies fr
    chairs :=
      match fr.source, fr.chairState with
      | .seat n, some r => if s.hasClass n .president then s.floor.chairReturned n r else s.floor.chairs
      | _, _ => s.floor.chairs }

/-- What the floor statements of a pop ask of the floor: no slot open and no reply waiting, as in INTERRUPTED (R47, R87), a FLOOR_MAX
within its range (R68), remaining times of at most 2^31 ticks (FloorLaws.held), and no restored slot that would close at its deadline
(R115). -/
structure State.PopsOnto (s : State) (fr : StackFrame) : Prop where
  slots : s.floor.slots = Vector.replicate 6 none
  replies : s.floor.replies = []
  floorMax : s.floor.policy.floorMax ≤ 6
  held : ∀ h ∈ fr.records, ∀ r, h.remaining = some r → r ≤ 2 ^ 31
  expiry : s.floor.policy.expiryAction = .warn ∨ ∀ h ∈ fr.records, h.remaining = some 0 → h.overtime = true

/-! ### The laws of the floor -/

/-- Every seat the floor names, once for each place in which it is found (R15). -/
def Floor.seatsFound (f : Floor) : List Nat :=
  f.requests.map (·.seat) ++ f.replies.map (·.seat) ++ f.openSlots.map (·.2.seat) ++ f.openChairs.map (·.2.seat) ++
    f.stack.flatMap fun fr => fr.records.map (·.seat) ++ fr.entries.map (·.seat)

/-- The seats found in what delegates use: the two lists, the delegate slots and the frames. -/
def Floor.delegatesFound (f : Floor) : List Nat :=
  f.requests.map (·.seat) ++ f.replies.map (·.seat) ++ f.openSlots.map (·.2.seat) ++
    f.stack.flatMap fun fr => fr.records.map (·.seat) ++ fr.entries.map (·.seat)

/-- Every policy field lies in its range (R68). -/
structure Policy.wf (p : Policy) : Prop where
  floorMax : 1 ≤ p.floorMax ∧ p.floorMax ≤ 6
  minTenure : p.minTenure ≤ 6000
  listMax : 1 ≤ p.listMax ∧ p.listMax ≤ 64
  grantQuota : p.grantQuota ≤ 15
  replyMax : p.replyMax ≤ 8
  speakAllow : p.speakAllow ≤ 36000
  replyAllow : p.replyAllow ≤ 36000
  warnLead : p.warnLead ≤ 6000
  refuseShow : p.refuseShow ≤ 50

/-- The law of the reply entries' target: in OPEN every entry names the principal and in REPLY_ROUND the round's subject, which is
present in that phase alone; so it is in the frames, whose entries name one target (R87, R100). -/
structure Floor.TargetsLaw (f : Floor) (now : ChamberTime) : Prop where
  openFloor : f.phase = .openFloor → ∀ e ∈ f.replies, (f.principal now).map (·.2.seat) = some e.target
  round : f.phase = .replyRound → ∀ e ∈ f.replies, f.subject = some e.target
  subject : f.subject ≠ none ↔ f.phase = .replyRound
  frameSubject : ∀ fr ∈ f.stack, fr.subject ≠ none ↔ fr.savedPhase = .replyRound
  frameRound : ∀ fr ∈ f.stack, fr.savedPhase = .replyRound → ∀ e ∈ fr.entries, fr.subject = some e.target
  frameTarget : ∀ fr ∈ f.stack, ∀ e ∈ fr.entries, ∀ e' ∈ fr.entries, e.target = e'.target

/-- The law of the REPLY slots: one is open in REPLY_ROUND alone and never a second one, and so it is in the frames by the phase they
saved (R92, R105). -/
structure Floor.ReplySlotLaw (f : Floor) : Prop where
  round : ∀ x ∈ f.openSlots, x.2.kind = .reply → f.phase = .replyRound
  one : (f.openSlots.filter fun x => x.2.kind = .reply).length ≤ 1
  frameRound : ∀ fr ∈ f.stack, ∀ h ∈ fr.records, h.kind = .reply → fr.savedPhase = .replyRound
  frameOne : ∀ fr ∈ f.stack, (fr.records.filter fun h => h.kind = .reply).length ≤ 1

/-- The law of the chair slots in PRIORITY: each is a president's whom a frame names as its source (R106). A frame of a seat records
that seat's chair state, and records PRIORITY only above another frame of the same seat (R105). -/
structure State.PriorityLaw (s : State) : Prop where
  named : ∀ x ∈ s.floor.openChairs, x.2.mode = .priority →
    s.hasClass x.2.seat .president = true ∧ ∃ fr ∈ s.floor.stack, fr.source = .seat x.2.seat
  recorded : ∀ fr ∈ s.floor.stack, ∀ n, fr.source = .seat n → fr.chairState ≠ none
  above : ∀ higher fr lower, s.floor.stack = higher ++ fr :: lower → fr.chairState = some .priority →
    ∃ g ∈ lower, g.source = fr.source

/-- The laws of the floor's collections: a seat is found in one place at most (R15, R20, R86), the lists and the frames keep their
capacities (R20, R86, R100), no slot is open and no reply waits in INTERRUPTED and HALTED (R47, R87) and a frame saved in these
holds nothing (R101), a held record's remaining time is at most the 2^31 ticks that a point lying ahead can be away (R72, R80), to
which EXTEND adds only up to 36000 (R82, R84), a REPLY slot is open in REPLY_ROUND alone (R92) and a chair slot in PRIORITY has its
frame (R106), the reply entries name one target (R87), a seat found is enabled and not ABSENT (R7, 1.5) and of the class
the place asks for (R3), and the policy is in range (R68). -/
structure State.FloorLaws (s : State) : Prop where
  once : s.floor.seatsFound.Nodup
  requests : s.floor.requests.length ≤ Config.listCapacity
  replies : s.floor.replies.length ≤ Config.replyCapacity
  entries : ∀ fr ∈ s.floor.stack, fr.entries.length ≤ Config.replyCapacity
  shut : s.floor.phase = .interrupted ∨ s.floor.phase = .halted →
    s.floor.slots = Vector.replicate 6 none ∧ s.floor.replies = []
  bare : ∀ fr ∈ s.floor.stack, fr.savedPhase = .interrupted ∨ fr.savedPhase = .halted → fr.records = [] ∧ fr.entries = []
  held : ∀ fr ∈ s.floor.stack, ∀ h ∈ fr.records, ∀ r, h.remaining = some r → r ≤ 2 ^ 31
  replySlot : s.floor.ReplySlotLaw
  priority : s.PriorityLaw
  targets : s.floor.TargetsLaw s.time
  delegates : ∀ n ∈ s.floor.delegatesFound, s.mayReturn n = true ∧ (s.seat n).presence ≠ .absent
  chairs : ∀ x ∈ s.floor.openChairs, (s.hasClass x.2.seat .chair ∨ s.hasClass x.2.seat .president) ∧
    (s.seat x.2.seat).enabled = true ∧ (s.seat x.2.seat).presence ≠ .absent
  policy : s.floor.policy.wf

/-- The position map: a bound seat's position is one of 1 to 120, and each pair is bound to at most one seat (R1, R2). -/
structure State.BindingsLaw (s : State) : Prop where
  position : ∀ n b, (s.seat n).binding = some b → 1 ≤ b.position ∧ b.position ≤ 120
  onePair : ∀ n m b d, (s.seat n).binding = some b → (s.seat m).binding = some d → b.trunk = d.trunk →
    b.position = d.position → n = m

/-- The lamp of a bound seat in no slot, the refusal display apart: the last four lines of R16's table. -/
def State.listLamp (s : State) (n : Nat) : Lamp :=
  match s.floorState n with
  | .waiting => if s.firstPresent.any (·.seat = n) then .first else .wait
  | .replyWaiting => .wait
  | .held => .held
  | .idle | .live | .chairLive => .off

/-- The law of the current images: the microphone is commanded OPEN exactly when the seat, bound, occupies a delegate slot or a chair
slot, and the lamp is that of R16's table, where a delegate slot shows LIVE or WARN, and a seat whose refusal_until is present may
show REFUSED, until the pass of the present advance is taken (R16, R19). -/
structure State.ImageLaw (s : State) : Prop where
  mic : ∀ n, (s.seat n).image.micOpen = true ↔
    (s.seat n).binding ≠ none ∧ (s.floor.slotOf n ≠ none ∨ s.floor.chairOf n ≠ none)
  unbound : ∀ n, (s.seat n).binding = none → (s.seat n).image.lamp = .off
  slot : ∀ n, (s.seat n).binding ≠ none → s.floor.slotOf n ≠ none →
    (s.seat n).image.lamp = .live ∨ (s.seat n).image.lamp = .warn
  chair : ∀ n, (s.seat n).binding ≠ none → s.floor.slotOf n = none → s.floor.chairOf n ≠ none →
    (s.seat n).image.lamp = .live
  list : ∀ n, (s.seat n).binding ≠ none → s.floor.slotOf n = none → s.floor.chairOf n = none →
    (s.seat n).image.lamp = s.listLamp n ∨ (s.seat n).image.lamp = .refused ∧ (s.seat n).refusalUntil ≠ none

/-! ### Frames: what a claim leaves as it was -/

/-- What a claim does to one link's reports: it sets flags, stores notices behind those queued, and keeps the capacity, the mask
and the filter (R174, R178, R179). -/
structure LinkReport.Grown (r q : LinkReport) : Prop where
  mask : q.mask = r.mask
  filter : q.filter = r.filter
  flags : q.flags &&& r.flags = r.flags
  queue : r.queue <+: q.queue
  capacity : r.wf → q.wf

/-- What a claim does to the Report Unit: both links' reports grow and the STAT settings stay (R174, R178, R183). -/
structure ReportUnit.Grown (r q : ReportUnit) : Prop where
  linkA : r.linkA.Grown q.linkA
  linkB : r.linkB.Grown q.linkB
  stat0 : q.stat0 = r.stat0
  stat1 : q.stat1 = r.stat1

/-- The fields of a seat's record that the Floor Engine's claims write: the overtime mark, the grant count, the refusal display and
the image (R1). -/
def SeatRecord.sameButFloor (r q : SeatRecord) : Prop :=
  q = { r with overtimeMark := q.overtimeMark, grantCount := q.grantCount, refusalUntil := q.refusalUntil, image := q.image }

/-- What a claim of the Floor Engine leaves as it was: the links, the Time Base, the pins, everything of the trunks but their
pending update lists, and everything of the seats but what R1 says the Floor Engine changes. The pending update lists keep their
law, their entries and their label flags, and hold the position of every seat whose image the claim changed, where the seat is
bound and not ABSENT and the trunk takes the mark (R19, R146). -/
structure State.FloorFrame (s t : State) : Prop where
  ports : t.ports = s.ports
  timeBase : t.timeBase = s.timeBase
  pins : t.pins = s.pins
  due : t.due = s.due
  now : t.now = s.now
  freeDraws : t.freeDraws = s.freeDraws
  pending : t.pending = s.pending
  trunks : ∀ i, t.trunk i = { s.trunk i with pending := (t.trunk i).pending }
  seats : ∀ n, (s.seat n).sameButFloor (t.seat n)
  report : s.report.Grown t.report
  pendingWf : ∀ i, (s.trunk i).wf → (t.trunk i).wf
  marksKept : ∀ i, ∀ x ∈ (s.trunk i).pending, ∃ y ∈ (t.trunk i).pending, y.position = x.position ∧ (x.label = true → y.label = true)
  imageMarked : ∀ n b, (s.seat n).binding = some b → (s.seat n).presence ≠ .absent →
    (s.trunk b.trunk).takesMark b.position = true → (t.seat n).image ≠ (s.seat n).image →
    ∃ y ∈ (t.trunk b.trunk).pending, y.position = b.position

/-- What every claim leaves as it was: the links, the Time Base but for its alarm points, the pins, the timer and the queue. The
engines keep their capacities and the reports grow. -/
structure State.ClaimFrame (s t : State) : Prop where
  ports : t.ports = s.ports
  timeBase : t.timeBase = { s.timeBase with alarms := t.timeBase.alarms }
  pins : t.pins = s.pins
  due : t.due = s.due
  now : t.now = s.now
  freeDraws : t.freeDraws = s.freeDraws
  pending : t.pending = s.pending
  trunks : ∀ i, (s.trunk i).wf → (t.trunk i).wf
  report : s.report.Grown t.report

end Sys2Proof.Machine
end

