-- ==== Sys2Proof/Certificates/Slice0/Obligations.lean ====
section
/-! DEFINITION. The statements for the provers. A command's row is stated for every state in which the interpreter may take the
command and the checks of R165 pass (State.Takes); `u` is then the state the command's own claim leaves, and the reply
goes onto it (State.answer, stated by ReplyFrame). -/

open Sys2Proof Sys2Proof.Machine

/-! ### The queue, reset and pins -/

/-- The event at the front of the queue runs on the state with the queue's rest.
It rests on the model's own conventions: log 1. -/
def Obligations.StepRunsFront : Prop :=
  ∀ (i : Instr) (rest : List Instr) (s : State), s.pending = i :: rest → step s = exec i { s with pending := rest }

/-- The reset values the rules give: the Seat Table (R1), the Floor Engine (R20, R22, R24, R25, R29, R46, R47, R58, R86, R87,
R100), the policy (R68), the Time Base (R121, R123, R130, R131), the trunks (R134), the links (R159, R167, R169) and the
Report Unit (R174, R176, R178, R179, R182). -/
def Obligations.ResetState : Prop :=
  (∀ n, State.reset.seat n =
    { binding := none, enabled := true, label := none, presence := .absent, kind := none, overtimeMark := false,
      grantCount := 0, micFaultMark := false, refusalUntil := none, image := ⟨false, .off⟩ }) ∧
  (State.reset.floor.phase = .halted ∧ State.reset.floor.subject = none ∧ (∀ i : Fin 6, State.reset.floor.slots[i] = none) ∧
    (∀ i : Fin 2, State.reset.floor.chairs[i] = none) ∧ State.reset.floor.requests = [] ∧ State.reset.floor.listVersion = 0 ∧
    State.reset.floor.gate = .opened ∧ State.reset.floor.replies = [] ∧ State.reset.floor.stack = [] ∧
    State.reset.floor.hold = .released ∧ State.reset.floor.draw = 0x5D1CA7E3#32) ∧
  State.reset.floor.policy =
    { floorMax := 2, grantMode := .manual, fullPolicy := .wait, minTenure := 100, selfClose := true, chairNext := true,
      listMax := 64, tieOrder := .seat, grantQuota := 0, replyMax := 4, speakAllow := 0, replyAllow := 600, warnLead := 300,
      expiryAction := .warn, refuseShow := 15 } ∧
  (State.reset.time = 0 ∧ State.reset.timeBase.mode = .auto ∧ State.reset.timeBase.source = .internal ∧
    State.reset.timeBase.count = 0 ∧ State.reset.timeBase.lastPulse = none ∧ State.reset.timeBase.beatCount = 0 ∧
    State.reset.timeBase.beatPhase = 0 ∧ ∀ i : Fin 3, State.reset.timeBase.alarms[i] = ⟨false, 0, .none⟩) ∧
  (∀ t, (State.reset.trunk t).state = .down ∧ (State.reset.trunk t).found = 0 ∧ (State.reset.trunk t).fifo = [] ∧
    (State.reset.trunk t).pending = [] ∧ (State.reset.trunk t).waitingBeat = none ∧ (State.reset.trunk t).sweepCounter = 0 ∧
    (State.reset.trunk t).crcErrors = 0 ∧ (State.reset.trunk t).formatErrors = 0 ∧ (State.reset.trunk t).misses = 0 ∧
    (State.reset.trunk t).periodInForce = 40 ∧ (State.reset.trunk t).waitInForce = 300 ∧
    (State.reset.trunk t).periodSet = 40 ∧ (State.reset.trunk t).waitSet = 300 ∧
    ∀ p, (State.reset.trunk t).station p = ⟨false, 0, false⟩) ∧
  (∀ l, (State.reset.port l).buffer = [] ∧ (State.reset.port l).command = .idle ∧ (State.reset.port l).transmit = [] ∧
    (State.reset.port l).lastValid = 0) ∧
  (State.reset.ports.control = .a ∧ State.reset.ports.takeoverInterval = 0 ∧ State.reset.ports.takeoverOpen = false) ∧
  (∀ l, (State.reset.reportOf l).flags = EventFlag.restarted.set ∧ (State.reset.reportOf l).mask = 0xFFFF ∧
    (State.reset.reportOf l).filter = 0x1F ∧ (State.reset.reportOf l).queue = []) ∧
  State.reset.report.stat0 = ⟨.low, false⟩ ∧ State.reset.report.stat1 = ⟨.low, false⟩

/-- RSTN low gives every block its reset values, with the straps sampled, and holds the attention and status lines released and
low (R173, R176, R182); RSTN high again samples the straps and counts the internal timer from that moment (R121, R159).
It rests on the model's own conventions: log 3, log 9, log 12. -/
def Obligations.DeviceReset : Prop :=
  (∀ s : State, ∃ t : State, exec .deviceReset s = .next t ∧
    t.seats = State.reset.seats ∧ t.floor = State.reset.floor ∧ t.trunks = State.reset.trunks ∧ t.report = State.reset.report ∧
    t.ports = { State.reset.ports with baud := baudOf s.pins.baud1 s.pins.baud0 } ∧
    t.timeBase = { State.reset.timeBase with lastTick := s.now } ∧ t.pins = { s.pins with rstnLow := true } ∧
    (∀ l, t.attention l = false) ∧ ∀ x, t.statLevel x = false) ∧
  (∀ (b1 b0 : Bool) (m : Nat) (s : State), s.pins.rstnLow = true → ∃ t : State, exec (.resetRelease b1 b0 m) s = .next t ∧
    t.seats = s.seats ∧ t.floor = s.floor ∧ t.trunks = s.trunks ∧ t.report = s.report ∧
    t.ports = { s.ports with baud := baudOf b1 b0 } ∧ t.timeBase = { s.timeBase with lastTick := max s.now m } ∧
    t.pins = { s.pins with rstnLow := false, baud1 := b1, baud0 := b0 })

/-- The HOLD input, INTAKE HOLD and SEED change the HOLD level, the hold state and the draw state alone, with their answers
(R25, R29, R35). -/
def Obligations.HoldAndSeed : Prop :=
  (∀ (h : Bool) (s : State), exec (.holdInputChange h) s = .next { s with pins := { s.pins with hold := h } }) ∧
  (∀ (s : State) (l : Link) (c : HeldCommand), s.Takes l c 0x27 true 1 →
    (2 ≤ u8 c.payload 0 → exec (.intakeHold l) s = .next (s.answer l c (.of .badArg))) ∧
    ∀ h : Hold, u8 c.payload 0 = (if h = .held then 1 else 0) →
      (h = s.floor.hold → exec (.intakeHold l) s = .next (s.answer l c (.of .unchanged))) ∧
      (h ≠ s.floor.hold → exec (.intakeHold l) s =
        .next (({ s with floor := { s.floor with hold := h } } : State).answer l c (.of .done)))) ∧
  (∀ (s : State) (l : Link) (c : HeldCommand), s.Takes l c 0x28 true 4 →
    (u32 c.payload 0 = 0 → exec (.seed l) s = .next (s.answer l c (.of .range))) ∧
    (u32 c.payload 0 ≠ 0 → exec (.seed l) s =
      .next (({ s with floor := { s.floor with draw := u32 c.payload 0 } } : State).answer l c (.of .done))))

/-! ### The Time Base -/

/-- While the source is INTERNAL or QUALIFYING the internal timer's tick advances chamber time by one, modulo 2^32, at the moment
100 ms after the last tick, or now if that has passed, and one advance becomes due to every block
(R121 to R123).
It rests on the model's own conventions: log 3, log 5. -/
def Obligations.InternalTick : Prop :=
  ∀ s : State, s.pins.rstnLow = false → s.timeBase.source ≠ .external →
    exec .internalTick s = .next { s with
      now := max s.now (s.timeBase.lastTick + 100000)
      timeBase := { s.timeBase with
        chamberTime := s.timeBase.chamberTime + 1, lastTick := max s.now (s.timeBase.lastTick + 100000) }
      due := ⟨s.due.intake + 1, s.due.deadlinePass + 1, s.due.displacement + 1, s.due.refusalEnd + 1, s.due.alarmCheck + 1,
        s.due.beat + 1, s.due.silence + 1⟩ }

/-- The qualification of the reference: a pulse in INTERNAL, and the pulses in QUALIFYING with a good and a bad interval, up to the
twentieth, which ticks when 45 ms or more have passed since the last tick (R124, R126).
It rests on the model's own conventions: log 3, log 5. -/
def Obligations.TrefQualifies : Prop :=
  ∀ (m : Nat) (s : State), s.pins.rstnLow = false → s.now ≤ m →
    (s.timeBase.source = .internal → s.timeBase.mode = .internal → exec (.trefPulse m) s = .next { s with now := m }) ∧
    (s.timeBase.source = .internal → s.timeBase.mode = .auto → ∃ t : State, exec (.trefPulse m) s = .next t ∧
      t.timeBase = { s.timeBase with source := .qualifying, count := 1, lastPulse := some m } ∧ t.due = s.due ∧
      ∀ l, t.flagged l .timebase) ∧
    (s.timeBase.source = .qualifying →
      (¬ (∃ p, s.timeBase.lastPulse = some p ∧ p + 95000 ≤ m ∧ m ≤ p + 105000) → exec (.trefPulse m) s =
        .next { s with now := m, timeBase := { s.timeBase with count := 1, lastPulse := some m } }) ∧
      (∀ p, s.timeBase.lastPulse = some p → p + 95000 ≤ m → m ≤ p + 105000 →
        (s.timeBase.count < 19 → exec (.trefPulse m) s =
          .next { s with now := m, timeBase := { s.timeBase with count := s.timeBase.count + 1, lastPulse := some m } }) ∧
        (s.timeBase.count = 19 → s.timeBase.lastTick + 45000 ≤ m → ∃ t : State, exec (.trefPulse m) s = .next t ∧
          t.timeBase = { s.timeBase with
            chamberTime := s.timeBase.chamberTime + 1, source := .external, count := 20, lastTick := m, lastPulse := some m } ∧
          t.due = s.due.add ∧ ∀ l, t.flagged l .timebase) ∧
        (s.timeBase.count = 19 → m < s.timeBase.lastTick + 45000 → ∃ t : State, exec (.trefPulse m) s = .next t ∧
          t.timeBase = { s.timeBase with source := .external, count := 20, lastPulse := some m } ∧ t.due = s.due ∧
          ∀ l, t.flagged l .timebase)))

/-- In EXTERNAL a pulse 95 ms or more after the last tick ticks, an earlier one drops the source, and after 150 ms the internal
timer ticks and takes over (R125, R126).
It rests on the model's own conventions: log 3, log 4, log 5. -/
def Obligations.TrefExternal : Prop :=
  ∀ s : State, s.pins.rstnLow = false → s.timeBase.source = .external →
    (∀ m, s.now ≤ m → m ≤ s.timeBase.lastTick + 150000 →
      (s.timeBase.lastTick + 95000 ≤ m → exec (.trefPulse m) s =
        .next { s with
          now := m, timeBase := { s.timeBase with chamberTime := s.timeBase.chamberTime + 1, lastTick := m }
          due := s.due.add }) ∧
      (m < s.timeBase.lastTick + 95000 → ∃ t : State, exec (.trefPulse m) s = .next t ∧
        t.timeBase = { s.timeBase with source := .internal, count := 0 } ∧ t.due = s.due ∧ ∀ l, t.flagged l .timebase)) ∧
    (∃ t : State, exec .fallbackTick s = .next t ∧
      t.timeBase = { s.timeBase with
        chamberTime := s.timeBase.chamberTime + 1, source := .internal, count := 0
        lastTick := max s.now (s.timeBase.lastTick + 150000) } ∧
      t.due = s.due.add ∧ ∀ l, t.flagged l .timebase)

/-- The beat count of an advance: it counts to 5, and the fifth issues a beat, whose phase every RUNNING trunk is handed and no
other (R130, R145).
It rests on the model's own conventions: log 5. -/
def Obligations.BeatCount : Prop :=
  ∀ (k : Nat) (s : State), s.due.beat = k + 1 →
    (s.timeBase.beatCount ≠ 4 → exec .beat s = .next { s with
      due := { s.due with beat := k }, timeBase := { s.timeBase with beatCount := s.timeBase.beatCount + 1 } }) ∧
    (s.timeBase.beatCount = 4 → ∃ t : State, exec .beat s = .next t ∧ t.due = { s.due with beat := k } ∧
      t.timeBase = { s.timeBase with beatCount := 0, beatPhase := s.timeBase.beatPhase + 1 } ∧
      (∀ i, (s.trunk i).state = .running →
        t.trunk i = { s.trunk i with waitingBeat := some (s.timeBase.beatPhase + 1) }) ∧
      (∀ i, (s.trunk i).state ≠ .running → t.trunk i = s.trunk i) ∧
      t.floor = s.floor ∧ t.seats = s.seats ∧ t.report = s.report ∧ t.ports = s.ports)

/-- The alarm check of an advance: exactly the alarms that are armed and reached become disarmed, keeping target and action, each
with its flag on both links; CLOSE_LIST leaves the gate CLOSED and HALT_FLOOR the phase HALTED. The floor is given whole; where no
halt has an effect, the seats stay and the reports are each alarm's flag and ALARM notice, in ascending number, and the LIST flag
where the gate closes (R24, R65, R131).
It rests on the model's own conventions: log 5. -/
def Obligations.AlarmCheck : Prop :=
  ∀ (k : Nat) (s : State), s.due.alarmCheck = k + 1 → ∃ t : State, exec .alarmCheck s = .next t ∧
    t.due = { s.due with alarmCheck := k } ∧
    (∀ i : Fin 3, t.timeBase.alarms[i] =
      if s.timeBase.alarms[i].armed ∧ reached s.time s.timeBase.alarms[i].target then
        { s.timeBase.alarms[i] with armed := false }
      else s.timeBase.alarms[i]) ∧
    (∀ i : Fin 3, s.timeBase.alarms[i].armed → reached s.time s.timeBase.alarms[i].target →
      (∀ l, t.flagged l (alarmFlag i)) ∧ (s.timeBase.alarms[i].action = .closeList → t.floor.gate = .closed) ∧
      (s.timeBase.alarms[i].action = .haltFloor → t.floor.phase = .halted)) ∧
    t.floor = s.alarmFloor ∧
    (s.firesAction .haltFloor = false ∨ s.floor.phase = .halted → t.seats = s.seats ∧ t.report = s.alarmsReported.report)

/-- TIME SET: chamber time takes the value, every relative point of the floor, the seats, the trunks and the links moves by the
difference and so keeps its distance from the present, and the alarm targets stay. Each alarm that is armed and reached at the new
time fires, as in the alarm check: it is disarmed, its flag is set, its action leaves the floor given here, and n in the answer is
the number of alarms that fire. Where no halt has an effect, the images and the pending lists stay and the reports are the alarms',
the TIMEBASE flag and the TIMEBASE notice with the old and the new time (R85, R128, R131).
It rests on the model's own conventions: log 15. -/
def Obligations.TimeSet : Prop :=
  (∀ now point x : ChamberTime, reached (now + x) (point + x) = reached now point) ∧
  ∀ (s : State) (l : Link) (c : HeldCommand), s.Takes l c 0x50 true 4 →
    (u32 c.payload 0 = s.time → exec (.timeSet l) s = .next (s.answer l c (.of .unchanged (be32 s.time ++ [0])))) ∧
    (u32 c.payload 0 ≠ s.time → ∀ (v d : ChamberTime) (m : State), v = u32 c.payload 0 → d = v - s.time →
      m = { s with timeBase := { s.timeBase with chamberTime := v }, floor := s.floor.moved d } → ∃ u : State,
      exec (.timeSet l) s = .next (u.answer l c (.of .done (be32 s.time ++ [be8 m.firing.length]))) ∧
      u.timeBase = { s.timeBase with chamberTime := v, alarms := u.timeBase.alarms } ∧
      (∀ i : Fin 3, u.timeBase.alarms[i] =
        if s.timeBase.alarms[i].armed ∧ reached v s.timeBase.alarms[i].target then
          { s.timeBase.alarms[i] with armed := false }
        else s.timeBase.alarms[i]) ∧
      (∀ i : Fin 3, s.timeBase.alarms[i].armed → reached v s.timeBase.alarms[i].target → ∀ l', u.flagged l' (alarmFlag i)) ∧
      (∀ l', u.flagged l' .timebase) ∧ u.floor = m.alarmFloor ∧
      (∀ n, u.seat n = { s.seat n with
        refusalUntil := (s.seat n).refusalUntil.map (· + d), image := (u.seat n).image }) ∧
      (∀ i, u.trunk i = { s.trunk i with
        fifo := (s.trunk i).fifo.map fun r => { r with stamp := r.stamp + d }, pending := (u.trunk i).pending }) ∧
      (∀ l', u.port l' = { s.port l' with lastValid := (s.port l').lastValid + d }) ∧
      u.ports.control = s.ports.control ∧ u.ports.takeoverOpen = s.ports.takeoverOpen ∧
      u.ports.takeoverInterval = s.ports.takeoverInterval ∧ u.due = s.due ∧ u.pins = s.pins ∧ u.now = s.now ∧
      (m.firesAction .haltFloor = false ∨ s.floor.phase = .halted →
        (∀ n, (u.seat n).image = (s.seat n).image) ∧ (∀ i, (u.trunk i).pending = (s.trunk i).pending) ∧
        u.report = ((m.alarmsReported.raise .timebase).notify ⟨.timebase, .none, some 3, [s.time, v]⟩).report))

/-- TIMEBASE MODE: AUTO changes the mode alone; INTERNAL also returns the source to INTERNAL with count 0, reported when the source
changes; the last tick is kept (R127). -/
def Obligations.TimebaseMode : Prop :=
  ∀ (s : State) (l : Link) (c : HeldCommand), s.Takes l c 0x52 true 1 →
    (2 ≤ u8 c.payload 0 → exec (.timebaseMode l) s = .next (s.answer l c (.of .badArg))) ∧
    (∀ m : TimeMode, u8 c.payload 0 = (if m = .auto then 1 else 0) → m = s.timeBase.mode →
      exec (.timebaseMode l) s = .next (s.answer l c (.of .unchanged [codeIn sourceRow s.timeBase.source]))) ∧
    (u8 c.payload 0 = 1 → s.timeBase.mode = .internal → exec (.timebaseMode l) s =
      .next (({ s with timeBase := { s.timeBase with mode := .auto } } : State).answer l c
        (.of .done [codeIn sourceRow s.timeBase.source]))) ∧
    (u8 c.payload 0 = 0 → s.timeBase.mode = .auto → s.timeBase.source = .internal → exec (.timebaseMode l) s =
      .next (({ s with timeBase := { s.timeBase with mode := .internal } } : State).answer l c (.of .done [0]))) ∧
    (u8 c.payload 0 = 0 → s.timeBase.mode = .auto → s.timeBase.source ≠ .internal → ∃ u : State,
      exec (.timebaseMode l) s = .next (u.answer l c (.of .done [0])) ∧
      u.timeBase = { s.timeBase with mode := .internal, source := .internal, count := 0 } ∧
      (∀ l', u.flagged l' .timebase) ∧ u.floor = s.floor ∧ u.seats = s.seats ∧ u.trunks = s.trunks ∧ u.ports = s.ports)

/-- ALARM SET: its checks in order; a target ahead arms the alarm and does nothing else; a target already reached fires the alarm
within the command (R132). -/
def Obligations.AlarmSet : Prop :=
  ∀ (s : State) (l : Link) (c : HeldCommand), s.Takes l c 0x53 true 6 →
    (2 < u8 c.payload 0 → exec (.alarmSet l) s = .next (s.answer l c (.of .range))) ∧
    (u8 c.payload 0 ≤ 2 → 2 < u8 c.payload 5 → exec (.alarmSet l) s = .next (s.answer l c (.of .badArg))) ∧
    ∀ (i : Fin 3) (a : AlarmAction), u8 c.payload 0 = i → alarmActionRow[u8 c.payload 5]? = some a →
      (reached s.time (u32 c.payload 1) = false → exec (.alarmSet l) s =
        .next (({ s with timeBase := { s.timeBase with
          alarms := s.timeBase.alarms.set i ⟨true, u32 c.payload 1, a⟩ } } : State).answer l c (.of .done [0]))) ∧
      (reached s.time (u32 c.payload 1) = true → ∃ u : State, exec (.alarmSet l) s = .next (u.answer l c (.of .done [1])) ∧
        u.timeBase = { s.timeBase with alarms := s.timeBase.alarms.set i ⟨false, u32 c.payload 1, a⟩ } ∧
        (∀ l', u.flagged l' (alarmFlag i)) ∧ (a = .closeList → u.floor.gate = .closed) ∧
        (a = .haltFloor → u.floor.phase = .halted) ∧ (a = .none → u.floor = s.floor) ∧ s.ClaimFrame u)

/-- ALARM CLEAR from an OBSERVE link is DENIED; a number above 2 is answered RANGE and a disarmed alarm UNCHANGED; otherwise the alarm becomes
disarmed, keeping its target and action, DONE is answered and nothing else of the part changes but the answering port (R133). -/
def Obligations.AlarmClear : Prop :=
  ∀ (s : State) (l : Link) (c : HeldCommand), s.takeable l = some c → c.kind = 0x54 → c.payload.length = 1 →
    (s.hasControl l = false → exec (.alarmClear l) s = .next (s.answer l c (.of .denied))) ∧
    (s.hasControl l = true →
      (2 < u8 c.payload 0 → exec (.alarmClear l) s = .next (s.answer l c (.of .range))) ∧
      ∀ i : Fin 3, u8 c.payload 0 = i →
        (s.timeBase.alarms[i].armed = false → exec (.alarmClear l) s = .next (s.answer l c (.of .unchanged))) ∧
        (s.timeBase.alarms[i].armed = true → exec (.alarmClear l) s =
          .next (({ s with timeBase := { s.timeBase with
            alarms := s.timeBase.alarms.set i { s.timeBase.alarms[i] with armed := false } } } : State).answer l c
              (.of .done))))

/-! ### The Link Ports -/

/-- Bytes in HUNT and inside a frame: all but SYNC is discarded in HUNT, SYNC starts a frame, and a LEN in range and the bytes after
it are appended (R160).
It rests on the model's own conventions: log 3, log 4, log 6. -/
def Obligations.LinkByte : Prop :=
  ∀ (l : Link) (b : Byte) (m : Nat) (s : State), s.pins.rstnLow = false → s.now ≤ m →
    ((s.port l).buffer = [] → b ≠ 0xD7 →
      exec (.linkByte l b m) s = .next (({ s with now := m } : State).modPort l fun p => { p with lastByteAt := m })) ∧
    ((s.port l).buffer = [] → b = 0xD7 → exec (.linkByte l b m) s =
      .next (({ s with now := m } : State).modPort l fun p => { p with lastByteAt := m, buffer := [0xD7] })) ∧
    (m ≤ (s.port l).lastByteAt + 20000 →
      ((s.port l).buffer.length = 1 → 2 ≤ b.toNat → b.toNat ≤ 252 → exec (.linkByte l b m) s =
        .next (({ s with now := m } : State).modPort l fun p => { p with lastByteAt := m, buffer := p.buffer ++ [b] })) ∧
      (2 ≤ (s.port l).buffer.length → (s.port l).buffer.length + 1 ≠ u8 (s.port l).buffer 1 + 4 →
        exec (.linkByte l b m) s =
          .next (({ s with now := m } : State).modPort l fun p => { p with lastByteAt := m, buffer := p.buffer ++ [b] })))

/-- The byte that makes a frame whole: a frame whose check passes is held by an IDLE port and rejected BUSY by any other, and counts
as the link's last valid frame, closing the takeover on the CONTROL link; a frame whose check fails is rejected CHECK (R160, R161,
R163).
It rests on the model's own conventions: log 3, log 4, log 6. -/
def Obligations.FrameComplete : Prop :=
  ∀ (l : Link) (b : Byte) (m : Nat) (s : State), s.pins.rstnLow = false → s.now ≤ m →
    m ≤ (s.port l).lastByteAt + 20000 → 2 ≤ (s.port l).buffer.length →
    (s.port l).buffer.length + 1 = u8 (s.port l).buffer 1 + 4 →
    ∃ t : State, exec (.linkFrameComplete l b m) s = .next t ∧ exec (.linkByte l b m) s = .next t ∧
      (t.port l).buffer = [] ∧ (t.port l).lastByteAt = m ∧ t.port l.other = s.port l.other ∧
      t.ports.control = s.ports.control ∧ t.ports.takeoverInterval = s.ports.takeoverInterval ∧
      t.floor = s.floor ∧ t.seats = s.seats ∧ t.timeBase = s.timeBase ∧ t.trunks = s.trunks ∧ t.report = s.report ∧
      (checkPasses ((s.port l).buffer ++ [b]).tail = true →
        (t.port l).lastValid = s.time ∧ t.ports.takeoverOpen = (s.ports.takeoverOpen && !s.hasControl l) ∧
        ((s.port l).command = .idle → (t.port l).transmit = (s.port l).transmit ∧ (t.port l).command =
          .holding ⟨((s.port l).buffer ++ [b]).getD 2 0, ((s.port l).buffer ++ [b]).getD 3 0,
            (((s.port l).buffer ++ [b]).drop 4).take (u8 (s.port l).buffer 1 - 2), m⟩) ∧
        ((s.port l).command ≠ .idle → (t.port l).command = (s.port l).command ∧ (t.port l).transmit =
          if (s.port l).waitingRejects < 4 then
            (s.port l).transmit ++ [.reject (rejectFrame (((s.port l).buffer ++ [b]).getD 3 0) .busy)]
          else (s.port l).transmit)) ∧
      (checkPasses ((s.port l).buffer ++ [b]).tail = false →
        (t.port l).lastValid = (s.port l).lastValid ∧ t.ports.takeoverOpen = s.ports.takeoverOpen ∧
        (t.port l).command = (s.port l).command ∧ (t.port l).transmit =
          if (s.port l).waitingRejects < 4 then
            (s.port l).transmit ++ [.reject (rejectFrame (((s.port l).buffer ++ [b]).getD 3 0) .check)]
          else (s.port l).transmit)

/-- A LEN out of range ends the frame with REJECT LENGTH and tag 0, and more than 20 ms of silence inside a frame with REJECT
TIMEOUT and the tag received, or 0 (R160, R161).
It rests on the model's own conventions: log 3, log 4, log 6. -/
def Obligations.FrameRejects : Prop :=
  (∀ (l : Link) (b : Byte) (m : Nat) (s : State), s.pins.rstnLow = false → s.now ≤ m →
    m ≤ (s.port l).lastByteAt + 20000 → (s.port l).buffer.length = 1 → b.toNat < 2 ∨ 252 < b.toNat →
    exec (.lenReject l b m) s = .next (({ s with now := m } : State).modPort l fun p => { p with
      buffer := [], lastByteAt := m
      transmit := if p.waitingRejects < 4 then p.transmit ++ [.reject (rejectFrame 0 .length)] else p.transmit })) ∧
  (∀ (l : Link) (s : State), (s.port l).buffer ≠ [] →
    exec (.linkFrameTimeout l) s =
      .next (({ s with now := max s.now ((s.port l).lastByteAt + 20001) } : State).modPort l fun p => { p with
        buffer := []
        transmit :=
          if p.waitingRejects < 4 then p.transmit ++ [.reject (rejectFrame (p.buffer.getD 3 0) .timeout)] else p.transmit }))

/-- A reply sent whole leaves its port IDLE, and a RESTART's brings the device reset; a REJECT sent whole leaves the command state as
it was (R162, R163, R173).
It rests on the model's own conventions: log 9, log 21. -/
def Obligations.FrameSent : Prop :=
  (∀ (l : Link) (bytes : List Byte) (rest : List TxFrame) (s : State), (s.port l).transmit = .reply bytes false :: rest →
    exec (.replySent l) s = .next (s.modPort l fun p => { p with transmit := rest, command := .idle })) ∧
  (∀ (l : Link) (bytes : List Byte) (rest : List TxFrame) (s : State), (s.port l).transmit = .reply bytes true :: rest →
    ∃ t : State, exec (.replySent l) s = .next t ∧ t.seats = State.reset.seats ∧ t.floor = State.reset.floor ∧
      t.trunks = State.reset.trunks ∧ t.report = State.reset.report ∧ t.pins = s.pins ∧
      t.ports = { State.reset.ports with baud := baudOf s.pins.baud1 s.pins.baud0 } ∧
      t.timeBase = { State.reset.timeBase with lastTick := s.now }) ∧
  (∀ (l : Link) (bytes : List Byte) (rest : List TxFrame) (s : State), (s.port l).transmit = .reject bytes :: rest →
    exec (.rejectSent l) s = .next (s.modPort l fun p => { p with transmit := rest }))

/-- Answering a command hands its port one reply frame, of the command's kind plus 80h (7Fh for 7Fh), its tag, the status and the
result, with SYNC, LEN and the check; the port is REPLYING. No other state of the part changes: the other port, the authority, the
takeover fields, the baud rate and everything outside the ports stay. The model's own count of its free values rises by one (R159,
R163, R166, 11.2).
It rests on the model's own conventions: log 14 (the count of free values). -/
def Obligations.ReplyFrame : Prop :=
  ∀ (s : State) (l : Link) (c : HeldCommand) (r : Reply),
    ((s.answer l c r).port l = { s.port l with
      command := .replying
      transmit := (s.port l).transmit ++ [.reply
        (0xD7 :: withCheck (be8 (r.result.length + 3) :: (if c.kind = 0x7F then 0x7F else c.kind + 0x80) :: c.tag ::
          r.status.code :: r.result)) r.restart] }) ∧
    s.answer l c r = { s with ports := (s.answer l c r).ports, freeDraws := s.freeDraws + 1 } ∧
    (s.answer l c r).ports.baud = s.ports.baud ∧
    (s.answer l c r).port l.other = s.port l.other ∧ (s.answer l c r).ports.control = s.ports.control ∧
    (s.answer l c r).ports.takeoverOpen = s.ports.takeoverOpen ∧
    (s.answer l c r).ports.takeoverInterval = s.ports.takeoverInterval ∧ (s.answer l c r).floor = s.floor ∧
    (s.answer l c r).seats = s.seats ∧ (s.answer l c r).timeBase = s.timeBase ∧ (s.answer l c r).trunks = s.trunks ∧
    (s.answer l c r).report = s.report ∧ (s.answer l c r).pins = s.pins ∧ (s.answer l c r).due = s.due

/-- The checks before every command, in their order: a kind that names none is answered BAD_KIND, a CONTROL command of an OBSERVE
link DENIED, a length the kind does not allow BAD_LENGTH, and nothing else happens (R165).
It rests on the model's own conventions: log 7. -/
def Obligations.CommandChecks : Prop :=
  (∀ (s : State) (l : Link) (c : HeldCommand), s.takeable l = some c → c.kind ∉ commandKinds →
    exec (.unknownCommand l) s = .next (s.answer l c (.of .badKind))) ∧
  ∀ r ∈ commandRows, ∀ (s : State) (l : Link) (c : HeldCommand), s.takeable l = some c → r.takes c = true →
    (r.needsControl = true → s.hasControl l = false → exec (r.row l) s = .next (s.answer l c (.of .denied))) ∧
    ((r.needsControl = false ∨ s.hasControl l = true) → r.lengths c.payload.length = false →
      exec (r.row l) s = .next (s.answer l c (.of .badLength)))

/-- IDENTIFY answers the part, its capacities and the link's class and changes nothing (R172); RESTART answers DONE with a reply
marked for the device reset, which is made within REPLY_SENT, as FrameSent states (R173).
It rests on the model's own conventions: log 9. -/
def Obligations.IdentifyRestart : Prop :=
  (∀ (s : State) (l : Link) (c : HeldCommand), s.Takes l c 0x01 false 0 →
    exec (.identify l) s = .next (s.answer l c (.of .done
      [0x04, 0x62, 0x01, 0x01, 0xE0, 4, 120, 6, 2, 64, 8, 4, 32, if s.hasControl l then 0 else 1]))) ∧
  (∀ (s : State) (l : Link) (c : HeldCommand), s.Takes l c 0x02 true 0 →
    exec (.restart l) s = .next (s.answer l c ⟨.done, [], true⟩))

/-- AUTHORITY HAND moves CONTROL to the other link; AUTHORITY CLAIM moves it to the claiming link when the takeover is OPEN, and is
DENIED otherwise. A move sets AUTHORITY on both links and closes the takeover (R167, R168, R170). -/
def Obligations.Authority : Prop :=
  (∀ (s : State) (l : Link) (c : HeldCommand), s.Takes l c 0x03 true 0 → ∃ u : State,
    exec (.authorityHand l) s = .next (u.answer l c (.of .done [1])) ∧
    u.ports = { s.ports with control := l.other, takeoverOpen := false } ∧ (∀ l', u.flagged l' .authority) ∧
    u.floor = s.floor ∧ u.seats = s.seats ∧ u.timeBase = s.timeBase ∧ u.trunks = s.trunks) ∧
  (∀ (s : State) (l : Link) (c : HeldCommand), s.Takes l c 0x04 false 0 →
    (s.hasControl l = true → exec (.authorityClaim l) s = .next (s.answer l c (.of .unchanged [0]))) ∧
    (s.hasControl l = false → s.ports.takeoverOpen = false →
      exec (.authorityClaim l) s = .next (s.answer l c (.of .denied))) ∧
    (s.hasControl l = false → s.ports.takeoverOpen = true → ∃ u : State,
      exec (.authorityClaim l) s = .next (u.answer l c (.of .done [0])) ∧
      u.ports = { s.ports with control := l, takeoverOpen := false } ∧ (∀ l', u.flagged l' .authority) ∧
      u.floor = s.floor ∧ u.seats = s.seats ∧ u.timeBase = s.timeBase ∧ u.trunks = s.trunks))

/-- LINK CONFIG sets the takeover interval and closes the takeover (R171); the silence measure opens it exactly when an interval is
set and the CONTROL link has been silent for it (R169).
It rests on the model's own conventions: log 5. -/
def Obligations.Takeover : Prop :=
  (∀ (s : State) (l : Link) (c : HeldCommand), s.Takes l c 0x05 true 2 →
    (600 < u16 c.payload 0 → exec (.linkConfig l) s = .next (s.answer l c (.of .range))) ∧
    (u16 c.payload 0 ≤ 600 → u16 c.payload 0 = s.ports.takeoverInterval → exec (.linkConfig l) s =
      .next (s.answer l c (.of .unchanged (be16 s.ports.takeoverInterval ++ [s.classCode .a, s.classCode .b])))) ∧
    (u16 c.payload 0 ≤ 600 → u16 c.payload 0 ≠ s.ports.takeoverInterval → exec (.linkConfig l) s =
      .next (({ s with ports := { s.ports with
        takeoverInterval := u16 c.payload 0, takeoverOpen := false } } : State).answer l c
          (.of .done (be16 (u16 c.payload 0) ++ [s.classCode .a, s.classCode .b]))))) ∧
  (∀ (k : Nat) (s : State), s.due.silence = k + 1 → exec .silenceMeasure s = .next { s with
    due := { s.due with silence := k }
    ports := { s.ports with
      takeoverOpen := s.ports.takeoverOpen || (decide (s.ports.takeoverInterval ≠ 0) &&
        reached s.time (after (s.port s.ports.control).lastValid (10 * s.ports.takeoverInterval))) } })

/-! ### The Seat Table -/

/-- SEAT BIND: its checks in order; the pair the seat already holds, with the same class UNCHANGED, with another class the class
alone replaced and the image worked out again; and the binding of a seat to a pair that no seat holds, with the presence the trunk's
state gives; everything else of the seat but its image, every other seat, the floor and the reports stay, and so does what no claim
changes. The new position is marked where its trunk is RUNNING or FAULT and reaches it, with the label flag if the seat has a label,
and the position the seat leaves is marked with the label flag (R4, R5, R6, R146).
It rests on the model's own conventions: log 30. -/
def Obligations.SeatBind : Prop :=
  ∀ (s : State) (l : Link) (c : HeldCommand), s.Takes l c 0x10 true 5 →
    (u16 c.payload 0 < 1 ∨ 480 < u16 c.payload 0 ∨ 3 < u8 c.payload 2 ∨ u8 c.payload 3 < 1 ∨ 120 < u8 c.payload 3 →
      exec (.seatBind l) s = .next (s.answer l c (.of .range))) ∧
    ∀ (n : Nat) (tr : TrunkNo) (p : Nat), u16 c.payload 0 = n → 1 ≤ n → n ≤ 480 → u8 c.payload 2 = tr → u8 c.payload 3 = p →
      1 ≤ p → p ≤ 120 →
      (4 ≤ u8 c.payload 4 → exec (.seatBind l) s = .next (s.answer l c (.of .badArg))) ∧
      ∀ k : SeatClass, classRow[u8 c.payload 4]? = some k →
        ((s.seat n).binding ≠ none → s.floorState n ≠ .idle →
          exec (.seatBind l) s = .next (s.answer l c (.of .seatBusy))) ∧
        ((s.seat n).binding = none ∨ s.floorState n = .idle →
          (∀ m, s.seatAt tr p = some m → m ≠ n → exec (.seatBind l) s = .next (s.answer l c (.of .seatBusy))) ∧
          ((s.seatAt tr p = none ∨ s.seatAt tr p = some n) → (s.seat n).binding = some ⟨tr, p, k⟩ →
            exec (.seatBind l) s = .next (s.answer l c (.of .unchanged))) ∧
          (∀ k', (s.seatAt tr p = none ∨ s.seatAt tr p = some n) → (s.seat n).binding = some ⟨tr, p, k'⟩ → k' ≠ k → ∃ u : State,
            exec (.seatBind l) s = .next (u.answer l c (.of .done)) ∧
            u.seat n = { s.seat n with binding := some ⟨tr, p, k⟩, image := s.image n } ∧ (∀ m, m ≠ n → u.seat m = s.seat m) ∧
            u.floor = s.floor ∧ u.report = s.report ∧ s.ClaimFrame u ∧
            ∀ i, u.trunk i =
              if i = tr ∧ s.image n ≠ (s.seat n).image ∧ (s.seat n).presence ≠ .absent then (s.trunk i).mark p false
              else s.trunk i) ∧
          (s.seatAt tr p = none → (∀ b, (s.seat n).binding = some b → ¬ (b.trunk = tr ∧ b.position = p)) → ∃ u : State,
            exec (.seatBind l) s = .next (u.answer l c (.of .done)) ∧
            u.seat n = { s.seat n with
              binding := some ⟨tr, p, k⟩, kind := none, image := (u.seat n).image
              presence := if (s.trunk tr).state = .down then .absent else .unconfirmed } ∧
            (∀ m, m ≠ n → u.seat m = s.seat m) ∧ u.floor = s.floor ∧ u.report = s.report ∧ s.ClaimFrame u ∧
            ((s.trunk tr).state = .running ∨ (s.trunk tr).state = .fault → p ≤ (s.trunk tr).found →
              (∃ x ∈ (u.trunk tr).pending, x.position = p ∧ ((s.seat n).label ≠ none → x.label = true)) ∧
              ((s.seat n).binding = none → u.trunk tr = (s.trunk tr).mark p (s.seat n).label.isSome)) ∧
            (∀ b, (s.seat n).binding = some b → (s.trunk b.trunk).takesMark b.position = true →
              ∃ x ∈ (u.trunk b.trunk).pending, x.position = b.position ∧ x.label = true)))

/-- SEAT UNBIND: a bound seat loses its binding, station kind, presence and refusal display and its image is SHUT and OFF; it keeps
its enabled state, label, marks and grant count; a seat with at most one slot of each kind is then IDLE, no position leads to it,
and the position it held is marked with the label flag. Its request entry, reply entry, slots and held records leave, each with its
notice of reason UNBIND and its flags, with the reply round that the close of a principal's slot begins or that of the last REPLY
slot ends, one list version for the event, and the fill point or serve point that follows. Of the other seats only the overtime
mark, the grant count, the refusal display and the image may change, and what no claim changes stays (R6, R15, R23, R50, R53, R61,
R88, R91 to R94, R117, R146).
It rests on the model's own conventions: log 15 (the list version), log 36 (the principal among slots of one tick). -/
def Obligations.SeatUnbind : Prop :=
  ∀ (s : State) (l : Link) (c : HeldCommand), s.Takes l c 0x11 true 2 →
    (u16 c.payload 0 < 1 ∨ 480 < u16 c.payload 0 → exec (.seatUnbind l) s = .next (s.answer l c (.of .range))) ∧
    (1 ≤ u16 c.payload 0 → u16 c.payload 0 ≤ 480 → (s.seat (u16 c.payload 0)).binding = none →
      exec (.seatUnbind l) s = .next (s.answer l c (.of .unbound))) ∧
    (1 ≤ u16 c.payload 0 → u16 c.payload 0 ≤ 480 → (s.seat (u16 c.payload 0)).binding ≠ none → ∃ u : State,
      exec (.seatUnbind l) s = .next (u.answer l c (.of .done)) ∧
      (u.seat (u16 c.payload 0)).binding = none ∧ (u.seat (u16 c.payload 0)).kind = none ∧
      (u.seat (u16 c.payload 0)).presence = .absent ∧ (u.seat (u16 c.payload 0)).refusalUntil = none ∧
      (u.seat (u16 c.payload 0)).image = ⟨false, .off⟩ ∧
      (u.seat (u16 c.payload 0)).enabled = (s.seat (u16 c.payload 0)).enabled ∧
      (u.seat (u16 c.payload 0)).label = (s.seat (u16 c.payload 0)).label ∧
      (∀ m, m ≠ u16 c.payload 0 → (s.seat m).sameButFloor (u.seat m)) ∧ s.ClaimFrame u ∧
      (u.seat (u16 c.payload 0)).overtimeMark = (s.seat (u16 c.payload 0)).overtimeMark ∧
      (u.seat (u16 c.payload 0)).micFaultMark = (s.seat (u16 c.payload 0)).micFaultMark ∧
      (u.seat (u16 c.payload 0)).grantCount = (s.seat (u16 c.payload 0)).grantCount ∧
      (s.floor.oneSlot (u16 c.payload 0) → u.floorState (u16 c.payload 0) = .idle) ∧
      ((s.seatRemoved (u16 c.payload 0) 11).listTold s).Settles u ∧
      (∀ tr p, u.seatAt tr p ≠ some (u16 c.payload 0)) ∧
      ∀ b, (s.seat (u16 c.payload 0)).binding = some b → (s.trunk b.trunk).takesMark b.position = true →
        ∃ x ∈ (u.trunk b.trunk).pending, x.position = b.position ∧ x.label = true)

/-- SEAT ENABLE gives every seat of its range the value and keeps the enabled state of every other; of every seat's other fields
only the overtime mark, the grant count, the refusal display and the image may change; the range is checked before the value. The
seats that become disabled leave the floor in ascending number, each from wherever it is found, with notices of reason DISABLE and
the flags, one list version for the event, and the fill point or serve point that follows; such a seat, with at most one slot of
each kind, is then IDLE (R7, R15, R23, R50, R53, R61, R88, R92, R117).
It rests on the model's own conventions: log 15 (the list version), log 25 (the fill point), log 36 (the principal among slots of
one tick), log 40 (one removal whole before the next). -/
def Obligations.SeatEnable : Prop :=
  ∀ (s : State) (l : Link) (c : HeldCommand), s.Takes l c 0x12 true 4 →
    ∀ base count : Nat, u16 c.payload 0 = base → u8 c.payload 2 = count →
      (base < 1 ∨ 480 < base ∨ count < 1 ∨ 32 < count ∨ 481 < base + count →
        exec (.seatEnable l) s = .next (s.answer l c (.of .range))) ∧
      (1 ≤ base → 1 ≤ count → count ≤ 32 → base + count ≤ 481 →
        (2 ≤ u8 c.payload 3 → exec (.seatEnable l) s = .next (s.answer l c (.of .badArg))) ∧
        ∀ v : Bool, u8 c.payload 3 = (if v then 1 else 0) →
          ((∀ n, base ≤ n → n < base + count → (s.seat n).enabled = v) →
            exec (.seatEnable l) s = .next (s.answer l c (.of .unchanged))) ∧
          ((∃ n, base ≤ n ∧ n < base + count ∧ (s.seat n).enabled ≠ v) → ∃ u : State,
            exec (.seatEnable l) s = .next (u.answer l c (.of .done)) ∧
            (∀ n, base ≤ n → n < base + count → ({ s.seat n with enabled := v } : SeatRecord).sameButFloor (u.seat n)) ∧
            (∀ n, n < base ∨ base + count ≤ n → (s.seat n).sameButFloor (u.seat n)) ∧ s.ClaimFrame u ∧
            (((if v then [] else (List.range' base count).filter fun n => (s.seat n).enabled).foldl
              (fun x n => x.seatRemoved n 10) s).listTold s).Settles u ∧
            (∀ n, base ≤ n → n < base + count → v = false → (s.seat n).enabled = true → s.floor.oneSlot n →
              u.floorState n = .idle)))

/-- SEAT LABEL stores the codes of a text's first 24 bytes, or removes the label for an empty text, and answers TRUNCATED for a
longer text; an illegal byte among the 24 is answered with its place and changes nothing. The position of a bound seat that is not
ABSENT is marked with the label flag, and nothing else of the trunks changes. Marking a position: a DOWN trunk, and a RUNNING or
FAULT one whose N the position exceeds, enters nothing; a new entry goes to the tail, and an entry keeps its place and a label flag
that is set (R12, R13, R146). -/
def Obligations.SeatLabel : Prop :=
  ∀ (s : State) (l : Link) (c : HeldCommand) (k : Nat), s.Takes l c 0x13 true k → 2 ≤ k → k ≤ 250 →
    (u16 c.payload 0 < 1 ∨ 480 < u16 c.payload 0 → exec (.seatLabel l) s = .next (s.answer l c (.of .range))) ∧
    (1 ≤ u16 c.payload 0 → u16 c.payload 0 ≤ 480 →
      (∀ i b, i < 24 → (c.payload.drop 2)[i]? = some b → displayCode b = none →
        (∀ j b', j < i → (c.payload.drop 2)[j]? = some b' → displayCode b' ≠ none) →
        exec (.seatLabel l) s = .next (s.answer l c (.of .illegalChar [be8 (i + 1)]))) ∧
      ∀ codes : List Byte, ((c.payload.drop 2).take 24).map displayCode = codes.map some → ∃ u : State,
        exec (.seatLabel l) s = .next (u.answer l c (if 26 < k then .of .truncated [25] else .of .done)) ∧
        u.seat (u16 c.payload 0) =
          { s.seat (u16 c.payload 0) with label := if codes = [] then none else some codes } ∧
        (∀ m, m ≠ u16 c.payload 0 → u.seat m = s.seat m) ∧ u.floor = s.floor ∧ u.report = s.report ∧ s.ClaimFrame u ∧
        ((s.seat (u16 c.payload 0)).binding = none ∨ (s.seat (u16 c.payload 0)).presence = .absent → u.trunks = s.trunks) ∧
        ∀ b, (s.seat (u16 c.payload 0)).binding = some b → (s.seat (u16 c.payload 0)).presence ≠ .absent →
          u.trunk b.trunk = (s.trunk b.trunk).mark b.position true ∧ ∀ i, i ≠ b.trunk → u.trunk i = s.trunk i) ∧
    ∀ (e : TrunkEngine) (p : Nat) (label : Bool),
      e.mark p label = { e with pending := (e.mark p label).pending } ∧
      (e.state = .down ∨ (e.state = .running ∨ e.state = .fault) ∧ e.found < p → (e.mark p label).pending = e.pending) ∧
      (1 ≤ p → p ≤ 120 → e.state = .enumerating ∨ (e.state = .running ∨ e.state = .fault) ∧ p ≤ e.found →
        ((∀ x ∈ e.pending, x.position ≠ p) → (e.mark p label).pending = e.pending ++ [⟨p, label⟩]) ∧
        ((∃ x ∈ e.pending, x.position = p) → (e.mark p label).pending =
          e.pending.map fun x => if x.position = p then { x with label := x.label || label } else x))

/-- MARKS CLEAR from an OBSERVE link is DENIED and a range that fails the checks of a seat range is answered RANGE; otherwise every
seat of the range has both sticky marks clear and grant count 0, every other field of these seats, every other seat, every image and
everything outside the seat records stay, and DONE is answered (R11). -/
def Obligations.MarksClear : Prop :=
  ∀ (s : State) (l : Link) (c : HeldCommand), s.takeable l = some c → c.kind = 0x15 → c.payload.length = 3 →
    ∀ base count : Nat, u16 c.payload 0 = base → u8 c.payload 2 = count →
      (s.hasControl l = false → exec (.marksClear l) s = .next (s.answer l c (.of .denied))) ∧
      (s.hasControl l = true → base < 1 ∨ 480 < base ∨ count < 1 ∨ 32 < count ∨ 481 < base + count →
        exec (.marksClear l) s = .next (s.answer l c (.of .range))) ∧
      (s.hasControl l = true → 1 ≤ base → 1 ≤ count → count ≤ 32 → base + count ≤ 481 → ∃ u : State,
        exec (.marksClear l) s = .next (u.answer l c (.of .done)) ∧ u = { s with seats := u.seats } ∧
        (∀ n, base ≤ n → n < base + count →
          u.seat n = { s.seat n with overtimeMark := false, micFaultMark := false, grantCount := 0 }) ∧
        (∀ n, n < base ∨ base + count ≤ n → u.seat n = s.seat n) ∧ (∀ n, u.image n = s.image n) ∧ u.floor = s.floor ∧
        u.report = s.report ∧ u.trunks = s.trunks ∧ u.timeBase = s.timeBase ∧ u.ports = s.ports)

/-- SEAT READ, LIST READ, FLOOR READ, POLICY READ, REPLY READ, STACK READ, TIME READ and TRUNK READ: each one's failed checks and
its whole answer, and nothing else changes. SEAT READ answers RANGE exactly when the check of its range fails; otherwise the whole
records, at most 16, that fit the result, DONE with next base 0 when they are all the range's, and MORE with the seat after the last
one otherwise (R14, R43, R67, R71, R97, R120, R129, R158, R186, 11.4, 11.5).
It rests on the model's own conventions: log 14 (the bytes of an absent chamber time), log 27 (the class bits of an unbound seat),
log 33 (FLOOR READ's order of the slots), log 36 (the principal among slots of one tick), log 37 (the byte of the HOLD input's
level). -/
def Obligations.ReadCommands : Prop :=
  (∀ (s : State) (l : Link) (c : HeldCommand), s.Takes l c 0x14 false 3 →
    ∀ base count : Nat, u16 c.payload 0 = base → u8 c.payload 2 = count →
      (base < 1 ∨ 480 < base ∨ count < 1 ∨ 32 < count ∨ 481 < base + count →
        exec (.seatRead l) s = .next (s.answer l c (.of .range))) ∧
      (1 ≤ base → 1 ≤ count → count ≤ 32 → base + count ≤ 481 → ∀ records : List (List Byte),
        records = takeFitting 16 246 ((List.range' base count).map fun n => s.seatBytes s.freeDraws (n - base) n) →
        (records.length = count → exec (.seatRead l) s =
          .next (s.answer l c (.of .done (be16 0 ++ [be8 count] ++ records.flatten)))) ∧
        (records.length ≠ count → exec (.seatRead l) s =
          .next (s.answer l c (.of .more (be16 (base + records.length) ++ [be8 records.length] ++ records.flatten)))))) ∧
  (∀ (s : State) (l : Link) (c : HeldCommand), s.Takes l c 0x26 false 1 → 63 < u8 c.payload 0 →
    exec (.listRead l) s = .next (s.answer l c (.of .range))) ∧
  (∀ (s : State) (l : Link) (c : HeldCommand), s.Takes l c 0x26 false 1 → u8 c.payload 0 ≤ 63 → exec (.listRead l) s =
    .next (s.answer l c (.of (if u8 c.payload 0 + 12 < s.floor.requests.length then .more else .done)
      (be16 s.floor.listVersion.toNat ++ [be8 s.floor.requests.length, codeIn gateRow s.floor.gate,
        be8 (if u8 c.payload 0 + 12 < s.floor.requests.length then u8 c.payload 0 + 12 else 0),
        be8 (min 12 (s.floor.requests.length - u8 c.payload 0))] ++
        ((s.floor.requests.zipIdx.drop (u8 c.payload 0)).take 12).flatMap fun x => x.1.bytes x.2)))) ∧
  (∀ (s : State) (l : Link) (c : HeldCommand), s.Takes l c 0x35 false 0 → exec (.floorRead l) s =
    .next (s.answer l c (.of .done (be32 s.time ++
      [codeIn phaseRow s.floor.phase, ((s.floor.principal s.time).map fun x => be8 x.1).getD 0xFF] ++
      be16 (s.floor.subject.getD 0) ++
      [be8 s.floor.openCount] ++ (s.floor.openSlots.flatMap fun x => s.slotBytes x.1 x.2) ++
      [be8 s.floor.chairCount] ++ (s.floor.openChairs.flatMap fun x => chairBytes x.1 x.2) ++
      be16 s.floor.listVersion.toNat ++
      [be8 s.floor.requests.length, codeIn gateRow s.floor.gate, (s.firstPresentIndex.map be8).getD 0xFF,
        be8 s.floor.replies.length, be8 s.floor.stack.length, codeIn holdRow s.floor.hold, yesNo s.pins.hold] ++
      be32 s.floor.draw)))) ∧
  (∀ (s : State) (l : Link) (c : HeldCommand), s.Takes l c 0x37 false 0 → exec (.policyRead l) s =
    .next (s.answer l c (.of .done (policyRow.zipIdx.flatMap fun x => be8 x.2 :: be16 (s.floor.policy.value x.1))))) ∧
  (∀ (s : State) (l : Link) (c : HeldCommand), s.Takes l c 0x40 false 0 → exec (.replyRead l) s =
    .next (s.answer l c (.of .done ([codeIn phaseRow s.floor.phase] ++ be16 (s.floor.subject.getD 0) ++
      be16 ((s.floor.replies.head?.map (·.target)).getD 0) ++ be16 ((s.floor.replySlot.map (·.2.seat)).getD 0) ++
      [(s.floor.replySlot.map fun x => be8 x.1).getD 0xFF, be8 s.floor.policy.replyMax, be8 s.floor.replies.length] ++
      s.floor.replies.zipIdx.flatMap fun x => x.1.bytes x.2)))) ∧
  (∀ (s : State) (l : Link) (c : HeldCommand), s.Takes l c 0x4A false 1 →
    (3 < u8 c.payload 0 → exec (.stackRead l) s = .next (s.answer l c (.of .range))) ∧
    (u8 c.payload 0 ≤ 3 → s.floor.stack.length ≤ u8 c.payload 0 →
      exec (.stackRead l) s = .next (s.answer l c (.of .notFound [be8 s.floor.stack.length]))) ∧
    (∀ fr, u8 c.payload 0 ≤ 3 → s.floor.stack[u8 c.payload 0]? = some fr → exec (.stackRead l) s =
      .next (s.answer l c (.of .done (be8 s.floor.stack.length :: fr.bytes))))) ∧
  (∀ (s : State) (l : Link) (c : HeldCommand), s.Takes l c 0x51 false 0 → exec (.timeRead l) s =
    .next (s.answer l c (.of .done (be32 s.time ++
      [codeIn timeModeRow s.timeBase.mode, codeIn sourceRow s.timeBase.source, be8 s.timeBase.count,
        s.timeBase.beatPhase.setWidth 8] ++
      s.timeBase.alarms.toList.flatMap fun a => [yesNo a.armed] ++ be32 a.target ++ [codeIn alarmActionRow a.action])))) ∧
  (∀ (s : State) (l : Link) (c : HeldCommand), s.Takes l c 0x62 false 1 →
    (3 < u8 c.payload 0 → exec (.trunkRead l) s = .next (s.answer l c (.of .range))) ∧
    ∀ tr : TrunkNo, u8 c.payload 0 = tr → exec (.trunkRead l) s = .next (s.answer l c (.of .done
      ([codeIn trunkStateRow (s.trunk tr).state, be8 (s.trunk tr).found] ++ be16 (s.trunk tr).sweepCounter.toNat ++
        be16 (s.trunk tr).periodInForce ++ be16 (s.trunk tr).periodSet ++ be16 (s.trunk tr).waitInForce ++
        be16 (s.trunk tr).waitSet ++ be16 (s.trunk tr).crcErrors ++ be16 (s.trunk tr).formatErrors ++
        be16 (s.trunk tr).misses ++
        [be8 (s.trunk tr).fifo.length, be8 (s.trunk tr).pending.length, be8 (s.trunk tr).answering]))))

/-! ### The request list -/

/-- LIST INSERT: its checks in order, RANGE for the seat, BAD_ARG for the place, RANGE for an INDEX beyond the length and for an
override of 36001 to 65534, then UNBOUND, CLASS, DISABLED, ABSENT_SEAT, SEAT_BUSY and FULL, each of which changes nothing. A bound,
enabled, IDLE DELEGATE seat that is not ABSENT enters a list with room at the index its place names: DONE, and where the fill point
grants nothing the entry stands there, the version is one higher and the QUEUED notice and the LIST flag tell it (R36, R37).
It rests on the model's own conventions: log 15. -/
def Obligations.ListInsert : Prop :=
  ∀ (s : State) (l : Link) (c : HeldCommand), s.Takes l c 0x20 true 6 →
    (u16 c.payload 0 < 1 ∨ 480 < u16 c.payload 0 → exec (.listInsert l) s = .next (s.answer l c (.of .range))) ∧
    (1 ≤ u16 c.payload 0 → u16 c.payload 0 ≤ 480 →
      (3 ≤ u8 c.payload 2 → exec (.listInsert l) s = .next (s.answer l c (.of .badArg))) ∧
      (u8 c.payload 2 = 2 → s.floor.requests.length < u8 c.payload 3 →
        exec (.listInsert l) s = .next (s.answer l c (.of .range))) ∧
      (u8 c.payload 2 < 2 ∨ u8 c.payload 2 = 2 ∧ u8 c.payload 3 ≤ s.floor.requests.length →
        36000 < u16 c.payload 4 → u16 c.payload 4 ≠ 0xFFFF → exec (.listInsert l) s = .next (s.answer l c (.of .range)))) ∧
    ∀ (n : Nat) (place : Place) (i : Nat) (a : Option Nat), u16 c.payload 0 = n → 1 ≤ n → n ≤ 480 →
      placeRow[u8 c.payload 2]? = some place → placeIndex place (u8 c.payload 3) s.floor.requests.length = some i →
      (u16 c.payload 4 = 0xFFFF ∧ a = none ∨ u16 c.payload 4 ≤ 36000 ∧ a = some (u16 c.payload 4)) →
      ((s.seat n).binding = none → exec (.listInsert l) s = .next (s.answer l c (.of .unbound))) ∧
      ((s.seat n).binding ≠ none → s.hasClass n .delegate = false →
        exec (.listInsert l) s = .next (s.answer l c (.of .cls))) ∧
      (s.hasClass n .delegate = true →
        ((s.seat n).enabled = false → exec (.listInsert l) s = .next (s.answer l c (.of .disabled))) ∧
        ((s.seat n).enabled = true → (s.seat n).presence = .absent →
          exec (.listInsert l) s = .next (s.answer l c (.of .absentSeat))) ∧
        ((s.seat n).enabled = true → (s.seat n).presence ≠ .absent →
          (s.floorState n ≠ .idle → exec (.listInsert l) s = .next (s.answer l c (.of .seatBusy))) ∧
          (s.floorState n = .idle → 64 ≤ s.floor.requests.length →
            exec (.listInsert l) s = .next (s.answer l c (.of .full))) ∧
          (s.floorState n = .idle → s.floor.requests.length < 64 → ∃ u : State,
            exec (.listInsert l) s = .next (u.answer l c (.of .done
              ([be8 i] ++ be16 u.floor.listVersion.toNat ++ [be8 u.floor.requests.length]))) ∧
            (s.noFill →
              u.floor = { s.floor with
                requests := s.floor.requests.insertIdx i ⟨n, .host, s.time, a⟩, listVersion := s.floor.listVersion + 1 } ∧
              u.report = ((s.notify ⟨.queued, .seat n, some 1, [detailOf i]⟩).raise .list).report))))

/-- LIST REMOVE takes the seat's entry out and LIST CLEAR every entry, with DEQUEUED notices, the version one higher and nothing else
of the floor changed; no entry to remove changes nothing (R38, R40).
It rests on the model's own conventions: log 15. -/
def Obligations.ListRemoveClear : Prop :=
  (∀ (s : State) (l : Link) (c : HeldCommand), s.Takes l c 0x21 true 2 →
    (u16 c.payload 0 < 1 ∨ 480 < u16 c.payload 0 → exec (.listRemove l) s = .next (s.answer l c (.of .range))) ∧
    (1 ≤ u16 c.payload 0 → u16 c.payload 0 ≤ 480 →
      ((∀ e ∈ s.floor.requests, e.seat ≠ u16 c.payload 0) →
        exec (.listRemove l) s = .next (s.answer l c (.of .notFound))) ∧
      ((∃ e ∈ s.floor.requests, e.seat = u16 c.payload 0) → ∃ u : State,
        exec (.listRemove l) s = .next (u.answer l c (.of .done
          (be16 u.floor.listVersion.toNat ++ [be8 u.floor.requests.length]))) ∧
        u.floor = { s.floor with
          requests := s.floor.requests.filter (·.seat ≠ u16 c.payload 0), listVersion := s.floor.listVersion + 1 } ∧
        u.report = ((s.notify ⟨.dequeued, .seat (u16 c.payload 0), some 2, []⟩).raise .list).report))) ∧
  (∀ (s : State) (l : Link) (c : HeldCommand), s.Takes l c 0x23 true 0 →
    (s.floor.requests = [] → exec (.listClear l) s = .next (s.answer l c (.of .unchanged [0]))) ∧
    (s.floor.requests ≠ [] → ∃ u : State,
      exec (.listClear l) s = .next (u.answer l c (.of .done [be8 s.floor.requests.length])) ∧
      u.floor = { s.floor with requests := [], listVersion := s.floor.listVersion + 1 } ∧
      u.report = ((s.floor.requests.foldl (fun x e => x.notify ⟨.dequeued, .seat e.seat, some 9, []⟩) s).raise .list).report))

/-- LIST MOVE: its checks in order, RANGE for the seat, BAD_ARG for the place, NOT_FOUND for a seat with no entry and RANGE for an
INDEX beyond the length without the entry; otherwise it puts the seat's entry back at the index its place names in the list without
it. LIST SHUFFLE puts the list into the order that the draw generator draws from the list's own order, stepping the generator once
for each entry but one; where the fill point grants nothing that is all that changes of the floor but the version. A step of the
generator shifts left by 13, right by 17 and left by 5, each time into an exclusive or. The drawn order of any list is what the
exchanges leave: for i from the last place down to 1, step the generator and exchange place i with place (value mod (i + 1)). It is
the order of LIST SHUFFLE and of the draw of an intake (R28, R29, R39, R41).
It rests on the model's own conventions: log 15. -/
def Obligations.ListMoveShuffle : Prop :=
  (∀ (s : State) (l : Link) (c : HeldCommand), s.Takes l c 0x22 true 4 →
    (u16 c.payload 0 < 1 ∨ 480 < u16 c.payload 0 → exec (.listMove l) s = .next (s.answer l c (.of .range))) ∧
    ∀ n : Nat, u16 c.payload 0 = n → 1 ≤ n → n ≤ 480 →
      (3 ≤ u8 c.payload 2 → exec (.listMove l) s = .next (s.answer l c (.of .badArg))) ∧
      (u8 c.payload 2 < 3 → s.floor.requestOf n = none → exec (.listMove l) s = .next (s.answer l c (.of .notFound))) ∧
      (u8 c.payload 2 = 2 → s.floor.requestOf n ≠ none →
        (s.floor.requests.filter (·.seat ≠ n)).length < u8 c.payload 3 →
        exec (.listMove l) s = .next (s.answer l c (.of .range)))) ∧
  (∀ (s : State) (l : Link) (c : HeldCommand), s.Takes l c 0x22 true 4 →
    ∀ (n : Nat) (place : Place) (e : RequestEntry) (i : Nat), u16 c.payload 0 = n → 1 ≤ n → n ≤ 480 →
      placeRow[u8 c.payload 2]? = some place → s.floor.requestOf n = some e →
      placeIndex place (u8 c.payload 3) (s.floor.requests.filter (·.seat ≠ n)).length = some i →
      ((s.floor.requests.filter (·.seat ≠ n)).insertIdx i e = s.floor.requests → exec (.listMove l) s =
        .next (s.answer l c (.of .unchanged ([be8 i] ++ be16 s.floor.listVersion.toNat)))) ∧
      ((s.floor.requests.filter (·.seat ≠ n)).insertIdx i e ≠ s.floor.requests → ∃ u : State,
        exec (.listMove l) s = .next (u.answer l c (.of .done ([be8 i] ++ be16 u.floor.listVersion.toNat))) ∧
        (s.noFill →
          u.floor = { s.floor with
            requests := (s.floor.requests.filter (·.seat ≠ n)).insertIdx i e, listVersion := s.floor.listVersion + 1 } ∧
          u.report = (s.raise .list).report))) ∧
  (∀ (s : State) (l : Link) (c : HeldCommand), s.Takes l c 0x24 true 0 →
    (s.floor.requests.length < 2 → exec (.listShuffle l) s =
      .next (s.answer l c (.of .unchanged (be16 s.floor.listVersion.toNat ++ be32 s.floor.draw)))) ∧
    (2 ≤ s.floor.requests.length → ∃ u : State,
      exec (.listShuffle l) s = .next (u.answer l c (.of .done (be16 u.floor.listVersion.toNat ++ be32 u.floor.draw))) ∧
      u.floor.draw = Nat.repeat drawStep (s.floor.requests.length - 1) s.floor.draw ∧
      (s.noFill → u.floor.requests.Perm s.floor.requests ∧
        u.floor.requests = (drawOrder s.floor.draw s.floor.requests).1 ∧
        u.floor = { s.floor with
          requests := u.floor.requests, draw := u.floor.draw
          listVersion := if u.floor.requests = s.floor.requests then s.floor.listVersion else s.floor.listVersion + 1 }))) ∧
  (∀ w a b : Word, a = w ^^^ (w <<< 13) → b = a ^^^ (a >>> 17) → drawStep w = b ^^^ (b <<< 5)) ∧
  ∀ (α : Type) (items : List α) (w : Word) (order : Nat → List α), order 0 = items →
    (∀ m, m + 1 < items.length → ∀ i j, i = items.length - 1 - m → j = (Nat.repeat drawStep (m + 1) w).toNat % (i + 1) →
      (order (m + 1))[i]? = (order m)[j]? ∧ (order (m + 1))[j]? = (order m)[i]? ∧
        ∀ q, q ≠ i → q ≠ j → (order (m + 1))[q]? = (order m)[q]?) →
    drawOrder w items = (order (items.length - 1), Nat.repeat drawStep (items.length - 1) w)

/-- LIST GATE: a value that is neither is answered BAD_ARG and the present gate UNCHANGED; otherwise the gate takes the value, the
LIST flag is set on both links, DONE is answered, and no notice, no list version, no STAT setting and nothing else changes (R42). -/
def Obligations.ListGate : Prop :=
  ∀ (s : State) (l : Link) (c : HeldCommand), s.Takes l c 0x25 true 1 →
    (2 ≤ u8 c.payload 0 → exec (.listGate l) s = .next (s.answer l c (.of .badArg))) ∧
    ∀ g : Gate, u8 c.payload 0 = (if g = .closed then 1 else 0) →
      (g = s.floor.gate → exec (.listGate l) s = .next (s.answer l c (.of .unchanged))) ∧
      (g ≠ s.floor.gate → ∃ u : State, exec (.listGate l) s = .next (u.answer l c (.of .done)) ∧
        u = { s with floor := { s.floor with gate := g }, report := u.report } ∧ u.report.stat0 = s.report.stat0 ∧
        u.report.stat1 = s.report.stat1 ∧ ∀ l', u.reportOf l' = { s.reportOf l' with flags := (s.reportOf l').flags ||| EventFlag.list.set })

/-! ### The floor -/

/-- FLOOR OPEN opens a HALTED floor, with nothing else of the floor changed when grants are MANUAL; it is UNCHANGED in OPEN and
REPLY_ROUND and answered PHASE in INTERRUPTED. Under AUTO its fill, with no replies waiting, leaves no present entry beside a free
place, and on a floor without open slots, under WAIT, it grants the present entries in list order, one to each place from 0 up,
until FLOOR_MAX slots are open (R49, R50, R64). -/
def Obligations.FloorOpen : Prop :=
  ∀ (s : State) (l : Link) (c : HeldCommand), s.Takes l c 0x30 true 0 →
    (s.floor.phase = .openFloor ∨ s.floor.phase = .replyRound →
      exec (.floorOpen l) s = .next (s.answer l c (.of .unchanged [0]))) ∧
    (s.floor.phase = .interrupted → exec (.floorOpen l) s = .next (s.answer l c (.of .phase))) ∧
    (s.floor.phase = .halted → ∃ u : State, exec (.floorOpen l) s = .next (u.answer l c (.of .done [be8 u.floor.openCount])) ∧
      (∀ l', u.flagged l' .floor) ∧
      (s.floor.policy.grantMode = .manual → u.floor = { s.floor with phase := .openFloor } ∧
        u.report = ((s.notify ⟨.phase, .none, some 0, [3]⟩).raise .floor).report) ∧
      (s.floor.policy.grantMode = .auto → s.floor.policy.floorMax ≤ 6 →
        (s.floor.replies = [] → u.floor.openCount < s.floor.policy.floorMax → u.firstPresent = none) ∧
        ∀ here : List RequestEntry, here = s.floor.requests.filter (fun e => s.isHere e.seat) →
          s.floor.policy.fullPolicy = .wait → s.floor.slots = Vector.replicate 6 none →
          (s.floor.requests.map (·.seat)).Nodup → u.floor = { s.floor with
            phase := .openFloor
            slots := Vector.ofFn fun j => if j.val < s.floor.policy.floorMax then
                here[j]?.map fun e => slotNow s.time s.floor.policy.warnLead e.seat .speak .auto
                  (e.allowance.getD s.floor.policy.speakAllow)
              else none
            requests := s.floor.requests.filter fun e => e ∉ here.take s.floor.policy.floorMax
            listVersion := if here = [] ∨ s.floor.policy.floorMax = 0 then s.floor.listVersion else s.floor.listVersion + 1 }))

/-- FLOOR HALT frees every delegate slot, empties the reply list and the stack, ends the round and leaves the phase HALTED; the request
list, its version, the gate, the policy, the hold and the draw state stay (R65). FLOOR CLEAR also frees the chair slots and empties
the request list (R66).
It rests on the model's own conventions: log 15. -/
def Obligations.FloorHaltClear : Prop :=
  (∀ (s : State) (l : Link) (c : HeldCommand), s.Takes l c 0x31 true 0 →
    (s.floor.phase = .halted → exec (.floorHalt l) s = .next (s.answer l c (.of .unchanged [0, 0]))) ∧
    (s.floor.phase ≠ .halted → ∃ u : State,
      exec (.floorHalt l) s = .next (u.answer l c (.of .done [be8 s.floor.openCount, be8 s.floor.stack.length])) ∧
      u.floor = { s.floor with
        phase := .halted, subject := none, slots := Vector.replicate 6 none, replies := [], stack := []
        chairs := s.floor.chairs.map (Option.map fun d => { d with mode := .mic }) } ∧
      ∀ l', u.flagged l' .floor)) ∧
  (∀ (s : State) (l : Link) (c : HeldCommand), s.Takes l c 0x32 true 0 →
    (s.floor.phase = .halted → (∀ i : Fin 2, s.floor.chairs[i] = none) → s.floor.requests = [] →
      exec (.floorClear l) s = .next (s.answer l c (.of .unchanged [0, 0, 0]))) ∧
    (¬ (s.floor.phase = .halted ∧ (∀ i : Fin 2, s.floor.chairs[i] = none) ∧ s.floor.requests = []) → ∃ u : State,
      exec (.floorClear l) s = .next (u.answer l c (.of .done
        [be8 s.floor.openCount, be8 s.floor.chairCount, be8 s.floor.requests.length])) ∧
      u.floor = { s.floor with
        phase := .halted, subject := none, slots := Vector.replicate 6 none, chairs := Vector.replicate 2 none, replies := []
        stack := [], requests := []
        listVersion := if s.floor.requests = [] then s.floor.listVersion else s.floor.listVersion + 1 }))

/-- A GRANT on an open floor with a place below FLOOR_MAX, with EVICT or without it, opens a SPEAK slot of origin HOST in the free
place of lowest index, with its allowance, deadline and warn point, takes the seat's entry off the list and counts the grant;
nothing else of the floor changes. GRANT's refusals, each where the checks before it pass: BAD_ARG, RANGE, PHASE, EMPTY, UNBOUND,
CLASS, DISABLED, ABSENT_SEAT, SEAT_BUSY and FULL. With EVICT on a floor just full the oldest SPEAK slot closes with reason EVICT and
the seat is granted the free place of lowest index. A NEXT press alone in an intake: refused POLICY, PHASE, FLOOR_FULL or EMPTY, or
the first present entry is granted with origin CHAIR (R47, R49, R54, R55, R63, R73, R74).
It rests on the model's own conventions: log 7, log 15, log 28, log 36 (whether the EVICT close, as the principal's, begins the
reply round). -/
def Obligations.GrantOpensSlot : Prop :=
  (∀ (s : State) (l : Link) (c : HeldCommand), s.Takes l c 0x33 true 6 →
    ∀ (row : Instr) (n : Nat) (i : Fin 6) (a : Nat), 1 ≤ n → n ≤ 480 →
      (row = .grantNext l ∧ u8 c.payload 0 = 0 ∧ s.firstPresent.map (·.seat) = some n ∨
        row = .grantSeat l ∧ u8 c.payload 0 = 1 ∧ u16 c.payload 1 = n ∧ s.hasClass n .delegate = true ∧
          (s.seat n).enabled = true ∧ s.isHere n = true ∧ (s.floorState n = .idle ∨ s.floorState n = .waiting)) →
      s.floor.phase = .openFloor → s.floor.openCount < s.floor.policy.floorMax → s.floor.freeSlot = some i →
      ((c.payload.getD 3 0).getLsbD 1 = false ∧
          a = (((s.floor.requestOf n).bind (·.allowance)).getD s.floor.policy.speakAllow) ∨
        (c.payload.getD 3 0).getLsbD 1 = true ∧ u16 c.payload 4 ≤ 36000 ∧ a = u16 c.payload 4) →
      ∃ u : State, exec row s = .next (u.answer l c (.of .done (u.grantResult n))) ∧
        u.floor = { s.floor with
          requests := s.floor.requests.filter (·.seat ≠ n)
          listVersion := if s.floor.requestOf n = none then s.floor.listVersion else s.floor.listVersion + 1
          slots := s.floor.slots.set i (some
            { seat := n, kind := .speak, origin := .host, grantedAt := s.time, allowance := a
              deadline := if a = 0 then none else some (after s.time a)
              warnAt :=
                if a = 0 ∨ s.floor.policy.warnLead = 0 then none
                else if s.floor.policy.warnLead < a then some (after s.time (a - s.floor.policy.warnLead))
                else some s.time
              overtime := false }) } ∧
        (u.seat n).grantCount = min 15 ((s.seat n).grantCount + 1) ∧ ∀ l', u.flagged l' .floor) ∧
  (∀ (s : State) (l : Link) (c : HeldCommand), s.Takes l c 0x33 true 6 →
    ∀ row : Instr, row = .grantNext l ∧ u8 c.payload 0 ≠ 1 ∨ row = .grantSeat l ∧ u8 c.payload 0 ≠ 0 →
      (1 < u8 c.payload 0 → exec row s = .next (s.answer l c (.of .badArg))) ∧
      (u8 c.payload 0 = 1 → u16 c.payload 1 < 1 ∨ 480 < u16 c.payload 1 →
        exec row s = .next (s.answer l c (.of .range))) ∧
      (u8 c.payload 0 = 0 ∨ u8 c.payload 0 = 1 ∧ 1 ≤ u16 c.payload 1 ∧ u16 c.payload 1 ≤ 480 →
        ((c.payload.getD 3 0).getLsbD 1 = true → 36000 < u16 c.payload 4 →
          exec row s = .next (s.answer l c (.of .range))) ∧
        ((c.payload.getD 3 0).getLsbD 1 = false ∨ u16 c.payload 4 ≤ 36000 →
          (s.floor.phase ≠ .openFloor → exec row s = .next (s.answer l c (.of .phase))) ∧
          (s.floor.phase = .openFloor →
            (u8 c.payload 0 = 0 → s.firstPresent = none → exec row s = .next (s.answer l c (.of .empty))) ∧
            (u8 c.payload 0 = 1 → ∀ n, u16 c.payload 1 = n →
              ((s.seat n).binding = none → exec row s = .next (s.answer l c (.of .unbound))) ∧
              ((s.seat n).binding ≠ none → s.hasClass n .delegate = false →
                exec row s = .next (s.answer l c (.of .cls))) ∧
              (s.hasClass n .delegate = true →
                ((s.seat n).enabled = false → exec row s = .next (s.answer l c (.of .disabled))) ∧
                ((s.seat n).enabled = true →
                  (s.isHere n = false → exec row s = .next (s.answer l c (.of .absentSeat))) ∧
                  (s.isHere n = true → s.floorState n ≠ .idle → s.floorState n ≠ .waiting →
                    exec row s = .next (s.answer l c (.of .seatBusy)))))) ∧
            ((∃ n, s.grantNames c n) →
              ((c.payload.getD 3 0).getLsbD 0 = false → s.floor.policy.floorMax ≤ s.floor.openCount →
                exec row s = .next (s.answer l c (.of .full))) ∧
              ((c.payload.getD 3 0).getLsbD 0 = true → s.floor.policy.floorMax < s.floor.openCount ∨
                  s.floor.openCount = s.floor.policy.floorMax ∧ s.floor.oldestSpeak s.time = none →
                exec row s = .next (s.answer l c (.of .full))) ∧
              (∀ (n : Nat) (i j : Fin 6) (d : DelegateSlot) (a : Nat), s.grantNames c n →
                (c.payload.getD 3 0).getLsbD 0 = true → s.floor.openCount = s.floor.policy.floorMax →
                s.floor.oldestSpeak s.time = some (i, d) → (s.slotClosed i d 4).floor.freeSlot = some j →
                a = (if (c.payload.getD 3 0).getLsbD 1 then u16 c.payload 4
                  else ((s.floor.requestOf n).bind (·.allowance)).getD s.floor.policy.speakAllow) → ∃ u : State,
                exec row s = .next (u.answer l c (.of .done (u.grantResult n))) ∧
                u.floor = ((s.slotClosed i d 4).speakGranted j n .host a).floor ∧
                u.report = ((s.slotClosed i d 4).speakGranted j n .host a).report ∧
                (u.seat n).grantCount = min 15 ((s.seat n).grantCount + 1))))))) ∧
  (∀ (s : State) (r : CaptureRecord), s.OnePress r .next → s.mayPress r.seat .next → ∃ t : State, exec .intake s = .next t ∧
    (s.floor.policy.chairNext = false → s.Refuses t r.seat .next .policy) ∧
    (s.floor.policy.chairNext = true →
      (s.floor.phase ≠ .openFloor → s.Refuses t r.seat .next .phase) ∧
      (s.floor.phase = .openFloor →
        (s.floor.policy.floorMax ≤ s.floor.openCount → s.Refuses t r.seat .next .floorFull) ∧
        (s.floor.openCount < s.floor.policy.floorMax →
          (s.firstPresent = none → s.Refuses t r.seat .next .empty) ∧
          ∀ (e : RequestEntry) (j : Fin 6), s.firstPresent = some e → s.floor.freeSlot = some j →
            (s.speakGranted j e.seat .chair (((s.floor.requestOf e.seat).bind (·.allowance)).getD s.floor.policy.speakAllow)).Settles t ∧
            (t.seat e.seat).grantCount = min 15 ((s.seat e.seat).grantCount + 1)))))

/-- CLOSE: a selector that is neither SEAT nor ALL is BAD_ARG and CLOSE SEAT outside 1 to 480 RANGE. CLOSE SEAT and CLOSE ALL on an
open floor with no replies waiting and MANUAL grants free the slots they name and change nothing else of the floor; a chair slot in
MIC closes, one in PRIORITY is answered PHASE, and a seat with no slot NOT_FOUND. CLOSE ALL finds nothing in INTERRUPTED and HALTED;
in OPEN it closes every slot, oldest first, and with entries waiting the principal's close begins the round; in REPLY_ROUND it
empties the reply list first, with reason HOST. A CUT press alone in an intake closes the principal in OPEN and the REPLY slot in
REPLY_ROUND, with the round and the fill point that follow, is refused NO_TARGET where there is none, and PHASE in INTERRUPTED and
HALTED (R53, R56, R57, R62).
It rests on the model's own conventions: log 7, log 28, log 36. -/
def Obligations.CloseCommands : Prop :=
  (∀ (s : State) (l : Link) (c : HeldCommand), s.Takes l c 0x34 true 3 →
    (∀ row : Instr, row = .closeSeat l ∨ row = .closeAll l → 1 < u8 c.payload 0 →
      exec row s = .next (s.answer l c (.of .badArg))) ∧
    (u8 c.payload 0 = 0 → u16 c.payload 1 < 1 ∨ 480 < u16 c.payload 1 →
      exec (.closeSeat l) s = .next (s.answer l c (.of .range)))) ∧
  (∀ (s : State) (l : Link) (c : HeldCommand), s.Takes l c 0x34 true 3 → u8 c.payload 0 = 0 →
    ∀ n : Nat, u16 c.payload 1 = n → 1 ≤ n → n ≤ 480 →
      (s.floor.slotOf n = none → s.floor.chairOf n = none →
        exec (.closeSeat l) s = .next (s.answer l c (.of .notFound))) ∧
      (∀ (j : Fin 2) (d : ChairSlot), s.floor.slotOf n = none → s.floor.chairOf n = some j → s.floor.chairs[j] = some d →
        (d.mode = .priority → exec (.closeSeat l) s = .next (s.answer l c (.of .phase))) ∧
        (d.mode = .mic → ∃ u : State, exec (.closeSeat l) s = .next (u.answer l c (.of .done [0])) ∧
          u.floor = { s.floor with chairs := s.floor.chairs.set j none } ∧
          u.report = ((s.notify ⟨.chairClose, .seat n, some 2, [detailOf j]⟩).raise .floor).report)) ∧
      (∀ (i : Fin 6) (d : DelegateSlot), s.floor.slotOf n = some i → s.floor.slots[i] = some d → ∃ u : State,
        exec (.closeSeat l) s = .next (u.answer l c (.of .done [1])) ∧
        (s.floor.phase = .openFloor → s.floor.replies = [] → s.floor.policy.grantMode = .manual →
          u.floor = { s.floor with slots := s.floor.slots.set i none } ∧
          u.report = ((s.notify
            ⟨.released, .seat n, some 2, [detailOf i, detailOf (s.time - d.grantedAt).toNat]⟩).raise .floor).report))) ∧
  (∀ (s : State) (l : Link) (c : HeldCommand), s.Takes l c 0x34 true 3 → u8 c.payload 0 = 1 →
    (s.floor.phase = .interrupted ∨ s.floor.phase = .halted →
      exec (.closeAll l) s = .next (s.answer l c (.of .unchanged [0]))) ∧
    (s.floor.phase = .openFloor → s.floor.replies = [] →
      (s.floor.openCount = 0 → exec (.closeAll l) s = .next (s.answer l c (.of .unchanged [0]))) ∧
      (s.floor.openCount ≠ 0 → ∃ u : State,
        exec (.closeAll l) s = .next (u.answer l c (.of .done [be8 s.floor.openCount])) ∧
        (s.floor.policy.grantMode = .manual → u.floor = { s.floor with slots := Vector.replicate 6 none }))) ∧
    (s.floor.phase = .openFloor ∨ s.floor.phase = .replyRound →
      (s.floor.openCount = 0 → s.floor.replies = [] → exec (.closeAll l) s = .next (s.answer l c (.of .unchanged [0]))) ∧
      (s.floor.openCount ≠ 0 ∨ s.floor.replies ≠ [] → ∃ u : State,
        exec (.closeAll l) s = .next (u.answer l c (.of .done [be8 s.floor.openCount])) ∧
        ((if s.floor.phase = .replyRound then s.repliesDropped 2 else s).slotsClosed (s.floor.slotsByAge s.time) 2).Settles
          u))) ∧
  (∀ (s : State) (r : CaptureRecord), s.OnePress r .cut → s.mayPress r.seat .cut → ∃ t : State, exec .intake s = .next t ∧
    (s.floor.phase = .openFloor →
      (s.floor.principal s.time = none → s.Refuses t r.seat .cut .noTarget) ∧
      ∀ i d, s.floor.principal s.time = some (i, d) → (s.slotClosed i d 1).Settles t) ∧
    (s.floor.phase = .replyRound →
      (s.floor.replySlot = none → s.Refuses t r.seat .cut .noTarget) ∧
      ∀ i d, s.floor.replySlot = some (i, d) → (s.slotClosed i d 1).Settles t) ∧
    (s.floor.phase = .interrupted ∨ s.floor.phase = .halted → s.Refuses t r.seat .cut .phase))

/-- POLICY SET: its pairs are checked in order and the first failure is answered and changes nothing: BAD_ARG for a field that is
unknown or that an earlier pair names, RANGE for a value outside the field's range. When all pass, each value is stored in its own
field, with the FLOOR flag, and the fill point follows; a store that changes no value is UNCHANGED (R68, R69). -/
def Obligations.PolicySet : Prop :=
  ∀ (s : State) (l : Link) (c : HeldCommand) (k : Nat), s.Takes l c 0x36 true k → 3 ≤ k → k ≤ 45 → k % 3 = 0 →
    (∀ e, s.floor.policy.setPairs [] (policyPairs c.payload) = .error e →
      exec (.policySet l) s = .next (s.answer l c (.of e))) ∧
    (∀ q, s.floor.policy.setPairs [] (policyPairs c.payload) = .ok q →
      (q = s.floor.policy → exec (.policySet l) s = .next (s.answer l c (.of .unchanged))) ∧
      (q ≠ s.floor.policy → ∃ u : State, exec (.policySet l) s = .next (u.answer l c (.of .done)) ∧ u.floor.policy = q ∧
        (∀ l', u.flagged l' .floor) ∧
        (s.floor.phase ≠ .replyRound → (s.floor.phase = .openFloor → q.grantMode = .manual) →
          u.floor = { s.floor with policy := q } ∧ u.report = (s.raise .floor).report))) ∧
    (∀ j, 3 * j < k → (∀ i, i < j → policyPairOk c.payload i) →
      (15 ≤ u8 c.payload (3 * j) ∨ (∃ i, i < j ∧ u8 c.payload (3 * i) = u8 c.payload (3 * j)) →
        exec (.policySet l) s = .next (s.answer l c (.of .badArg))) ∧
      ∀ r, (∀ i, i < j → u8 c.payload (3 * i) ≠ u8 c.payload (3 * j)) → policyRanges[u8 c.payload (3 * j)]? = some r →
        u16 c.payload (3 * j + 1) < r.1 ∨ r.2 < u16 c.payload (3 * j + 1) →
        exec (.policySet l) s = .next (s.answer l c (.of .range))) ∧
    ((∀ j, 3 * j < k → policyPairOk c.payload j) → ∀ q, q = (List.range (k / 3)).foldl (fun p j =>
        p.stored (u8 c.payload (3 * j)) (u16 c.payload (3 * j + 1))) s.floor.policy →
      (q = s.floor.policy → exec (.policySet l) s = .next (s.answer l c (.of .unchanged))) ∧
      (q ≠ s.floor.policy → ∃ u : State, exec (.policySet l) s = .next (u.answer l c (.of .done)) ∧ u.floor.policy = q ∧
        ((s.raise .floor).modFloor fun f => { f with policy := q }).Settles u))

/-- EXTEND adds its ticks to the deadline and the warn point of an open limited slot, clearing an overtime that the new deadline
leaves behind, and to the remaining time of a held record, whose flags clear, and answers the new limit; every other record and
frame stays. An unlimited limit and one that would pass 36000 ticks are UNCHANGED, answered with the limit as it stands, and a seat
in neither is NOT_FOUND (R82 to R84, 11.4).
It rests on the model's own conventions: log 14 (the bytes of an absent chamber time). -/
def Obligations.Extend : Prop :=
  ∀ (s : State) (l : Link) (c : HeldCommand), s.Takes l c 0x38 true 4 →
    (u16 c.payload 0 < 1 ∨ 480 < u16 c.payload 0 ∨ u16 c.payload 2 < 1 ∨ 36000 < u16 c.payload 2 →
      exec (.extend l) s = .next (s.answer l c (.of .range))) ∧
    ∀ n k : Nat, u16 c.payload 0 = n → u16 c.payload 2 = k → 1 ≤ n → n ≤ 480 → 1 ≤ k → k ≤ 36000 →
      (∀ (i : Fin 6) (d : DelegateSlot), s.floor.slotOf n = some i → s.floor.slots[i] = some d →
        (d.deadline = none → ∃ a : ChamberTime,
          exec (.extend l) s = .next (s.answer l c (.of .unchanged ([0] ++ be32 a ++ be16 0xFFFF)))) ∧
        (∀ t, d.deadline = some t → 36000 < ticksLeft s.time (after t k) → exec (.extend l) s =
          .next (s.answer l c (.of .unchanged ([1] ++ be32 t ++ be16 (ticksLeft s.time t))))) ∧
        (∀ t, d.deadline = some t → ticksLeft s.time (after t k) ≤ 36000 → ∃ u : State,
          exec (.extend l) s = .next (u.answer l c (.of .done
            ([1] ++ be32 (after t k) ++ be16 (ticksLeft s.time (after t k))))) ∧
          u.floor = { s.floor with slots := s.floor.slots.set i (some { d with
            deadline := some (after t k), warnAt := d.warnAt.map (after · k)
            overtime := d.overtime && reached s.time (after t k) }) } ∧
          u.report = (s.raise .floor).report)) ∧
      (s.floor.slotOf n = none →
        (s.floor.heldOf n = none → exec (.extend l) s = .next (s.answer l c (.of .notFound))) ∧
        (∀ h : HeldSlot, s.floor.heldOf n = some h →
          (h.remaining = none → ∃ a : ChamberTime,
            exec (.extend l) s = .next (s.answer l c (.of .unchanged ([0] ++ be32 a ++ be16 0xFFFF)))) ∧
          (∀ r, h.remaining = some r → 36000 < r + k → ∃ a : ChamberTime,
            exec (.extend l) s = .next (s.answer l c (.of .unchanged ([0] ++ be32 a ++ be16 r)))) ∧
          (∀ r, h.remaining = some r → r + k ≤ 36000 → ∃ (u : State) (a : ChamberTime),
            exec (.extend l) s = .next (u.answer l c (.of .done ([0] ++ be32 a ++ be16 (r + k)))) ∧
            u.floor.heldOf n = some { h with remaining := some (r + k), overtime := false, warned := false } ∧
            u.floor = { s.floor with stack := s.floor.stack.map fun fr => { fr with records := fr.records.map fun x =>
              if x.seat = n then { x with remaining := x.remaining.map (· + k), overtime := false, warned := false } else x } } ∧
            u = { s with floor := u.floor, report := u.report } ∧ u.report = (s.raise .floor).report)))

/-- REPLY REMOVE takes the seat's entry off the reply list, with its REPLY_DROPPED notice, and REPLY END every entry; each sets
REPLY; in OPEN that is all that changes of the floor. The reply round: a close of the principal with entries waiting begins it (R53,
R91), as CLOSE SEAT shows; at its serve point one REPLY slot is granted to the first present entry while no REPLY slot is open and a
place is free (R92); the close of the REPLY slot with none waiting, and a serve point that finds none, end it, and the floor is OPEN
again (R93, R94). A RPL press alone in an intake: cancels its entry, is refused SEAT_BUSY, HELD, PHASE, NO_TARGET or REPLY_FULL, or
joins with the principal as target (R89, R98, R99).
It rests on the model's own conventions: log 7, log 28, log 36. -/
def Obligations.ReplyCommands : Prop :=
  (∀ (s : State) (l : Link) (c : HeldCommand), s.Takes l c 0x41 true 2 →
    (u16 c.payload 0 < 1 ∨ 480 < u16 c.payload 0 → exec (.replyRemove l) s = .next (s.answer l c (.of .range))) ∧
    (1 ≤ u16 c.payload 0 → u16 c.payload 0 ≤ 480 → s.floor.replyOf (u16 c.payload 0) = none →
      exec (.replyRemove l) s = .next (s.answer l c (.of .notFound))) ∧
    (∀ e : ReplyEntry, 1 ≤ u16 c.payload 0 → u16 c.payload 0 ≤ 480 → s.floor.replyOf (u16 c.payload 0) = some e → ∃ u : State,
      exec (.replyRemove l) s = .next (u.answer l c (.of .done [be8 u.floor.replies.length])) ∧
      (∀ l', u.flagged l' .reply) ∧
      (s.floor.phase = .openFloor →
        u.floor = { s.floor with replies := s.floor.replies.filter (·.seat ≠ u16 c.payload 0) } ∧
        u.report = ((s.notify
          ⟨.replyDropped, .seat (u16 c.payload 0), some 2, [detailOf e.target]⟩).raise .reply).report))) ∧
  (∀ (s : State) (l : Link) (c : HeldCommand), s.Takes l c 0x42 true 0 →
    (s.floor.replies = [] → exec (.replyEnd l) s = .next (s.answer l c (.of .unchanged [0]))) ∧
    (s.floor.replies ≠ [] → ∃ u : State,
      exec (.replyEnd l) s = .next (u.answer l c (.of .done [be8 s.floor.replies.length])) ∧
      (∀ l', u.flagged l' .reply) ∧ (s.floor.phase = .openFloor → u.floor = { s.floor with replies := [] }) ∧
      ((((s.floor.replies.foldl (fun x e => x.notify ⟨.replyDropped, .seat e.seat, some 2, [detailOf e.target]⟩) s).raise
        .reply).modFloor fun f => { f with replies := [] }).roundSettles u))) ∧
  (∀ (s : State) (l : Link) (c : HeldCommand) (e : ReplyEntry), s.Takes l c 0x41 true 2 → 1 ≤ u16 c.payload 0 →
    u16 c.payload 0 ≤ 480 → s.floor.replyOf (u16 c.payload 0) = some e → ∃ u : State,
      exec (.replyRemove l) s = .next (u.answer l c (.of .done [be8 u.floor.replies.length])) ∧
      (((s.notify ⟨.replyDropped, .seat (u16 c.payload 0), some 2, [detailOf e.target]⟩).raise .reply).modFloor fun f =>
        { f with replies := f.replies.filter (·.seat ≠ u16 c.payload 0) }).roundSettles u) ∧
  (∀ (s : State) (l : Link) (c : HeldCommand), s.Takes l c 0x34 true 3 → u8 c.payload 0 = 0 →
    ∀ (n : Nat) (i : Fin 6) (d : DelegateSlot), u16 c.payload 1 = n → 1 ≤ n → n ≤ 480 → s.floor.slotOf n = some i →
      s.floor.slots[i] = some d → ∃ u : State, exec (.closeSeat l) s = .next (u.answer l c (.of .done [1])) ∧
        (s.slotClosed i d 2).Settles u) ∧
  (∀ (s : State) (r : CaptureRecord), s.OnePress r .rpl → s.mayPress r.seat .rpl → ∃ t : State, exec .intake s = .next t ∧
    (∀ e, s.floorState r.seat = .replyWaiting → s.floor.replyOf r.seat = some e →
      (((s.notify ⟨.replyDropped, .seat r.seat, some 13, [detailOf e.target]⟩).raise .reply).modFloor fun f =>
        { f with replies := f.replies.filter (·.seat ≠ r.seat) }).Settles t) ∧
    (s.floorState r.seat = .waiting ∨ s.floorState r.seat = .live → s.Refuses t r.seat .rpl .seatBusy) ∧
    (s.floorState r.seat = .held → s.Refuses t r.seat .rpl .held) ∧
    (s.floorState r.seat = .idle →
      (s.floor.phase ≠ .openFloor → s.Refuses t r.seat .rpl .phase) ∧
      (s.floor.phase = .openFloor →
        (s.floor.principal s.time = none → s.Refuses t r.seat .rpl .noTarget) ∧
        ∀ i d, s.floor.principal s.time = some (i, d) →
          (s.floor.policy.replyMax ≤ s.floor.replies.length → s.Refuses t r.seat .rpl .replyFull) ∧
          (s.floor.replies.length < s.floor.policy.replyMax →
            (((s.notify ⟨.replyQueued, .seat r.seat, none, [detailOf d.seat, detailOf s.floor.replies.length]⟩).raise
              .reply).modFloor fun f => { f with replies := f.replies ++ [⟨r.seat, d.seat, r.stamp⟩] }).Settles t))))

/-! ### The interruption stack -/

/-- SUSPEND pushes a frame of the link that holds the open slots oldest first, the reply entries, the phase and the subject, and
leaves the floor INTERRUPTED with none of them. On a full stack the bottom frame is discarded first: its saved phase and subject go
to the new bottom frame and its chair state to the lowest frame of the same seat, the pushed one the highest, or else the seat's
chair slot returns to it; in INTERRUPTED the reports of a discarded link frame are given whole. A PRIO press alone in an intake of a
seat that is not the top frame's source pushes the same way, with the seat's chair slot in PRIORITY: its own slot, else a free
place, else the place of a MIC slot, the older of two; it is refused CHAIR_BUSY where both places are in PRIORITY (R80, R102 to
R109).
It rests on the model's own conventions: log 28. -/
def Obligations.Suspend : Prop :=
  (∀ (s : State) (l : Link) (c : HeldCommand), s.Takes l c 0x48 true 0 →
    (s.floor.stack.length < 4 → ∃ u : State,
      exec (.suspend l) s = .next (u.answer l c (.of .done [be8 (s.floor.stack.length + 1), 0])) ∧
      u.floor = { s.floor with
        phase := .interrupted, subject := none, slots := Vector.replicate 6 none, replies := []
        stack :=
          { source := .link l, pushedAt := s.time, savedPhase := s.floor.phase, subject := s.floor.subject
            records := (s.floor.slotsByAge s.time).map fun x =>
              { seat := x.2.seat, kind := x.2.kind, origin := x.2.origin
                remaining := x.2.deadline.map fun t => if reached s.time t then 0 else (t - s.time).toNat
                overtime := x.2.overtime, warned := x.2.overtime || x.2.warnAt.any (reached s.time) }
            entries := s.floor.replies.map fun e => ⟨e.seat, e.target⟩
            chairState := none } :: s.floor.stack } ∧
      ∀ l', u.flagged l' .interrupt) ∧
    (s.floor.stack.length = 4 → ∃ u : State, exec (.suspend l) s = .next (u.answer l c (.of .done [4, 1])) ∧
      u.floor.stack.length = 4 ∧ u.floor.phase = .interrupted ∧ u.floor.requests = s.floor.requests ∧
      (∀ l', u.flagged l' .interrupt ∧ u.flagged l' .stack) ∧
      u.floor = ((s.floor.overflowed (.link l)).1).pushed (s.floor.frameOf s.time (.link l) none) ∧
      ∀ d l', s.floor.stack.getLast? = some d → d.source = .link l' → s.floor.phase = .interrupted → s.floor.replies = [] →
        u.report = (((((s.notify ⟨.frameDiscarded, .link l', some 8, [detailOf d.records.length, detailOf d.entries.length]⟩).raise
          .stack).notify ⟨.interrupt, .link l, some 4, [detailOf s.floor.openCount, 0]⟩)).raise .interrupt).report)) ∧
  (∀ (s : State) (r : CaptureRecord), s.OnePress r .prio → s.mayPress r.seat .prio → s.floor.stack.length ≤ 4 →
    (∀ fr rest, s.floor.stack = fr :: rest → fr.source ≠ .seat r.seat) → ∃ t : State, exec .intake s = .next t ∧
      (s.floor.chairOf r.seat = none → (∀ j : Fin 2, s.floor.chairs[j].any (·.mode = .priority) = true) →
        s.Refuses t r.seat .prio .chairBusy) ∧
      (s.floor.chairOf r.seat ≠ none ∨ (∃ k : Fin 2, s.floor.chairs[k].any (·.mode = .priority) = false) →
        t.floor.phase = .interrupted ∧ ∀ l', t.flagged l' .interrupt) ∧
      ∀ (f : Floor) (handed : Option ChairState), s.floor.overflowed (.seat r.seat) = (f, handed) →
        (∀ (j : Fin 2) (x : ChairSlot), f.chairOf r.seat = some j → f.chairs[j] = some x →
          t.floor = { f.pushed (s.floor.frameOf s.time (.seat r.seat) (some (handed.getD x.mode))) with
            chairs := f.chairs.set j (some { x with mode := .priority }) }) ∧
        (f.chairOf r.seat = none → (∃ k : Fin 2, s.floor.chairs[k].any (·.mode = .priority) = false) →
          (∀ j : Fin 2, f.freeChair = some j →
            t.floor = { f.pushed (s.floor.frameOf s.time (.seat r.seat) (some (handed.getD .closed))) with
              chairs := f.chairs.set j (some ⟨r.seat, s.time, .priority⟩) }) ∧
          (∀ (j k : Fin 2) (x y : ChairSlot), j ≠ k → f.chairs[j] = some x → f.chairs[k] = some y → x.mode = .mic →
            y.mode = .priority ∨ y.mode = .mic ∧ ((s.time - y.openedAt).toNat < (s.time - x.openedAt).toNat ∨
              (s.time - y.openedAt).toNat = (s.time - x.openedAt).toNat ∧ j < k) →
            t.floor = { f.pushed (s.floor.frameOf s.time (.seat r.seat) (some (handed.getD .closed))) with
              chairs := f.chairs.set j (some ⟨r.seat, s.time, .priority⟩) })))

/-- RESUME removes the top frame, whatever its source, and answers the new depth, the phase and the numbers of held records restored
and lost, which together are the frame's; on an empty stack it is answered NOT_INTERRUPTED. On a floor without slots and replies,
where every remaining time is one that a push can give (StepKeepsStack) and no restored slot closes at its deadline, the records
restored are those of enabled, present DELEGATE seats up to FLOOR_MAX, in their order, to the places from 0 up, with the remaining
time; the reply entries of enabled DELEGATE seats that are not ABSENT return; the phase and subject are reconciled, and the source's
chair slot returns to its recorded state. A PRIO press of the top frame's source pops the same way (R81, R102, R111 to R116).
It rests on the model's own conventions: log 28, log 36 (the principal to which the returned entries are held), log 38 (a recorded
PRIORITY whose slot is in MIC). -/
def Obligations.Resume : Prop :=
  (∀ (s : State) (l : Link) (c : HeldCommand), s.Takes l c 0x49 true 0 →
    (s.floor.stack = [] → exec (.resume l) s = .next (s.answer l c (.of .notInterrupted))) ∧
    ∀ fr rest, s.floor.stack = fr :: rest → ∃ (u : State) (restored lost : Nat),
      exec (.resume l) s = .next (u.answer l c (.of .done
        [be8 rest.length, codeIn phaseRow u.floor.phase, be8 restored, be8 lost])) ∧
      restored + lost = fr.records.length ∧ u.floor.stack = rest ∧ (∀ l', u.flagged l' .interrupt) ∧
      (s.PopsOnto fr → restored = (s.restoredRecords fr).length ∧ (s.popped fr rest).settlesFloor s u)) ∧
  (∀ (s : State) (r : CaptureRecord) (fr : StackFrame) (rest : List StackFrame), s.OnePress r .prio → s.mayPress r.seat .prio →
    s.floor.stack = fr :: rest → fr.source = .seat r.seat → s.PopsOnto fr → ∃ t : State, exec .intake s = .next t ∧
      (s.popped fr rest).settlesFloor s t ∧ ∀ l', t.flagged l' .interrupt)

/-! ### The floor's frame, and the events of an advance -/

/-- The frame of the floor's commands and of the deadline pass, the displacement check and the refusal end: each leaves the links
but for its reply, the Time Base, the pins, everything of the trunks but their pending update lists and everything of the seats but
their overtime marks, grant counts, refusal displays and images; the mask, the filter and the stored notices of both links stay, and
no flag is taken away. The pending update lists keep their law, their entries and their label flags, and take the position of every
seat whose image changed, where the seat is bound and not ABSENT and the trunk takes the mark. The image of a seat, by the table of
R16; and every step keeps, with the laws of the floor, the law of the images: the microphone is commanded OPEN exactly when the
bound seat occupies a delegate slot or a chair slot, and the lamp is the table's (R1, R16, R18, R19, R146). -/
def Obligations.FloorFrame : Prop :=
  (∀ row ∈ floorRows, ∀ (s : State) (l : Link), ∃ u : State, s.FloorFrame u ∧
    (exec (row l) s = .next u ∨ ∃ c r, exec (row l) s = .next (u.answer l c r))) ∧
  (∀ s t : State, exec .deadlinePass s = .next t ∨ exec .displacementCheck s = .next t ∨ exec .refusalEnd s = .next t →
    State.FloorFrame { s with due := t.due } t) ∧
  (∀ (s : State) (n : Nat), ((s.seat n).binding = none → s.image n = ⟨false, .off⟩) ∧
    ((s.seat n).binding ≠ none →
      (∀ (i : Fin 6) (d : DelegateSlot), s.floor.slotOf n = some i → s.floor.slots[i] = some d → s.image n =
        ⟨true, if d.overtime = true ∨ d.warnAt.any (reached s.time) = true then .warn else .live⟩) ∧
      (s.floor.slotOf n = none →
        (s.floor.chairOf n ≠ none → s.image n = ⟨true, .live⟩) ∧
        (s.floor.chairOf n = none →
          (∀ t, (s.seat n).refusalUntil = some t → reached s.time t = false → s.image n = ⟨false, .refused⟩) ∧
          ((∀ t, (s.seat n).refusalUntil = some t → reached s.time t = true) → s.image n = ⟨false, s.listLamp n⟩))))) ∧
  ∀ s t : State, s.floor.stackWf → s.FloorLaws → s.BindingsLaw → s.ImageLaw → step s = .next t → t.ImageLaw

/-- The intake: held, it changes no floor and no FIFO; not held, it takes from every FIFO exactly the records stamped earlier than
the present and keeps the others in their order (R25, R26). A record whose pair leads to another seat or none, or whose seat is not
here, is dropped with a STRAY notice (R2, R26). The buttons of a class (R3) and the presses of a record (R30). An intake of one
record that gives one press: a button of another class is refused CLASS and a disabled seat's press DISABLED, with the REFUSED
notice and the refusal display (R3, R18, R59); REQ cancels an entry, closes the seat's own slot or is refused NOT_SELF_CLOSE, is
refused SEAT_BUSY, HELD, LIST_CLOSED, QUOTA or LIST_FULL, or joins at the tail (R32, R33); MIC opens the free place of lower index,
closes the seat's own slot, or is refused CHAIR_BUSY or PHASE (R60). The batch's order: oldest stamp first, equal stamps by seat or
by the draw, a seat's own records as stored (R27, R28); a batch of REQ joins appends its entries in that order (R31). CUT is in
CloseCommands, NEXT in GrantOpensSlot, RPL in ReplyCommands, PRIO in Suspend and Resume.
It rests on the model's own conventions: log 5, log 15, log 17, log 28, log 36 (whether the close of a REQ press, as the
principal's, begins the reply round). -/
def Obligations.Intake : Prop :=
  (∀ (k : Nat) (s : State), s.due.intake = k + 1 →
    (s.pins.hold = true ∨ s.floor.hold = .held → exec .intake s = .next { s with due := { s.due with intake := k } }) ∧
    (s.pins.hold = false → s.floor.hold = .released → ∃ t : State, exec .intake s = .next t ∧ t.due = { s.due with intake := k } ∧
      (∀ i, (t.trunk i).fifo = (s.trunk i).fifo.filter fun r => !reached s.time (r.stamp + 1)) ∧
      t.timeBase = s.timeBase ∧ t.ports = s.ports)) ∧
  (∀ (s : State) (r : CaptureRecord), 0 < s.due.intake → s.pins.hold = false → s.floor.hold = .released → s.taken = [r] →
    (s.seatAt r.trunk r.position ≠ some r.seat → ∃ t : State, exec .intake s = .next t ∧ t.floor = s.floor ∧ t.seats = s.seats ∧
      t.report = (s.notify ⟨.stray, .trunk r.trunk, none, [detailOf r.position, detailOf r.seat]⟩).report) ∧
    (s.seatAt r.trunk r.position = some r.seat → s.isHere r.seat = false → ∃ t : State, exec .intake s = .next t ∧
      t.floor = s.floor ∧ t.seats = s.seats ∧
      t.report = (s.notify ⟨.stray, .seat r.seat, some (codeIn presenceRow (s.seat r.seat).presence), []⟩).report)) ∧
  ((∀ (k : SeatClass) (b : Button), k.hasButton b = true ↔
      (k, b) ∈ [(.delegate, .req), (.delegate, .rpl), (.chair, .mic), (.chair, .next), (.chair, .cut), (.president, .mic),
        (.president, .next), (.president, .cut), (.president, .prio)]) ∧
    (∀ req rpl : BitVec 4, (PressCounts.delegate req rpl).presses =
      (if req.toNat % 2 = 1 then [.req] else []) ++ (if rpl.toNat % 2 = 1 then [.rpl] else [])) ∧
    ∀ mic next cut prio : BitVec 4, (PressCounts.chair mic next cut prio).presses =
      (if mic.toNat % 2 = 1 then [.mic] else []) ++ (if 1 ≤ cut.toNat then [.cut] else []) ++
        (if 1 ≤ next.toNat then [.next] else []) ++ (if prio.toNat % 2 = 1 then [.prio] else [])) ∧
  (∀ (s : State) (r : CaptureRecord) (b : Button) (x : Binding), s.OnePress r b → (s.seat r.seat).binding = some x →
    (x.cls.hasButton b = false → ∃ t : State, exec .intake s = .next t ∧ s.Refuses t r.seat b .cls) ∧
    (x.cls.hasButton b = true → (s.seat r.seat).enabled = false →
      ∃ t : State, exec .intake s = .next t ∧ s.Refuses t r.seat b .disabled)) ∧
  (∀ (s : State) (r : CaptureRecord), s.OnePress r .req → s.mayPress r.seat .req → ∃ t : State, exec .intake s = .next t ∧
    (s.floorState r.seat = .waiting →
      (((s.notify ⟨.dequeued, .seat r.seat, some 13, []⟩).raise .list).modFloor fun f => { f with
        requests := f.requests.filter (·.seat ≠ r.seat), listVersion := f.listVersion + 1 }).Settles t) ∧
    (s.floorState r.seat = .live →
      (s.floor.policy.selfClose = false → s.Refuses t r.seat .req .notSelfClose) ∧
      ∀ i d, s.floor.policy.selfClose = true → s.floor.slotOf r.seat = some i → s.floor.slots[i] = some d →
        (s.slotClosed i d 0).Settles t) ∧
    (s.floorState r.seat = .replyWaiting → s.Refuses t r.seat .req .seatBusy) ∧
    (s.floorState r.seat = .held → s.Refuses t r.seat .req .held) ∧
    (s.floorState r.seat = .idle →
      (s.floor.gate = .closed → s.Refuses t r.seat .req .listClosed) ∧
      (s.floor.gate = .opened →
        (s.floor.policy.grantQuota ≠ 0 → s.floor.policy.grantQuota ≤ (s.seat r.seat).grantCount →
          s.Refuses t r.seat .req .quota) ∧
        (s.floor.policy.grantQuota = 0 ∨ (s.seat r.seat).grantCount < s.floor.policy.grantQuota →
          (s.floor.policy.listMax ≤ s.floor.requests.length → s.Refuses t r.seat .req .listFull) ∧
          (s.floor.requests.length < s.floor.policy.listMax →
            (((s.notify ⟨.queued, .seat r.seat, some 3, [detailOf s.floor.requests.length]⟩).raise .list).modFloor fun f =>
              { f with requests := f.requests ++ [⟨r.seat, .button, r.stamp, none⟩], listVersion := f.listVersion + 1 }).Settles
                t))))) ∧
  (∀ (s : State) (r : CaptureRecord), s.OnePress r .mic → s.mayPress r.seat .mic → ∃ t : State, exec .intake s = .next t ∧
    (s.floor.chairOf r.seat = none →
      (s.floor.freeChair = none → s.Refuses t r.seat .mic .chairBusy) ∧
      ∀ j, s.floor.freeChair = some j →
        (((s.notify ⟨.chairOpen, .seat r.seat, some 1, [detailOf j]⟩).raise .floor).modFloor fun f =>
          { f with chairs := f.chairs.set j (some ⟨r.seat, s.time, .mic⟩) }).Settles t) ∧
    ∀ (j : Fin 2) (x : ChairSlot), s.floor.chairOf r.seat = some j → s.floor.chairs[j] = some x →
      (x.mode = .priority → s.Refuses t r.seat .mic .phase) ∧
      (x.mode = .mic → (((s.notify ⟨.chairClose, .seat r.seat, some 0, [detailOf j]⟩).raise .floor).modFloor fun f =>
        { f with chairs := f.chairs.set j none }).Settles t)) ∧
  (∀ (now : ChamberTime) (p : Policy) (w : Word) (batch : List CaptureRecord),
    (orderBatch now p w batch).1.Perm batch ∧
    (orderBatch now p w batch).1.Pairwise (fun x y => (now - y.stamp).toNat ≤ (now - x.stamp).toNat) ∧
    (∀ n stamp, (orderBatch now p w batch).1.filter (fun r => r.seat = n ∧ r.stamp = stamp) =
      batch.filter fun r => r.seat = n ∧ r.stamp = stamp) ∧
    (p.tieOrder = .seat → (orderBatch now p w batch).2 = w ∧
      (orderBatch now p w batch).1.Pairwise fun x y => x.stamp = y.stamp → x.seat ≤ y.seat) ∧
    (p.tieOrder = .draw → ∀ (stamp : ChamberTime) (seats : List Nat), (∀ r ∈ batch, r.stamp = stamp) → batch ≠ [] →
      seats.Pairwise (· < ·) → (∀ n, n ∈ seats ↔ ∃ r ∈ batch, r.seat = n) →
      orderBatch now p w batch =
        ((drawOrder w seats).1.flatMap fun n => batch.filter fun r => r.seat = n, (drawOrder w seats).2))) ∧
  (∀ s : State, 0 < s.due.intake → s.pins.hold = false → s.floor.hold = .released → s.noFill → s.floor.gate = .opened →
    s.floor.policy.grantQuota = 0 → s.floor.requests.length + s.taken.length ≤ s.floor.policy.listMax →
    (s.taken.map (·.seat)).Nodup →
    (∀ r ∈ s.taken, s.seatAt r.trunk r.position = some r.seat ∧ s.isHere r.seat = true ∧ r.counts.presses = [.req] ∧
      s.mayPress r.seat .req ∧ s.floorState r.seat = .idle) →
    ∃ t : State, exec .intake s = .next t ∧ t.floor = { s.floor with
      requests := s.floor.requests ++ (orderBatch s.time s.floor.policy s.floor.draw s.taken).1.map fun r =>
        ⟨r.seat, .button, r.stamp, none⟩
      draw := (orderBatch s.time s.floor.policy s.floor.draw s.taken).2
      listVersion := if s.taken = [] then s.floor.listVersion else s.floor.listVersion + 1 })

/-- The deadline pass under EXPIRY_ACTION WARN sets the overtime flag of exactly the open slots whose deadline is reached, and the
overtime mark of their seats, and closes nothing (R76, R77). Under CLOSE their seats have the mark, with the OVERTIME and FLOOR
flags; on an OPEN floor with no replies waiting exactly those slots close under MANUAL, under AUTO the one fill after the pass
leaves no present entry beside a free place, and a single expiring slot closes with reason TIME, with the round and the fill point
that follow (R50, R53, R77); the refusal displays that have run out are removed, and only those (R18).
It rests on the model's own conventions: log 5, log 36 (whether the close of the expiring slot, as the principal's, begins the reply
round). -/
def Obligations.AdvancePasses : Prop :=
  (∀ (k : Nat) (s : State), s.due.deadlinePass = k + 1 → s.floor.policy.expiryAction = .warn → ∃ t : State,
    exec .deadlinePass s = .next t ∧ t.due = { s.due with deadlinePass := k } ∧
    t.floor = { s.floor with slots := s.floor.slots.map (Option.map fun d =>
      { d with overtime := d.overtime || d.deadline.any (reached s.time) }) } ∧
    (∀ (i : Fin 6) (d : DelegateSlot), s.floor.slots[i] = some d → d.overtime = false →
      d.deadline.any (reached s.time) = true → 1 ≤ d.seat → d.seat ≤ 480 →
      (t.seat d.seat).overtimeMark = true ∧ ∀ l, t.flagged l .overtime)) ∧
  (∀ (k : Nat) (s : State), s.due.deadlinePass = k + 1 → s.floor.policy.expiryAction = .close → ∃ t : State,
    exec .deadlinePass s = .next t ∧ t.due = { s.due with deadlinePass := k } ∧
    (∀ (i : Fin 6) (d : DelegateSlot), s.floor.slots[i] = some d → d.overtime = false →
      d.deadline.any (reached s.time) = true → 1 ≤ d.seat → d.seat ≤ 480 →
      (t.seat d.seat).overtimeMark = true ∧ ∀ l, t.flagged l .overtime ∧ t.flagged l .floor) ∧
    (s.floor.phase = .openFloor → s.floor.replies = [] →
      (s.floor.policy.grantMode = .manual → t.floor = { s.floor with
        slots := s.floor.slots.map fun x => x.bind fun d =>
          if d.overtime = false ∧ d.deadline.any (reached s.time) = true then none else some d }) ∧
      (s.floor.policy.grantMode = .auto → s.floor.policy.floorMax ≤ 6 →
        (∃ (i : Fin 6) (d : DelegateSlot), s.floor.slots[i] = some d ∧ d.overtime = false ∧
          d.deadline.any (reached s.time) = true) →
        t.floor.openCount < s.floor.policy.floorMax → t.firstPresent = none)) ∧
    ∀ (i : Fin 6) (d : DelegateSlot), s.floor.slots[i] = some d → d.overtime = false →
      d.deadline.any (reached s.time) = true →
      (∀ (j : Fin 6) (x : DelegateSlot), j ≠ i → s.floor.slots[j] = some x →
        x.overtime = true ∨ x.deadline.any (reached s.time) = false) →
      (((s.raise .overtime).notify ⟨.overtime, .seat d.seat, some 1, [detailOf i, detailCode (codeIn slotKindRow d.kind)]⟩).slotClosed
        i d 3).Settles t) ∧
  (∀ (k : Nat) (s : State), s.due.refusalEnd = k + 1 → ∃ t : State, exec .refusalEnd s = .next t ∧
    t.due = { s.due with refusalEnd := k } ∧ t.floor = s.floor ∧ t.report = s.report ∧
    ∀ n, (t.seat n).refusalUntil =
      if (s.seat n).refusalUntil.any (reached s.time) then none else (s.seat n).refusalUntil)

/-- The displacement check changes nothing unless grants are AUTO, the full policy is DISPLACE, the floor is OPEN and just full, a
present entry waits and a slot qualifies. Then the oldest qualifying slot closes with reason EVICT. With entries waiting for its
seat as principal the reply round begins and is served; otherwise, where no other present entry waits, the first present entry's
seat is granted the free place of lowest index, with its allowance, deadline and warn point, and the grant is counted (R49, R51,
R52, R74).
It rests on the model's own conventions: log 5, log 15, log 36. -/
def Obligations.DisplacementCheck : Prop :=
  ∀ (k : Nat) (s : State), s.due.displacement = k + 1 →
    (s.floor.policy.grantMode = .manual ∨ s.floor.policy.fullPolicy = .wait ∨ s.floor.phase ≠ .openFloor ∨
        s.floor.openCount ≠ s.floor.policy.floorMax ∨ s.firstPresent = none →
      exec .displacementCheck s = .next { s with due := { s.due with displacement := k } }) ∧
    (s.floor.policy.grantMode = .auto → s.floor.policy.fullPolicy = .displace → s.floor.phase = .openFloor →
      s.floor.openCount = s.floor.policy.floorMax → ∀ e : RequestEntry, s.firstPresent = some e →
      ∀ oldest : Option (Fin 6 × DelegateSlot), oldest =
        ((s.floor.slotsByAge s.time).find? fun x => x.2.kind = .speak ∧ x.2.grantedAt ≠ s.time ∧
          reached s.time x.2.grantedAt ∧ reached s.time (after x.2.grantedAt s.floor.policy.minTenure)) →
      (oldest = none → exec .displacementCheck s = .next { s with due := { s.due with displacement := k } }) ∧
      ∀ (i : Fin 6) (d : DelegateSlot), oldest = some (i, d) → ∃ t : State, exec .displacementCheck s = .next t ∧
        t.due = { s.due with displacement := k } ∧
        (s.floor.replies ≠ [] → (s.floor.principal s.time).any (·.1 = i) = true → (s.slotClosed i d 4).Settles t) ∧
        ∀ j : Fin 6, s.floor.replies = [] ∨ (s.floor.principal s.time).any (·.1 = i) = false →
          (s.slotClosed i d 4).floor.freeSlot = some j →
          (∀ x ∈ s.floor.requests, x.seat ≠ e.seat → s.isHere x.seat = false) →
          t.floor = { s.floor with
            slots := (s.floor.slots.set i none).set j (some
              (slotNow s.time s.floor.policy.warnLead e.seat .speak .auto (e.allowance.getD s.floor.policy.speakAllow)))
            requests := s.floor.requests.filter (·.seat ≠ e.seat), listVersion := s.floor.listVersion + 1 } ∧
          t.report = ((s.slotClosed i d 4).speakGranted j e.seat .auto (e.allowance.getD s.floor.policy.speakAllow)).report ∧
          (t.seat e.seat).grantCount = min 15 ((s.seat e.seat).grantCount + 1))

/-! ### The trunks -/

/-- TRUNK CONTROL: a trunk above 3 is RANGE and an action above 2 BAD_ARG. Enumeration started or restarted leaves the trunk
ENUMERATING with nothing found, no station state, no capture record, no waiting beat, its pending list emptied but for the images
its own releases change, its seats UNCONFIRMED and in no slot, and the engine waits for a TALLY; DISABLE leaves it DOWN with its
pending list empty too, its line idle and its seats ABSENT, in no slot, list or frame. The slots close with reason TRUNK, delegate
slots oldest first and then chair slots, with the round and the fill point that follow; under the laws of the floor, the reply
entries that a DISABLE drops leave in list order. The command's other cases change nothing (R88, R135, R138, R142, R154, R155).
TRUNK CONFIG stores the values as set (R156).
It rests on the model's own conventions: log 7, log 18, log 23, log 29, log 36 (whether a close of the trunk's slots, as the
principal's, begins the reply round). -/
def Obligations.TrunkCommands : Prop :=
  (∀ (s : State) (l : Link) (c : HeldCommand), s.Takes l c 0x60 true 2 →
    ∀ row : Instr, row = .trunkEnable l ∧ u8 c.payload 1 ≠ 1 ∧ u8 c.payload 1 ≠ 2 ∨
        row = .trunkEnumerate l ∧ u8 c.payload 1 ≠ 0 ∧ u8 c.payload 1 ≠ 2 ∨
        row = .trunkDisable l ∧ u8 c.payload 1 ≠ 0 ∧ u8 c.payload 1 ≠ 1 →
      (3 < u8 c.payload 0 → exec row s = .next (s.answer l c (.of .range))) ∧
      (u8 c.payload 0 ≤ 3 → 2 < u8 c.payload 1 → exec row s = .next (s.answer l c (.of .badArg)))) ∧
  (∀ (s : State) (l : Link) (c : HeldCommand) (tr : TrunkNo), s.Takes l c 0x60 true 2 → u8 c.payload 0 = tr →
    (u8 c.payload 1 = 0 → (s.trunk tr).state = .enumerating →
      exec (.trunkEnable l) s = .next (s.answer l c (.of .trunkState))) ∧
    (u8 c.payload 1 = 0 → (s.trunk tr).state = .running ∨ (s.trunk tr).state = .fault →
      exec (.trunkEnable l) s = .next (s.answer l c (.of .unchanged [codeIn trunkStateRow (s.trunk tr).state]))) ∧
    (u8 c.payload 1 = 1 → (s.trunk tr).state = .down →
      exec (.trunkEnumerate l) s = .next (s.answer l c (.of .trunkState))) ∧
    (u8 c.payload 1 = 2 → (s.trunk tr).state = .down →
      exec (.trunkDisable l) s = .next (s.answer l c (.of .unchanged [0]))) ∧
    (∀ row : Instr, row = .trunkEnable l ∧ u8 c.payload 1 = 0 ∧ (s.trunk tr).state = .down ∨
        row = .trunkEnumerate l ∧ u8 c.payload 1 = 1 ∧ (s.trunk tr).state ≠ .down → ∃ u : State,
      exec row s = .next (u.answer l c (.of .done [1])) ∧
      (u.trunk tr).state = .enumerating ∧ (u.trunk tr).found = 0 ∧ (u.trunk tr).fifo = [] ∧ (u.trunk tr).waitingBeat = none ∧
      (u.trunk tr).inFlight = none ∧ (∀ p, (u.trunk tr).station p = ⟨false, 0, false⟩) ∧
      (u.trunk tr).plan = .tallyWait ((u.trunk tr).lineUntil + 50000) ∧ (u.trunk tr).lineFrame = assignFrame 0 ∧
      (∀ n b, 1 ≤ n → n ≤ 480 → (s.seat n).binding = some b → b.trunk = tr → (u.seat n).presence = .unconfirmed) ∧
      (∀ l', u.flagged l' .trunk ∧ u.flagged l' .presence) ∧ s.ClaimFrame u ∧
      u.trunk tr = { s.trunk tr with
        state := .enumerating, found := 0, positions := Vector.replicate 120 ⟨false, 0, false⟩, fifo := []
        pending := (u.trunk tr).pending, waitingBeat := none, periodInForce := (s.trunk tr).periodSet
        waitInForce := (s.trunk tr).waitSet, plan := (u.trunk tr).plan, inFlight := none, lineFrame := (u.trunk tr).lineFrame
        lineUntil := (u.trunk tr).lineUntil } ∧
      (∀ x ∈ (u.trunk tr).pending, x.label = false ∧ ∃ n b, (s.seat n).binding = some b ∧ b.trunk = tr ∧
        b.position = x.position ∧ (u.seat n).image ≠ (s.seat n).image) ∧
      (∀ n, s.boundTo tr n = true → u.floor.slotOf n = none ∧ u.floor.chairOf n = none) ∧
      State.Settles { (s.trunkReleased tr).trunkReported tr 1 (codeIn trunkStateRow (s.trunk tr).state) with seats := u.seats }
        u) ∧
    (u8 c.payload 1 = 2 → (s.trunk tr).state ≠ .down → ∃ u : State,
      exec (.trunkDisable l) s = .next (u.answer l c (.of .done [0])) ∧
      (u.trunk tr).state = .down ∧ (u.trunk tr).found = 0 ∧ (u.trunk tr).fifo = [] ∧ (u.trunk tr).pending = [] ∧
      (u.trunk tr).waitingBeat = none ∧ (u.trunk tr).inFlight = none ∧ (u.trunk tr).lineFrame = [] ∧
      (∀ p, (u.trunk tr).station p = ⟨false, 0, false⟩) ∧
      (∀ n b, 1 ≤ n → n ≤ 480 → (s.seat n).binding = some b → b.trunk = tr → (u.seat n).presence = .absent) ∧
      (∀ l', u.flagged l' .trunk ∧ u.flagged l' .presence) ∧ s.ClaimFrame u ∧
      u.trunk tr = { s.trunk tr with
        state := .down, found := 0, positions := Vector.replicate 120 ⟨false, 0, false⟩, fifo := [], pending := []
        waitingBeat := none, plan := (u.trunk tr).plan, inFlight := none, lineFrame := [], lineUntil := (u.trunk tr).lineUntil } ∧
      (∀ n, s.boundTo tr n = true → u.floorState n = .idle) ∧
      (s.seatsGone tr (s.trunkReleased tr).floor).settlesFloor { s with seats := u.seats } u ∧
      (s.FloorLaws → (∀ n, s.boundTo tr n = true → s.floorState n = .idle ∨ s.floorState n = .replyWaiting) →
        s.floor.phase = .openFloor → s.floor.policy.grantMode = .manual → u.report =
          ((((s.floor.replies.filter fun e => s.boundTo tr e.seat).foldl (fun x e => (x.notify
            ⟨.replyDropped, .seat e.seat, some 5, [detailOf e.target]⟩).raise .reply) s).raise .presence).trunkReported tr 0
              (codeIn trunkStateRow (s.trunk tr).state)).report))) ∧
  (∀ (s : State) (l : Link) (c : HeldCommand), s.Takes l c 0x61 true 5 →
    (3 < u8 c.payload 0 → exec (.trunkConfig l) s = .next (s.answer l c (.of .range))) ∧
    ∀ tr : TrunkNo, u8 c.payload 0 = tr →
      (u16 c.payload 1 < 10 ∨ 250 < u16 c.payload 1 ∨ u16 c.payload 3 < 100 ∨ 2000 < u16 c.payload 3 →
        exec (.trunkConfig l) s = .next (s.answer l c (.of .range))) ∧
      (10 ≤ u16 c.payload 1 → u16 c.payload 1 ≤ 250 → 100 ≤ u16 c.payload 3 → u16 c.payload 3 ≤ 2000 →
        (u16 c.payload 1 = (s.trunk tr).periodSet ∧ u16 c.payload 3 = (s.trunk tr).waitSet →
          exec (.trunkConfig l) s = .next (s.answer l c (.of .unchanged))) ∧
        (¬ (u16 c.payload 1 = (s.trunk tr).periodSet ∧ u16 c.payload 3 = (s.trunk tr).waitSet) →
          exec (.trunkConfig l) s = .next ((s.modTrunk tr fun e =>
            { e with periodSet := u16 c.payload 1, waitSet := u16 c.payload 3 }).answer l c (.of .done)))))

/-- COUNTS CLEAR sets CRC_ERRORS, FORMAT_ERRORS and MISSES of its trunk to 0 in every trunk state and answers DONE; every other
field of that trunk, every other trunk and everything else stays; a trunk number above 3 is answered RANGE (R157, 8.9). -/
def Obligations.CountsClear : Prop :=
  ∀ (s : State) (l : Link) (c : HeldCommand), s.Takes l c 0x63 true 1 →
    (3 < u8 c.payload 0 → exec (.countsClear l) s = .next (s.answer l c (.of .range))) ∧
    ∀ tr : TrunkNo, u8 c.payload 0 = tr → ∃ u : State,
      exec (.countsClear l) s = .next (u.answer l c (.of .done)) ∧ u = { s with trunks := u.trunks } ∧
      u.trunk tr = { s.trunk tr with crcErrors := 0, formatErrors := 0, misses := 0 } ∧
      ∀ i, i ≠ tr → u.trunk i = s.trunk i

/-- The TALLY wait: a TALLY of 1 to 120 gives N and the probes begin; a larger one gives 120 with an EXCESS notice; a failed check
is counted and the wait goes on, any other frame is discarded; the end of the wait, or a TALLY of 0, gives N = 0: the trunk becomes
FAULT with its TRUNK and PRESENCE flags, no entry for a position is pending, and, under the law of the position map, every seat of
the trunk is ABSENT and, with at most one slot of each kind, off the floor (R2, R15, R139, R141, R187).
It rests on the model's own conventions: log 3, log 23, log 35. -/
def Obligations.TallyWait : Prop :=
  ∀ (tr : TrunkNo) (until_ : Nat) (s : State), (s.trunk tr).plan = .tallyWait until_ →
    (∀ (bytes : List Byte) (m : Nat), s.answerAt tr m ≤ until_ →
      (∀ n, classifyTally bytes = .valid n → 1 ≤ n → n ≤ 120 → exec (.tallyReceived tr bytes m) s =
        .next ((s.reachMoment (s.answerAt tr m)).modTrunk tr fun e => { e with found := n, plan := .probing 1 })) ∧
      (∀ n, classifyTally bytes = .valid n → 120 < n → ∃ t : State, exec (.tallyReceived tr bytes m) s = .next t ∧
        t.trunk tr = { s.trunk tr with found := 120, plan := .probing 1 } ∧
        t.report = (s.notify ⟨.excess, .trunk tr, none, [detailOf n]⟩).report) ∧
      (classifyTally bytes = .valid 0 → ∃ t : State, exec (.tallyReceived tr bytes m) s = .next t ∧
        (t.trunk tr).state = .fault ∧ (t.trunk tr).found = 0 ∧ (∀ y ∈ (t.trunk tr).pending, y.position = 0) ∧
        (∀ l, t.flagged l .trunk ∧ t.flagged l .presence) ∧ (s.BindingsLaw → s.Completed t tr fun _ => False)) ∧
      (classifyTally bytes = .checkFault → exec (.tallyReceived tr bytes m) s =
        .next ((s.reachMoment (s.answerAt tr m)).modTrunk tr fun e =>
          { e with crcErrors := min 65535 (e.crcErrors + 1) })) ∧
      (classifyTally bytes = .discarded → exec (.tallyReceived tr bytes m) s = .next (s.reachMoment (s.answerAt tr m)))) ∧
    (∃ t : State, exec (.tallyWaitExpiry tr) s = .next t ∧ (t.trunk tr).state = .fault ∧ (t.trunk tr).found = 0 ∧
      t.now = max s.now until_ ∧ (∀ l, t.flagged l .trunk) ∧ (∀ y ∈ (t.trunk tr).pending, y.position = 0) ∧
      (∀ l, t.flagged l .presence) ∧ (s.BindingsLaw → s.Completed t tr fun _ => False))

/-- The probes: each sends a POLL with acknowledgement 0, SHUT and OFF to the next position; a valid answer gives the position its
toggle and a miss count of 0, and an answer fault is counted and gives it a miss count of 3; the answer or the fault of the last
probe completes enumeration: the seats bound at answered positions are PRESENT, and marked, with the label flag for a label, the
trunk's other seats are ABSENT and, with at most one slot of each kind, off the floor, no pending entry lies beyond N, and the trunk
is RUNNING with its first sweep begun (R140, R141, R143, R146).
It rests on the model's own conventions: log 3, log 23, log 29, log 34. -/
def Obligations.Probes : Prop :=
  (∀ (tr : TrunkNo) (next : Nat) (s : State), (s.trunk tr).plan = .probing next → (s.trunk tr).inFlight = none →
    next ≤ (s.trunk tr).found → exec (.probe tr) s = .next (s.modTrunk tr fun e => { e with
      lineFrame := pollFrame next false ⟨false, .off⟩, lineUntil := max s.now e.lineUntil + 50
      inFlight := some ⟨true, next, false, max s.now e.lineUntil + 50 + e.waitInForce⟩, plan := .probing (next + 1) })) ∧
  (∀ (tr : TrunkNo) (bytes : List Byte) (m : Nat) (x : Transaction) (r : StatusReport) (next : Nat) (s : State),
    (s.trunk tr).inFlight = some x → x.isProbe = true → s.answerAt tr m ≤ x.answerBy → 1 ≤ x.position → x.position ≤ 120 →
    classifyAnswer x.position bytes = .valid r → (s.trunk tr).plan = .probing next →
    (next ≤ (s.trunk tr).found → ∃ t : State, exec (.probeAnswer tr bytes m) s = .next t ∧ (t.trunk tr).inFlight = none ∧
      ((t.trunk tr).station x.position).toggle = r.toggle ∧ ((t.trunk tr).station x.position).miss = 0 ∧
      (∀ n, s.seatAt tr x.position = some n → (t.seat n).kind = some r.counts.kind) ∧ t.floor = s.floor) ∧
    (1 ≤ (s.trunk tr).found → (s.trunk tr).found < next → ∃ t : State, exec (.probeAnswer tr bytes m) s = .next t ∧
      (t.trunk tr).state = .running ∧ (t.trunk tr).plan = .sweeping 1 0 ∧
      (t.trunk tr).sweepCounter = (s.trunk tr).sweepCounter + 1 ∧ (∀ l, t.flagged l .trunk ∧ t.flagged l .presence) ∧
      s.Completed t tr fun q => q ≤ (s.trunk tr).found ∧ (q = x.position ∨ ((s.trunk tr).station q).miss = 0))) ∧
  (∀ (tr : TrunkNo) (x : Transaction) (next : Nat) (s : State) (row : Instr) (crc format misses : Nat),
    (s.trunk tr).inFlight = some x → x.isProbe = true → 1 ≤ x.position → x.position ≤ 120 → (s.trunk tr).plan = .probing next →
    s.FaultRow tr x row crc format misses → (s.trunk tr).crcErrors + crc ≤ 65535 →
    (s.trunk tr).formatErrors + format ≤ 65535 → (s.trunk tr).misses + misses ≤ 65535 → ∃ t : State, exec row s = .next t ∧
      t.now = max s.now x.answerBy ∧ (t.trunk tr).inFlight = none ∧ (t.trunk tr).crcErrors = (s.trunk tr).crcErrors + crc ∧
      (t.trunk tr).formatErrors = (s.trunk tr).formatErrors + format ∧ (t.trunk tr).misses = (s.trunk tr).misses + misses ∧
      (t.trunk tr).station x.position = { (s.trunk tr).station x.position with miss := 3 } ∧
      (next ≤ (s.trunk tr).found → (t.trunk tr).plan = .probing next ∧ t.floor = s.floor ∧ t.seats = s.seats) ∧
      (1 ≤ (s.trunk tr).found → (s.trunk tr).found < next → (t.trunk tr).state = .running ∧
        (t.trunk tr).plan = .sweeping 1 0 ∧ (∀ l, t.flagged l .trunk ∧ t.flagged l .presence) ∧
        s.Completed t tr fun q => q ≤ (s.trunk tr).found ∧ q ≠ x.position ∧ ((s.trunk tr).station q).miss = 0))

/-- A sweep starts with the settings as set taken into force and its count one higher; each POLL carries the position's
acknowledgement value and the current image of the seat bound there; the waiting beat is sent ahead of the next transaction, and
the oldest pending entry, as a LABEL when its label flag is set, after the beats and ahead of the POLL (R143 to R147).
It rests on the model's own conventions: log 3, log 23. -/
def Obligations.Sweeps : Prop :=
  (∀ (tr : TrunkNo) (s : State), (s.trunk tr).plan = .waiting → (s.trunk tr).inFlight = none → ∃ t : State,
    exec (.sweepStart tr) s = .next t ∧
    t.now = max s.now ((s.trunk tr).sweepStartedAt + (s.trunk tr).periodInForce * 1000) ∧
    t.trunk tr = { s.trunk tr with
      periodInForce := (s.trunk tr).periodSet, waitInForce := (s.trunk tr).waitSet
      sweepCounter := (s.trunk tr).sweepCounter + 1, sweepStartedAt := t.now, sweepHeard := false, plan := .sweeping 1 0 }) ∧
  (∀ (tr : TrunkNo) (next served : Nat) (s : State), (s.trunk tr).plan = .sweeping next served →
    (s.trunk tr).inFlight = none → (s.trunk tr).waitingBeat = none → next ≤ (s.trunk tr).found →
    (s.trunk tr).pending = [] ∨ served = 4 → exec (.sweepPoll tr) s = .next (s.modTrunk tr fun e => { e with
      lineFrame := pollFrame next (e.station next).toggle (s.imageAt tr next), lineUntil := max s.now e.lineUntil + 50
      inFlight := some ⟨false, next, (s.imageAt tr next).micOpen, max s.now e.lineUntil + 50 + e.waitInForce⟩
      plan := .sweeping (next + 1) 0 })) ∧
  (∀ (tr : TrunkNo) (phase : BitVec 2) (s : State), (s.trunk tr).waitingBeat = some phase → (s.trunk tr).inFlight = none →
    exec (.sendBeat tr) s = .next (s.modTrunk tr fun e => { e with
      lineFrame := beatFrame phase, lineUntil := max s.now e.lineUntil + 40, waitingBeat := none })) ∧
  (∀ (tr : TrunkNo) (next served : Nat) (x : PendingUpdate) (rest : List PendingUpdate) (s : State),
    (s.trunk tr).plan = .sweeping next served → (s.trunk tr).inFlight = none → (s.trunk tr).waitingBeat = none →
    next ≤ (s.trunk tr).found → served < 4 → (s.trunk tr).pending = x :: rest → ∃ t : State, exec (.servePending tr) s = .next t ∧
      (t.trunk tr).pending = rest ∧ (t.trunk tr).plan = .sweeping next (served + 1) ∧
      (t.trunk tr).lineFrame =
        (if x.label then
          labelFrame x.position ((s.trunk tr).station x.position).toggle (s.imageAt tr x.position) (s.labelAt tr x.position)
        else pollFrame x.position ((s.trunk tr).station x.position).toggle (s.imageAt tr x.position)) ∧
      (t.trunk tr).inFlight = some ⟨false, x.position, (s.imageAt tr x.position).micOpen,
        (t.trunk tr).lineUntil + (s.trunk tr).waitInForce⟩ ∧ t.floor = s.floor ∧ t.seats = s.seats)

/-- A valid answer of a PRESENT seat's position in a sweep, with the microphone as commanded: the miss count is 0 and the station
kind is recorded; a new report is stored once, with the present chamber time, and E turned over, when the FIFO has room; a repeat,
an empty report and a report to a full FIFO store nothing and leave E (R148, R149, R152). Any valid answer on a RUNNING or FAULT
trunk, at the last position too: the trunk is RUNNING, with its TRUNK flag where it was FAULT; a miss count of 3 adopts the toggle
and stores nothing; the seat is PRESENT, reported and marked where it was ABSENT or UNCONFIRMED; a microphone not as commanded is
reported once, MIC_FAULT, with the seat's mark; a new report at a position no seat is bound to raises STRAY and is acknowledged (R8,
R148, R150, R151, R153).
It rests on the model's own conventions: log 3, log 19, log 23. -/
def Obligations.StatusAnswer : Prop :=
  (∀ (tr : TrunkNo) (bytes : List Byte) (m : Nat) (x : Transaction) (r : StatusReport) (n : Nat) (s : State),
    (s.trunk tr).inFlight = some x → x.isProbe = false → s.answerAt tr m ≤ x.answerBy → 1 ≤ x.position → x.position ≤ 120 →
    classifyAnswer x.position bytes = .valid r → (s.trunk tr).state = .running →
    (∀ next, (s.trunk tr).plan ≠ .probing next) → s.seatAt tr x.position = some n → (s.seat n).presence = .present →
    ((s.trunk tr).station x.position).miss < 3 → x.micOpen = r.micOpen →
    ∃ t : State, exec (.statusAnswer tr bytes m) s = .next t ∧ t.floor = s.floor ∧ t.report = s.report ∧
      (t.trunk tr).inFlight = none ∧ (t.trunk tr).sweepHeard = true ∧ (t.seat n).kind = some r.counts.kind ∧
      (t.trunk tr).state = .running ∧ (t.trunk tr).plan = (s.trunk tr).planAfter ∧
      (r.counts.isZero = false → r.toggle = ((s.trunk tr).station x.position).toggle → (s.trunk tr).fifo.length < 24 →
        (t.trunk tr).fifo = (s.trunk tr).fifo ++ [⟨tr, x.position, n, r.counts, s.time⟩] ∧
        (t.trunk tr).station x.position = ⟨!((s.trunk tr).station x.position).toggle, 0, false⟩) ∧
      (r.counts.isZero = true ∨ r.toggle ≠ ((s.trunk tr).station x.position).toggle ∨ 24 ≤ (s.trunk tr).fifo.length →
        (t.trunk tr).fifo = (s.trunk tr).fifo ∧
        (t.trunk tr).station x.position = ⟨((s.trunk tr).station x.position).toggle, 0, false⟩)) ∧
  (∀ (tr : TrunkNo) (bytes : List Byte) (m : Nat) (x : Transaction) (r : StatusReport) (s : State),
    (s.trunk tr).inFlight = some x → x.isProbe = false → s.answerAt tr m ≤ x.answerBy → 1 ≤ x.position → x.position ≤ 120 →
    classifyAnswer x.position bytes = .valid r → (s.trunk tr).state = .running ∨ (s.trunk tr).state = .fault →
    (∀ next, (s.trunk tr).plan ≠ .probing next) → ∃ t : State, exec (.statusAnswer tr bytes m) s = .next t ∧
      (t.trunk tr).state = .running ∧ (t.trunk tr).inFlight = none ∧ (t.trunk tr).sweepHeard = true ∧
      (t.trunk tr).plan = (s.trunk tr).planAfter ∧ ((t.trunk tr).station x.position).miss = 0 ∧
      (((s.trunk tr).station x.position).miss = 3 →
        ((t.trunk tr).station x.position).toggle = r.toggle ∧ (t.trunk tr).fifo = (s.trunk tr).fifo) ∧
      (((t.trunk tr).station x.position).mismatch = decide (x.micOpen ≠ r.micOpen)) ∧
      ((s.trunk tr).state = .fault → ∀ l, t.flagged l .trunk) ∧
      (∀ n, s.seatAt tr x.position = some n → (t.seat n).presence = .present ∧ (t.seat n).kind = some r.counts.kind ∧
        (x.micOpen ≠ r.micOpen → ((s.trunk tr).station x.position).mismatch = false → (t.seat n).micFaultMark = true) ∧
        ((s.seat n).presence = .absent ∨ (s.seat n).presence = .unconfirmed → (∀ l, t.flagged l .presence) ∧
          (x.position ≤ (s.trunk tr).found → ∃ y ∈ (t.trunk tr).pending, y.position = x.position ∧
            ((s.seat n).label ≠ none → y.label = true)) ∧
          ((s.trunk tr).state = .running → x.micOpen = r.micOpen → s.noFill →
            t.report = ((s.notify ⟨.presence, .seat n, some 2, []⟩).raise .presence).report)) ∧
        ((s.trunk tr).state = .running → (s.seat n).presence = .present ∨ (s.seat n).presence = .fading → t.report =
          if x.micOpen ≠ r.micOpen ∧ ((s.trunk tr).station x.position).mismatch = false then
            (s.notify ⟨.micFault, .seat n, none, [detailCode (yesNo x.micOpen), detailCode (yesNo r.micOpen)]⟩).report
          else s.report)) ∧
      (s.seatAt tr x.position = none → (s.trunk tr).state = .running → t.floor = s.floor ∧ t.seats = s.seats ∧
        (x.micOpen = r.micOpen → ((s.trunk tr).station x.position).miss < 3 → (t.trunk tr).fifo = (s.trunk tr).fifo ∧
          (r.counts.isZero = false → r.toggle = ((s.trunk tr).station x.position).toggle →
            t.report = (s.notify ⟨.stray, .trunk tr, none, [detailOf x.position]⟩).report ∧
            ((t.trunk tr).station x.position).toggle = !((s.trunk tr).station x.position).toggle) ∧
          (r.counts.isZero = true ∨ r.toggle ≠ ((s.trunk tr).station x.position).toggle → t.report = s.report ∧
            ((t.trunk tr).station x.position).toggle = ((s.trunk tr).station x.position).toggle)) ∧
        (x.micOpen ≠ r.micOpen → r.counts.isZero = true → t.report =
          if ((s.trunk tr).station x.position).mismatch then s.report
          else (s.notify ⟨.micFault, .trunk tr, none, [detailOf x.position, detailCode (yesNo r.micOpen)]⟩).report)) ∧
      (s.seatAt tr x.position = none → (s.trunk tr).state = .fault → x.micOpen = r.micOpen → r.counts.isZero = true →
        t.report = ((s.notify ⟨.trunkState, .trunk tr, some 2, [detailOf (s.trunk tr).found, 3]⟩).raise .trunk).report))

/-- A sweep transaction without a valid answer: the wait that runs out counts MISSES, a failed check CRC_ERRORS and a wrong format
FORMAT_ERRORS, each stopping at 65535; it is a miss at its position. The first and the second leave a PRESENT or FADING seat FADING,
an UNCONFIRMED or ABSENT one as it was, and the floor too. The third leaves the seat ABSENT: the PRESENCE notice and flag, then its
removal from wherever it is found with notices of reason ABSENT, one list version for the event, then the fill point for a slot
closed and the serve point for a reply entry alone; with at most one slot of each kind it is IDLE. An ABSENT seat stays so. At the
last position the sweep ends, and a RUNNING trunk without a valid answer in it becomes FAULT, with its TRUNK flag; otherwise the
trunk's state stays (R8, R15, R23, R50, R92, R136, R143, R151, R187).
It rests on the model's own conventions: log 3, log 15 (the list version), log 19 (the order of the notices), log 23, log 34, log 36
(the principal among slots of one tick). -/
def Obligations.AnswerFaults : Prop :=
  ∀ (tr : TrunkNo) (x : Transaction) (s : State), (s.trunk tr).inFlight = some x → x.isProbe = false → 1 ≤ x.position →
    x.position ≤ 120 → (∀ next, (s.trunk tr).plan ≠ .probing next) →
    ∀ (row : Instr) (crc format misses : Nat),
      (row = .answerWaitExpiry tr ∧ crc = 0 ∧ format = 0 ∧ misses = 1 ∨
        (∃ bytes m, row = .answerFault tr bytes m ∧ s.answerAt tr m ≤ x.answerBy ∧
          (classifyAnswer x.position bytes = .checkFault ∧ crc = 1 ∧ format = 0 ∧ misses = 0 ∨
            classifyAnswer x.position bytes = .formatFault ∧ crc = 0 ∧ format = 1 ∧ misses = 0))) →
      (s.trunk tr).crcErrors ≤ 65535 → (s.trunk tr).formatErrors ≤ 65535 →
      (s.trunk tr).misses ≤ 65535 → ∃ t : State, exec row s = .next t ∧
        (t.trunk tr).crcErrors = min 65535 ((s.trunk tr).crcErrors + crc) ∧
        (t.trunk tr).formatErrors = min 65535 ((s.trunk tr).formatErrors + format) ∧
        (t.trunk tr).misses = min 65535 ((s.trunk tr).misses + misses) ∧ (t.trunk tr).inFlight = none ∧
        t.now = max s.now x.answerBy ∧
        ((t.trunk tr).station x.position).miss = min 3 (((s.trunk tr).station x.position).miss + 1) ∧
        (t.trunk tr).plan = (s.trunk tr).planAfter ∧
        (((s.trunk tr).planAfter ≠ (s.trunk tr).plan ∧ (s.trunk tr).state = .running ∧ (s.trunk tr).sweepHeard = false →
          (t.trunk tr).state = .fault ∧ ∀ l, t.flagged l .trunk) ∧
        ((s.trunk tr).planAfter = (s.trunk tr).plan ∨ (s.trunk tr).state ≠ .running ∨ (s.trunk tr).sweepHeard = true →
          (t.trunk tr).state = (s.trunk tr).state)) ∧
        ∀ n, s.seatAt tr x.position = some n →
          (((s.trunk tr).station x.position).miss < 2 → t.floor = s.floor ∧
            ((s.seat n).presence = .present ∨ (s.seat n).presence = .fading → (t.seat n).presence = .fading) ∧
            ((s.seat n).presence = .unconfirmed ∨ (s.seat n).presence = .absent → (t.seat n).presence = (s.seat n).presence)) ∧
          ((s.seat n).presence = .absent → (t.seat n).presence = .absent ∧ t.floor = s.floor) ∧
          ((s.seat n).presence ≠ .absent → 2 ≤ ((s.trunk tr).station x.position).miss →
            (t.seat n).presence = .absent ∧ (∀ l, t.flagged l .presence) ∧ (s.floor.oneSlot n → t.floorState n = .idle) ∧
            ∀ y : State, y = ((((s.notify ⟨.presence, .seat n, some 0, []⟩).raise .presence).seatRemoved n 5).listTold s) →
              (s.trunk tr).planAfter = (s.trunk tr).plan ∨ (s.trunk tr).state ≠ .running ∨ (s.trunk tr).sweepHeard = true →
              (s.floor.slotOf n ≠ none → y.Settles t) ∧
              (s.floor.slotOf n = none → s.floor.replyOf n ≠ none → y.roundSettles t) ∧
              (s.floor.slotOf n = none → s.floor.replyOf n = none → t.floor = y.floor ∧ t.report = y.report))

/-! ### The Report Unit -/

/-- TAKE EVENTS answers DONE with the flags of its link and removes them in the same claim, and touches the other link's set, the notice
queues and everything else not at all (R175). -/
def Obligations.TakeEvents : Prop :=
  ∀ (s : State) (l : Link) (c : HeldCommand), s.Takes l c 0x70 false 0 → ∃ u : State,
    exec (.takeEvents l) s = .next (u.answer l c (.of .done (be16 (s.reportOf l).flags.toNat))) ∧
    u = { s with report := u.report } ∧ u.reportOf l = { s.reportOf l with flags := 0 } ∧
    u.reportOf l.other = s.reportOf l.other ∧ u.report.stat0 = s.report.stat0 ∧ u.report.stat1 = s.report.stat1

/-- TAKE NOTICES returns and removes the oldest records of the link's own queue and leaves its flags; ATTN MASK and NOTICE FILTER
set the link's own mask and filter; LINES SET sets one status line and answers both, selection, inversion and level. ATTN is active
exactly while a flag of the link's set is in its mask and the part is not in reset; a STAT line shows its selection's condition,
inverted or not, and is low in reset. What raises a notice: on each link whose filter holds the category of the notice's kind, it is
stored at the tail with the present chamber time and NOTICE is set while fewer than 32 records wait, and at 32 it is not stored and
OVERRUN is set; a notice that the filter does not hold changes nothing there. What sets an event flag sets it on both links. Nothing
else of the part changes by either (R174, R176 to R183).
It rests on the model's own conventions: log 37 (the byte of a level). -/
def Obligations.ReportCommands : Prop :=
  (∀ (s : State) (l : Link) (c : HeldCommand), s.Takes l c 0x71 false 1 →
    (u8 c.payload 0 < 1 ∨ 16 < u8 c.payload 0 → exec (.takeNotices l) s = .next (s.answer l c (.of .range))) ∧
    (1 ≤ u8 c.payload 0 → u8 c.payload 0 ≤ 16 → exec (.takeNotices l) s =
      .next ((s.modReport l fun r => { r with queue := r.queue.drop (u8 c.payload 0) }).answer l c
        (.of (if u8 c.payload 0 < (s.reportOf l).queue.length then .more else .done)
          (be8 (min (u8 c.payload 0) (s.reportOf l).queue.length) ::
            ((s.reportOf l).queue.take (u8 c.payload 0)).flatMap NoticeRecord.bytes))))) ∧
  (∀ (s : State) (l : Link) (c : HeldCommand), s.Takes l c 0x72 false 2 → ∀ v : Half, v = BitVec.ofNat 16 (u16 c.payload 0) →
    (v = (s.reportOf l).mask → exec (.attnMask l) s = .next (s.answer l c (.of .unchanged (be16 v.toNat)))) ∧
    (v ≠ (s.reportOf l).mask → exec (.attnMask l) s =
      .next ((s.modReport l fun r => { r with mask := v }).answer l c (.of .done (be16 v.toNat))))) ∧
  (∀ (s : State) (l : Link) (c : HeldCommand), s.Takes l c 0x73 false 1 → ∀ v : BitVec 5, v = BitVec.ofNat 5 (u8 c.payload 0) →
    (v = (s.reportOf l).filter → exec (.noticeFilter l) s = .next (s.answer l c (.of .unchanged [v.setWidth 8]))) ∧
    (v ≠ (s.reportOf l).filter → exec (.noticeFilter l) s =
      .next ((s.modReport l fun r => { r with filter := v }).answer l c (.of .done [v.setWidth 8])))) ∧
  (∀ (s : State) (l : Link) (c : HeldCommand), s.Takes l c 0x74 true 3 →
    (2 ≤ u8 c.payload 0 → exec (.linesSet l) s = .next (s.answer l c (.of .range))) ∧
    (u8 c.payload 0 < 2 → 12 ≤ u8 c.payload 1 ∨ 2 ≤ u8 c.payload 2 →
      exec (.linesSet l) s = .next (s.answer l c (.of .badArg))) ∧
    ∀ (x : StatSelection) (v : Bool), statRow[u8 c.payload 1]? = some x → u8 c.payload 2 = (if v then 1 else 0) →
      (u8 c.payload 0 = 0 → s.report.stat0 ≠ ⟨x, v⟩ → ∃ u : State, u = { s with report := { s.report with stat0 := ⟨x, v⟩ } } ∧
        exec (.linesSet l) s = .next (u.answer l c (.of .done u.linesResult))) ∧
      (u8 c.payload 0 = 1 → s.report.stat1 ≠ ⟨x, v⟩ → ∃ u : State, u = { s with report := { s.report with stat1 := ⟨x, v⟩ } } ∧
        exec (.linesSet l) s = .next (u.answer l c (.of .done u.linesResult))) ∧
      (u8 c.payload 0 = 0 ∧ s.report.stat0 = ⟨x, v⟩ ∨ u8 c.payload 0 = 1 ∧ s.report.stat1 = ⟨x, v⟩ →
        exec (.linesSet l) s = .next (s.answer l c (.of .unchanged s.linesResult)))) ∧
  (∀ s : State, s.linesResult = [s.report.stat0, s.report.stat1].flatMap fun x =>
    [codeIn statRow x.selection, if x.inverted then 1 else 0, if s.statLevel x then 1 else 0]) ∧
  (∀ (s : State) (l : Link), s.attention l = true ↔ s.pins.rstnLow = false ∧ ∃ e : EventFlag,
    (s.reportOf l).flags.getLsbD e.bit = true ∧ (s.reportOf l).mask.getLsbD e.bit = true) ∧
  (∀ (s : State) (x : StatSelection) (v : Bool), (s.pins.rstnLow = true → s.statLevel ⟨x, v⟩ = false) ∧
    (s.pins.rstnLow = false → (s.statLevel ⟨x, v⟩ = true ↔ if v then ¬ s.statHigh x else s.statHigh x))) ∧
  (noticeKindRow.map (·.category.bit) = [0, 0, 1, 1, 1, 1, 1, 0, 0, 2, 2, 2, 0, 0, 0, 0, 0, 3, 3, 3, 3, 4, 4, 4, 4] ∧
    ∀ k : NoticeKind, k ∈ noticeKindRow) ∧
  ∀ (s : State) (n : Notice) (e : EventFlag),
    (s.notify n = { s with report := (s.notify n).report } ∧ (s.notify n).report.stat0 = s.report.stat0 ∧
      (s.notify n).report.stat1 = s.report.stat1) ∧
    (s.raise e = { s with report := (s.raise e).report } ∧ (s.raise e).report.stat0 = s.report.stat0 ∧
      (s.raise e).report.stat1 = s.report.stat1) ∧
    ∀ l : Link, (s.raise e).reportOf l = { s.reportOf l with flags := (s.reportOf l).flags ||| e.set } ∧
      ((s.reportOf l).filter.getLsbD n.kind.category.bit = false → (s.notify n).reportOf l = s.reportOf l) ∧
      ((s.reportOf l).filter.getLsbD n.kind.category.bit = true →
        ((s.reportOf l).queue.length < 32 → (s.notify n).reportOf l = { s.reportOf l with
          queue := (s.reportOf l).queue ++ [⟨s.time, n⟩], flags := (s.reportOf l).flags ||| EventFlag.notice.set }) ∧
        (32 ≤ (s.reportOf l).queue.length → (s.notify n).reportOf l =
          { s.reportOf l with flags := (s.reportOf l).flags ||| EventFlag.overrun.set }))

/-! ### What every step keeps -/

/-- No step stops: every event answers a next state.
It rests on the model's own conventions: log 2, log 26. -/
def Obligations.EveryEventNext : Prop := ∀ (i : Instr) (s : State), ∃ t : State, exec i s = .next t

/-- Every step keeps both notice queues within 32 records (R179).
It rests on the model's own conventions: log 1. -/
def Obligations.StepKeepsReports : Prop := ∀ s t : State, s.reportsWf → step s = .next t → t.reportsWf

/-- Every step keeps the ports' laws: one reply exactly while REPLYING, and at most four REJECTs waiting (R162, R163).
It rests on the model's own conventions: log 1. -/
def Obligations.StepKeepsPorts : Prop := ∀ s t : State, s.portsWf → step s = .next t → t.portsWf

/-- Every step keeps the engines' capacities: N within 120, 24 capture records, miss counts within 3, error counts within 65535, and
a pending update list with at most one entry for each of the positions 1 to 120 (R134, R146); and the law of the position map, that
each pair is bound to at most one seat (R2).
It rests on the model's own conventions: log 1. -/
def Obligations.StepKeepsTrunks : Prop :=
  (∀ s t : State, s.trunksWf → step s = .next t → t.trunksWf) ∧
    ∀ s t : State, s.BindingsLaw → step s = .next t → t.BindingsLaw

/-- Every step keeps the law of the stack, at most 4 frames and INTERRUPTED exactly when there is one (R100, R101), and a draw state
other than zero (R29); and, with the law of the stack, the laws of the floor: a seat is found in one place at most (R15), at most 64
request entries and 8 reply entries (R20, R86), all reply entries name one target, the principal in OPEN and the round's subject in
REPLY_ROUND (R87), a REPLY slot is open in REPLY_ROUND alone and at most one, in the frames by the phase they saved (R92), a chair
slot is in PRIORITY only while a frame names its seat, a president's, as its source (R105, R106), no slot open and no reply waiting
in INTERRUPTED and HALTED (R47, R87), a frame saved in these holds nothing, a held record's remaining time is at most the 2^31 ticks
that a point lying ahead can be away (R72, R80, R84), every seat found is enabled, not ABSENT and of the class its place asks for
(R3, R7, R8), and the policy is in range (R68).
It rests on the model's own conventions: log 1, log 36 (the principal among slots of one tick). -/
def Obligations.StepKeepsStack : Prop :=
  (∀ s t : State, s.floor.stackWf → step s = .next t → t.floor.stackWf) ∧
    (∀ s t : State, s.floor.drawWf → step s = .next t → t.floor.drawWf) ∧
    ∀ s t : State, s.floor.stackWf → s.FloorLaws → step s = .next t → t.FloorLaws

/-- The invariants hold at reset: the report queues, the ports, the engines, the stack, the draw state, the position map, the laws
of the floor and the law of the images.
It rests on the model's own conventions: log 23. -/
def Obligations.InvariantsAtReset : Prop :=
  State.reset.reportsWf ∧ State.reset.portsWf ∧ State.reset.trunksWf ∧ State.reset.floor.stackWf ∧ State.reset.floor.drawWf ∧
    State.reset.BindingsLaw ∧ State.reset.FloorLaws ∧ State.reset.ImageLaw
end

