-- ==== Sys2Proof/Laws/State.lean ====
section
/-! SUPPORT. What each update of State changes, field by field, so that later proofs unfold no record update. -/

namespace Sys2Proof.Machine
namespace State

/-! ### Updates of one block -/

@[simp] theorem modFloor_seats (s : State) (f : Floor → Floor) : (s.modFloor f).seats = s.seats := rfl
@[simp] theorem modFloor_timeBase (s : State) (f : Floor → Floor) : (s.modFloor f).timeBase = s.timeBase := rfl
@[simp] theorem modFloor_trunks (s : State) (f : Floor → Floor) : (s.modFloor f).trunks = s.trunks := rfl
@[simp] theorem modFloor_ports (s : State) (f : Floor → Floor) : (s.modFloor f).ports = s.ports := rfl
@[simp] theorem modFloor_report (s : State) (f : Floor → Floor) : (s.modFloor f).report = s.report := rfl
@[simp] theorem modFloor_pins (s : State) (f : Floor → Floor) : (s.modFloor f).pins = s.pins := rfl
@[simp] theorem modFloor_due (s : State) (f : Floor → Floor) : (s.modFloor f).due = s.due := rfl
@[simp] theorem modFloor_now (s : State) (f : Floor → Floor) : (s.modFloor f).now = s.now := rfl
@[simp] theorem modFloor_freeDraws (s : State) (f : Floor → Floor) : (s.modFloor f).freeDraws = s.freeDraws := rfl
@[simp] theorem modFloor_pending (s : State) (f : Floor → Floor) : (s.modFloor f).pending = s.pending := rfl
@[simp] theorem modFloor_floor (s : State) (f : Floor → Floor) : (s.modFloor f).floor = f s.floor := rfl

@[simp] theorem modTime_seats (s : State) (f : TimeBase → TimeBase) : (s.modTime f).seats = s.seats := rfl
@[simp] theorem modTime_floor (s : State) (f : TimeBase → TimeBase) : (s.modTime f).floor = s.floor := rfl
@[simp] theorem modTime_trunks (s : State) (f : TimeBase → TimeBase) : (s.modTime f).trunks = s.trunks := rfl
@[simp] theorem modTime_ports (s : State) (f : TimeBase → TimeBase) : (s.modTime f).ports = s.ports := rfl
@[simp] theorem modTime_report (s : State) (f : TimeBase → TimeBase) : (s.modTime f).report = s.report := rfl
@[simp] theorem modTime_pins (s : State) (f : TimeBase → TimeBase) : (s.modTime f).pins = s.pins := rfl
@[simp] theorem modTime_due (s : State) (f : TimeBase → TimeBase) : (s.modTime f).due = s.due := rfl
@[simp] theorem modTime_now (s : State) (f : TimeBase → TimeBase) : (s.modTime f).now = s.now := rfl
@[simp] theorem modTime_freeDraws (s : State) (f : TimeBase → TimeBase) : (s.modTime f).freeDraws = s.freeDraws := rfl
@[simp] theorem modTime_pending (s : State) (f : TimeBase → TimeBase) : (s.modTime f).pending = s.pending := rfl
@[simp] theorem modTime_timeBase (s : State) (f : TimeBase → TimeBase) : (s.modTime f).timeBase = f s.timeBase := rfl

@[simp] theorem modTrunk_seats (s : State) (t : TrunkNo) (f : TrunkEngine → TrunkEngine) : (s.modTrunk t f).seats = s.seats := rfl
@[simp] theorem modTrunk_floor (s : State) (t : TrunkNo) (f : TrunkEngine → TrunkEngine) : (s.modTrunk t f).floor = s.floor := rfl
@[simp] theorem modTrunk_timeBase (s : State) (t : TrunkNo) (f : TrunkEngine → TrunkEngine) : (s.modTrunk t f).timeBase = s.timeBase := rfl
@[simp] theorem modTrunk_ports (s : State) (t : TrunkNo) (f : TrunkEngine → TrunkEngine) : (s.modTrunk t f).ports = s.ports := rfl
@[simp] theorem modTrunk_report (s : State) (t : TrunkNo) (f : TrunkEngine → TrunkEngine) : (s.modTrunk t f).report = s.report := rfl
@[simp] theorem modTrunk_pins (s : State) (t : TrunkNo) (f : TrunkEngine → TrunkEngine) : (s.modTrunk t f).pins = s.pins := rfl
@[simp] theorem modTrunk_due (s : State) (t : TrunkNo) (f : TrunkEngine → TrunkEngine) : (s.modTrunk t f).due = s.due := rfl
@[simp] theorem modTrunk_now (s : State) (t : TrunkNo) (f : TrunkEngine → TrunkEngine) : (s.modTrunk t f).now = s.now := rfl
@[simp] theorem modTrunk_freeDraws (s : State) (t : TrunkNo) (f : TrunkEngine → TrunkEngine) : (s.modTrunk t f).freeDraws = s.freeDraws := rfl
@[simp] theorem modTrunk_pending (s : State) (t : TrunkNo) (f : TrunkEngine → TrunkEngine) : (s.modTrunk t f).pending = s.pending := rfl
@[simp] theorem modTrunk_trunks (s : State) (t : TrunkNo) (f : TrunkEngine → TrunkEngine) : (s.modTrunk t f).trunks = s.trunks.set t (f s.trunks[t]) := rfl

@[simp] theorem modBothReports_seats (s : State) (f : LinkReport → LinkReport) : (s.modBothReports f).seats = s.seats := rfl
@[simp] theorem modBothReports_floor (s : State) (f : LinkReport → LinkReport) : (s.modBothReports f).floor = s.floor := rfl
@[simp] theorem modBothReports_timeBase (s : State) (f : LinkReport → LinkReport) : (s.modBothReports f).timeBase = s.timeBase := rfl
@[simp] theorem modBothReports_trunks (s : State) (f : LinkReport → LinkReport) : (s.modBothReports f).trunks = s.trunks := rfl
@[simp] theorem modBothReports_ports (s : State) (f : LinkReport → LinkReport) : (s.modBothReports f).ports = s.ports := rfl
@[simp] theorem modBothReports_pins (s : State) (f : LinkReport → LinkReport) : (s.modBothReports f).pins = s.pins := rfl
@[simp] theorem modBothReports_due (s : State) (f : LinkReport → LinkReport) : (s.modBothReports f).due = s.due := rfl
@[simp] theorem modBothReports_now (s : State) (f : LinkReport → LinkReport) : (s.modBothReports f).now = s.now := rfl
@[simp] theorem modBothReports_freeDraws (s : State) (f : LinkReport → LinkReport) : (s.modBothReports f).freeDraws = s.freeDraws := rfl
@[simp] theorem modBothReports_pending (s : State) (f : LinkReport → LinkReport) : (s.modBothReports f).pending = s.pending := rfl
@[simp] theorem modBothReports_report (s : State) (f : LinkReport → LinkReport) : (s.modBothReports f).report = { s.report with linkA := f s.report.linkA, linkB := f s.report.linkB } := rfl

@[simp] theorem raise_seats (s : State) (e : EventFlag) : (s.raise e).seats = s.seats := rfl
@[simp] theorem raise_floor (s : State) (e : EventFlag) : (s.raise e).floor = s.floor := rfl
@[simp] theorem raise_timeBase (s : State) (e : EventFlag) : (s.raise e).timeBase = s.timeBase := rfl
@[simp] theorem raise_trunks (s : State) (e : EventFlag) : (s.raise e).trunks = s.trunks := rfl
@[simp] theorem raise_ports (s : State) (e : EventFlag) : (s.raise e).ports = s.ports := rfl
@[simp] theorem raise_pins (s : State) (e : EventFlag) : (s.raise e).pins = s.pins := rfl
@[simp] theorem raise_due (s : State) (e : EventFlag) : (s.raise e).due = s.due := rfl
@[simp] theorem raise_now (s : State) (e : EventFlag) : (s.raise e).now = s.now := rfl
@[simp] theorem raise_freeDraws (s : State) (e : EventFlag) : (s.raise e).freeDraws = s.freeDraws := rfl
@[simp] theorem raise_pending (s : State) (e : EventFlag) : (s.raise e).pending = s.pending := rfl
@[simp] theorem raise_report (s : State) (e : EventFlag) : (s.raise e).report = { s.report with linkA := s.report.linkA.raise e, linkB := s.report.linkB.raise e } := rfl

@[simp] theorem notify_seats (s : State) (n : Notice) : (s.notify n).seats = s.seats := rfl
@[simp] theorem notify_floor (s : State) (n : Notice) : (s.notify n).floor = s.floor := rfl
@[simp] theorem notify_timeBase (s : State) (n : Notice) : (s.notify n).timeBase = s.timeBase := rfl
@[simp] theorem notify_trunks (s : State) (n : Notice) : (s.notify n).trunks = s.trunks := rfl
@[simp] theorem notify_ports (s : State) (n : Notice) : (s.notify n).ports = s.ports := rfl
@[simp] theorem notify_pins (s : State) (n : Notice) : (s.notify n).pins = s.pins := rfl
@[simp] theorem notify_due (s : State) (n : Notice) : (s.notify n).due = s.due := rfl
@[simp] theorem notify_now (s : State) (n : Notice) : (s.notify n).now = s.now := rfl
@[simp] theorem notify_freeDraws (s : State) (n : Notice) : (s.notify n).freeDraws = s.freeDraws := rfl
@[simp] theorem notify_pending (s : State) (n : Notice) : (s.notify n).pending = s.pending := rfl
@[simp] theorem notify_report (s : State) (n : Notice) : (s.notify n).report = { s.report with linkA := s.report.linkA.offer s.time n, linkB := s.report.linkB.offer s.time n } := rfl

@[simp] theorem reachMoment_seats (s : State) (m : Nat) : (s.reachMoment m).seats = s.seats := rfl
@[simp] theorem reachMoment_floor (s : State) (m : Nat) : (s.reachMoment m).floor = s.floor := rfl
@[simp] theorem reachMoment_timeBase (s : State) (m : Nat) : (s.reachMoment m).timeBase = s.timeBase := rfl
@[simp] theorem reachMoment_trunks (s : State) (m : Nat) : (s.reachMoment m).trunks = s.trunks := rfl
@[simp] theorem reachMoment_ports (s : State) (m : Nat) : (s.reachMoment m).ports = s.ports := rfl
@[simp] theorem reachMoment_report (s : State) (m : Nat) : (s.reachMoment m).report = s.report := rfl
@[simp] theorem reachMoment_pins (s : State) (m : Nat) : (s.reachMoment m).pins = s.pins := rfl
@[simp] theorem reachMoment_due (s : State) (m : Nat) : (s.reachMoment m).due = s.due := rfl
@[simp] theorem reachMoment_freeDraws (s : State) (m : Nat) : (s.reachMoment m).freeDraws = s.freeDraws := rfl
@[simp] theorem reachMoment_pending (s : State) (m : Nat) : (s.reachMoment m).pending = s.pending := rfl
@[simp] theorem reachMoment_now (s : State) (m : Nat) : (s.reachMoment m).now = max s.now m := rfl

@[simp] theorem modSeat_floor (s : State) (n : Nat) (f : SeatRecord → SeatRecord) : (s.modSeat n f).floor = s.floor := by unfold modSeat; split <;> rfl
@[simp] theorem modSeat_timeBase (s : State) (n : Nat) (f : SeatRecord → SeatRecord) : (s.modSeat n f).timeBase = s.timeBase := by unfold modSeat; split <;> rfl
@[simp] theorem modSeat_trunks (s : State) (n : Nat) (f : SeatRecord → SeatRecord) : (s.modSeat n f).trunks = s.trunks := by unfold modSeat; split <;> rfl
@[simp] theorem modSeat_ports (s : State) (n : Nat) (f : SeatRecord → SeatRecord) : (s.modSeat n f).ports = s.ports := by unfold modSeat; split <;> rfl
@[simp] theorem modSeat_report (s : State) (n : Nat) (f : SeatRecord → SeatRecord) : (s.modSeat n f).report = s.report := by unfold modSeat; split <;> rfl
@[simp] theorem modSeat_pins (s : State) (n : Nat) (f : SeatRecord → SeatRecord) : (s.modSeat n f).pins = s.pins := by unfold modSeat; split <;> rfl
@[simp] theorem modSeat_due (s : State) (n : Nat) (f : SeatRecord → SeatRecord) : (s.modSeat n f).due = s.due := by unfold modSeat; split <;> rfl
@[simp] theorem modSeat_now (s : State) (n : Nat) (f : SeatRecord → SeatRecord) : (s.modSeat n f).now = s.now := by unfold modSeat; split <;> rfl
@[simp] theorem modSeat_freeDraws (s : State) (n : Nat) (f : SeatRecord → SeatRecord) : (s.modSeat n f).freeDraws = s.freeDraws := by unfold modSeat; split <;> rfl
@[simp] theorem modSeat_pending (s : State) (n : Nat) (f : SeatRecord → SeatRecord) : (s.modSeat n f).pending = s.pending := by unfold modSeat; split <;> rfl

@[simp] theorem modPort_seats (s : State) (l : Link) (f : LinkPort → LinkPort) : (s.modPort l f).seats = s.seats := by cases l <;> rfl
@[simp] theorem modPort_floor (s : State) (l : Link) (f : LinkPort → LinkPort) : (s.modPort l f).floor = s.floor := by cases l <;> rfl
@[simp] theorem modPort_timeBase (s : State) (l : Link) (f : LinkPort → LinkPort) : (s.modPort l f).timeBase = s.timeBase := by cases l <;> rfl
@[simp] theorem modPort_trunks (s : State) (l : Link) (f : LinkPort → LinkPort) : (s.modPort l f).trunks = s.trunks := by cases l <;> rfl
@[simp] theorem modPort_report (s : State) (l : Link) (f : LinkPort → LinkPort) : (s.modPort l f).report = s.report := by cases l <;> rfl
@[simp] theorem modPort_pins (s : State) (l : Link) (f : LinkPort → LinkPort) : (s.modPort l f).pins = s.pins := by cases l <;> rfl
@[simp] theorem modPort_due (s : State) (l : Link) (f : LinkPort → LinkPort) : (s.modPort l f).due = s.due := by cases l <;> rfl
@[simp] theorem modPort_now (s : State) (l : Link) (f : LinkPort → LinkPort) : (s.modPort l f).now = s.now := by cases l <;> rfl
@[simp] theorem modPort_freeDraws (s : State) (l : Link) (f : LinkPort → LinkPort) : (s.modPort l f).freeDraws = s.freeDraws := by cases l <;> rfl
@[simp] theorem modPort_pending (s : State) (l : Link) (f : LinkPort → LinkPort) : (s.modPort l f).pending = s.pending := by cases l <;> rfl

@[simp] theorem modReport_seats (s : State) (l : Link) (f : LinkReport → LinkReport) : (s.modReport l f).seats = s.seats := by cases l <;> rfl
@[simp] theorem modReport_floor (s : State) (l : Link) (f : LinkReport → LinkReport) : (s.modReport l f).floor = s.floor := by cases l <;> rfl
@[simp] theorem modReport_timeBase (s : State) (l : Link) (f : LinkReport → LinkReport) : (s.modReport l f).timeBase = s.timeBase := by cases l <;> rfl
@[simp] theorem modReport_trunks (s : State) (l : Link) (f : LinkReport → LinkReport) : (s.modReport l f).trunks = s.trunks := by cases l <;> rfl
@[simp] theorem modReport_ports (s : State) (l : Link) (f : LinkReport → LinkReport) : (s.modReport l f).ports = s.ports := by cases l <;> rfl
@[simp] theorem modReport_pins (s : State) (l : Link) (f : LinkReport → LinkReport) : (s.modReport l f).pins = s.pins := by cases l <;> rfl
@[simp] theorem modReport_due (s : State) (l : Link) (f : LinkReport → LinkReport) : (s.modReport l f).due = s.due := by cases l <;> rfl
@[simp] theorem modReport_now (s : State) (l : Link) (f : LinkReport → LinkReport) : (s.modReport l f).now = s.now := by cases l <;> rfl
@[simp] theorem modReport_freeDraws (s : State) (l : Link) (f : LinkReport → LinkReport) : (s.modReport l f).freeDraws = s.freeDraws := by cases l <;> rfl
@[simp] theorem modReport_pending (s : State) (l : Link) (f : LinkReport → LinkReport) : (s.modReport l f).pending = s.pending := by cases l <;> rfl

/-! ### The accessors -/

/-- The index of a seat number, and only of that one. -/
theorem seatIndex_inj {m n : Nat} {i : Fin 480} (hm : seatIndex m = some i) (hn : seatIndex n = some i) : m = n := by
  simp only [seatIndex, Option.dite_none_right_eq_some, Option.some.injEq] at hm hn
  obtain ⟨h1, rfl⟩ := hm
  obtain ⟨h2, h3⟩ := hn
  simp only [Fin.mk.injEq] at h3
  omega

/-- A change of one seat is seen at that seat (1 to 480). -/
theorem seat_modSeat_self (s : State) {n : Nat} (h : (seatIndex n).isSome) (f : SeatRecord → SeatRecord) :
    (s.modSeat n f).seat n = f (s.seat n) := by
  obtain ⟨i, hi⟩ := Option.isSome_iff_exists.mp h
  simp [seat, modSeat, hi]

/-- A change of one seat leaves every other seat. -/
theorem seat_modSeat_ne (s : State) {m n : Nat} (h : m ≠ n) (f : SeatRecord → SeatRecord) :
    (s.modSeat n f).seat m = s.seat m := by
  unfold seat modSeat
  cases hn : seatIndex n with
  | none => rfl
  | some i =>
    cases hm : seatIndex m with
    | none => rfl
    | some j =>
      have hne : (i : Nat) ≠ j := fun e => h (seatIndex_inj hm (by rw [hn, Fin.ext e]))
      simp [Vector.getElem_set_ne, hne]

/-- A change that does not concern the seat table leaves every seat. -/
theorem seat_congr {s t : State} (h : t.seats = s.seats) (n : Nat) : t.seat n = s.seat n := by
  unfold seat
  rw [h]

/-- A change of one engine is seen there. -/
@[simp] theorem trunk_modTrunk_self (s : State) (t : TrunkNo) (f : TrunkEngine → TrunkEngine) :
    (s.modTrunk t f).trunk t = f (s.trunk t) := by
  simp [trunk, modTrunk]

/-- A change of one engine leaves the others. -/
theorem trunk_modTrunk_ne (s : State) {t u : TrunkNo} (h : u ≠ t) (f : TrunkEngine → TrunkEngine) :
    (s.modTrunk t f).trunk u = s.trunk u := by
  have hne : (t : Nat) ≠ u := fun e => h (Fin.ext e.symm)
  simp [trunk, modTrunk, Vector.getElem_set_ne, hne]

/-- A change of one port is seen there. -/
@[simp] theorem port_modPort_self (s : State) (l : Link) (f : LinkPort → LinkPort) : (s.modPort l f).port l = f (s.port l) := by
  cases l <;> rfl

/-- A change of one port leaves the other. -/
@[simp] theorem port_modPort_other (s : State) (l : Link) (f : LinkPort → LinkPort) :
    (s.modPort l f).port l.other = s.port l.other := by
  cases l <;> rfl

/-- A change of one link's reports is seen there. -/
@[simp] theorem reportOf_modReport_self (s : State) (l : Link) (f : LinkReport → LinkReport) :
    (s.modReport l f).reportOf l = f (s.reportOf l) := by
  cases l <;> rfl

/-- A change of one link's reports leaves the other's. -/
@[simp] theorem reportOf_modReport_other (s : State) (l : Link) (f : LinkReport → LinkReport) :
    (s.modReport l f).reportOf l.other = s.reportOf l.other := by
  cases l <;> rfl

/-- What a change of a port keeps of the two ports together. -/
@[simp] theorem modPort_control (s : State) (l : Link) (f : LinkPort → LinkPort) :
    (s.modPort l f).ports.control = s.ports.control := by
  cases l <;> rfl

@[simp] theorem modPort_takeoverInterval (s : State) (l : Link) (f : LinkPort → LinkPort) :
    (s.modPort l f).ports.takeoverInterval = s.ports.takeoverInterval := by
  cases l <;> rfl

@[simp] theorem modPort_takeoverOpen (s : State) (l : Link) (f : LinkPort → LinkPort) :
    (s.modPort l f).ports.takeoverOpen = s.ports.takeoverOpen := by
  cases l <;> rfl

end State
end Sys2Proof.Machine
end

