-- ==== Sys2Proof/Laws/Frames.lean ====
section
/-! SUPPORT. What the shared operations of a claim leave as it was: one lemma for each, to be cited in place of unfolding it. A
FloorFrame holds for the Floor Engine's operations, a ClaimFrame for those that also write presences, trunks and alarms. -/

namespace Sys2Proof.Machine

/-! ### Reports -/

namespace LinkReport.Grown

theorem refl (r : LinkReport) : r.Grown r :=
  ⟨rfl, rfl, by simp, List.prefix_refl _, id⟩

theorem trans {r q p : LinkReport} (h : r.Grown q) (g : q.Grown p) : r.Grown p :=
  ⟨g.mask.trans h.mask, g.filter.trans h.filter, by
    have h1 := h.flags
    have h2 := g.flags
    rw [← h1, ← BitVec.and_assoc, h2], h.queue.trans g.queue, fun w => g.capacity (h.capacity w)⟩

theorem raise (r : LinkReport) (e : EventFlag) : r.Grown (r.raise e) :=
  ⟨rfl, rfl, by ext i; simp [LinkReport.raise]; exact Or.inl, List.prefix_refl _, id⟩

theorem offer (r : LinkReport) (t : ChamberTime) (n : Notice) : r.Grown (r.offer t n) := by
  unfold LinkReport.offer
  split
  · split
    · refine ⟨rfl, rfl, (raise _ _).flags, List.prefix_append _ _, fun _ => ?_⟩
      simp only [LinkReport.wf, LinkReport.raise, List.length_append, List.length_cons, List.length_nil]
      omega
    · exact raise r _
  · exact refl r

end LinkReport.Grown

namespace ReportUnit.Grown

theorem refl (r : ReportUnit) : r.Grown r := ⟨.refl _, .refl _, rfl, rfl⟩

theorem trans {r q p : ReportUnit} (h : r.Grown q) (g : q.Grown p) : r.Grown p :=
  ⟨h.linkA.trans g.linkA, h.linkB.trans g.linkB, g.stat0.trans h.stat0, g.stat1.trans h.stat1⟩

end ReportUnit.Grown

theorem SeatRecord.sameButFloor_refl (r : SeatRecord) : r.sameButFloor r := rfl

theorem SeatRecord.sameButFloor_trans {r q p : SeatRecord} (h : r.sameButFloor q) (g : q.sameButFloor p) :
    r.sameButFloor p := by
  simp only [SeatRecord.sameButFloor] at *
  rw [g, h]

/-! ### The pending update list (R146) -/

/-- Distinct numbers from 1 to k are at most k. -/
theorem length_le_of_nodup {l : List Nat} {k : Nat} (h : l.Nodup) (g : ∀ x ∈ l, 1 ≤ x ∧ x ≤ k) : l.length ≤ k := by
  rw [← List.toFinset_card_of_nodup h]
  have hs : l.toFinset ⊆ Finset.Icc 1 k := fun x hx => by
    rw [List.mem_toFinset] at hx
    exact Finset.mem_Icc.2 (g x hx)
  simpa using Finset.card_le_card hs

namespace TrunkEngine

/-- A mark changes the pending update list alone. -/
theorem mark_rest (e : TrunkEngine) (p : Nat) (label : Bool) : e.mark p label = { e with pending := (e.mark p label).pending } := by
  unfold mark
  split
  · split <;> rfl
  · rfl

/-- A mark keeps the entries and their label flags. -/
theorem mark_kept (e : TrunkEngine) (p : Nat) (label : Bool) {x : PendingUpdate} (h : x ∈ e.pending) :
    ∃ y ∈ (e.mark p label).pending, y.position = x.position ∧ (x.label = true → y.label = true) := by
  unfold mark
  split
  · split
    · refine ⟨_, List.mem_map_of_mem h, ?_⟩
      split <;> simp_all
    · exact ⟨x, List.mem_append_left _ h, rfl, id⟩
  · exact ⟨x, h, rfl, id⟩

/-- A mark that is taken leaves an entry for its position, with the label flag if it carries it. -/
theorem mark_entered (e : TrunkEngine) (p : Nat) (label : Bool) (h : e.takesMark p = true) :
    ∃ y ∈ (e.mark p label).pending, y.position = p ∧ (label = true → y.label = true) := by
  unfold mark
  rw [if_pos h]
  split
  · rename_i g
    obtain ⟨x, hx, hp⟩ := List.any_eq_true.1 g
    have hp' : x.position = p := of_decide_eq_true hp
    refine ⟨_, List.mem_map_of_mem hx, ?_⟩
    rw [if_pos hp']
    exact ⟨hp', fun hl => by simp [hl]⟩
  · exact ⟨⟨p, label⟩, by simp, rfl, id⟩

theorem takesMark_le {e : TrunkEngine} {p : Nat} (w : e.found ≤ Config.positions) (h : e.takesMark p = true) :
    1 ≤ p ∧ p ≤ Config.positions := by
  unfold takesMark at h
  split at h
  · simp at h
  · exact of_decide_eq_true h
  all_goals
    have h' := of_decide_eq_true h
    exact ⟨h'.1, h'.2.trans w⟩

/-- A mark keeps the law of the pending update list. -/
theorem mark_pendingWf {e : TrunkEngine} (hf : e.found ≤ Config.positions) (w : e.pendingWf) (p : Nat) (label : Bool) :
    (e.mark p label).pendingWf := by
  obtain ⟨_, wd, wr⟩ := w
  have key : ((e.mark p label).pending.map (·.position)).Nodup ∧
      ∀ x ∈ (e.mark p label).pending, 1 ≤ x.position ∧ x.position ≤ Config.positions := by
    unfold mark
    split
    · rename_i ht
      split
      · constructor
        · have : (e.pending.map fun u => if u.position = p then { u with label := u.label || label } else u).map (·.position) =
              e.pending.map (·.position) := by
            rw [List.map_map]
            refine List.map_congr_left fun u _ => ?_
            dsimp only [Function.comp]
            split <;> rfl
          dsimp only
          rw [this]; exact wd
        · intro x hx
          obtain ⟨u, hu, rfl⟩ := List.mem_map.1 hx
          split
          · exact wr u hu
          · exact wr u hu
      · rename_i hn
        have hn' : ∀ u ∈ e.pending, u.position ≠ p := fun u hu hp => hn (List.any_eq_true.2 ⟨u, hu, decide_eq_true hp⟩)
        constructor
        · dsimp only
          rw [List.map_append, List.nodup_append]
          refine ⟨wd, by simp, fun a ha b hb => ?_⟩
          obtain ⟨u, hu, rfl⟩ := List.mem_map.1 ha
          rw [List.map_cons, List.map_nil, List.mem_singleton] at hb
          rw [hb]
          exact hn' u hu
        · intro x hx
          rcases List.mem_append.1 hx with h | h
          · exact wr x h
          · rw [List.mem_singleton.1 h]
            exact takesMark_le hf ht
    · exact ⟨wd, wr⟩
  refine ⟨?_, key⟩
  have := length_le_of_nodup (k := Config.positions) key.1 (fun x hx => by
    obtain ⟨u, hu, rfl⟩ := List.mem_map.1 hx
    exact key.2 u hu)
  simpa using this

theorem mark_wf {e : TrunkEngine} (h : e.wf) (p : Nat) (label : Bool) : (e.mark p label).wf := by
  have hp := mark_pendingWf h.1 h.2.2.2.2.2.2 p label
  rw [mark_rest] at hp ⊢
  exact ⟨h.1, h.2.1, h.2.2.1, h.2.2.2.1, h.2.2.2.2.1, h.2.2.2.2.2.1, hp⟩

/-- Fewer entries keep the law of the pending update list. -/
theorem pendingWf_filter {e : TrunkEngine} (w : e.pendingWf) (f : PendingUpdate → Bool) :
    TrunkEngine.pendingWf { e with pending := e.pending.filter f } :=
  ⟨(List.length_filter_le _ _).trans w.1, w.2.1.sublist (List.filter_sublist.map _), fun x hx => w.2.2 x (List.mem_filter.1 hx).1⟩

end TrunkEngine

/-! ### FloorFrame: the edits of State -/

namespace State.FloorFrame

theorem refl (s : State) : s.FloorFrame s :=
  ⟨rfl, rfl, rfl, rfl, rfl, rfl, rfl, fun _ => rfl, fun _ => rfl, .refl _, fun _ => id, fun _ x h => ⟨x, h, rfl, id⟩,
    fun _ _ _ _ _ h => absurd rfl h⟩

/-- A seat keeps its binding and presence. -/
theorem binding {s t : State} (h : s.FloorFrame t) (n : Nat) :
    (t.seat n).binding = (s.seat n).binding ∧ (t.seat n).presence = (s.seat n).presence := by
  have := h.seats n
  simp only [SeatRecord.sameButFloor] at this
  rw [this]
  exact ⟨rfl, rfl⟩

/-- A trunk takes the marks it took. -/
theorem takesMark {s t : State} (h : s.FloorFrame t) (i : TrunkNo) (p : Nat) : (t.trunk i).takesMark p = (s.trunk i).takesMark p := by
  rw [h.trunks i]
  rfl

theorem trans {s t u : State} (h : s.FloorFrame t) (g : t.FloorFrame u) : s.FloorFrame u :=
  ⟨g.ports.trans h.ports, g.timeBase.trans h.timeBase, g.pins.trans h.pins, g.due.trans h.due, g.now.trans h.now,
    g.freeDraws.trans h.freeDraws, g.pending.trans h.pending, fun i => by rw [g.trunks i, h.trunks i],
    fun n => SeatRecord.sameButFloor_trans (h.seats n) (g.seats n), h.report.trans g.report,
    fun i w => g.pendingWf i (h.pendingWf i w),
    fun i x hx => by
      obtain ⟨y, hy, hp, hl⟩ := h.marksKept i x hx
      obtain ⟨z, hz, hq, hm⟩ := g.marksKept i y hy
      exact ⟨z, hz, hq.trans hp, fun e => hm (hl e)⟩,
    fun n b hb hpr ht hi => by
      by_cases e : (t.seat n).image = (s.seat n).image
      · exact g.imageMarked n b ((h.binding n).1.trans hb) ((h.binding n).2 ▸ hpr) ((h.takesMark _ _).trans ht) (e ▸ hi)
      · obtain ⟨y, hy, hp⟩ := h.imageMarked n b hb hpr ht e
        obtain ⟨z, hz, hq, _⟩ := g.marksKept _ y hy
        exact ⟨z, hz, hq.trans hp⟩⟩

/-- A change that leaves the seats and the trunks and grows the reports. -/
theorem ofRest {s t : State} (seats : t.seats = s.seats) (trunks : t.trunks = s.trunks) (ports : t.ports = s.ports)
    (time : t.timeBase = s.timeBase) (pins : t.pins = s.pins) (due : t.due = s.due) (now : t.now = s.now)
    (draws : t.freeDraws = s.freeDraws) (pending : t.pending = s.pending) (report : s.report.Grown t.report) : s.FloorFrame t := by
  have hs : ∀ n, t.seat n = s.seat n := fun n => by unfold State.seat; rw [seats]
  have ht : ∀ i, t.trunk i = s.trunk i := fun i => by unfold State.trunk; rw [trunks]
  exact ⟨ports, time, pins, due, now, draws, pending, fun i => by rw [ht i], fun n => by rw [hs n]; rfl, report,
    fun i w => by rw [ht i]; exact w, fun i x h => ⟨x, by rw [ht i]; exact h, rfl, id⟩,
    fun n _ _ _ _ h => absurd (by rw [hs n]) h⟩

theorem modFloor (s : State) (f : Floor → Floor) : s.FloorFrame (s.modFloor f) :=
  ofRest rfl rfl rfl rfl rfl rfl rfl rfl rfl (.refl _)

theorem raise (s : State) (e : EventFlag) : s.FloorFrame (s.raise e) :=
  ofRest rfl rfl rfl rfl rfl rfl rfl rfl rfl ⟨.raise _ _, .raise _ _, rfl, rfl⟩

theorem notify (s : State) (n : Notice) : s.FloorFrame (s.notify n) :=
  ofRest rfl rfl rfl rfl rfl rfl rfl rfl rfl ⟨.offer _ _ _, .offer _ _ _, rfl, rfl⟩

/-- What a change of a seat leaves of every seat's record. -/
theorem seat_modSeat_sameButFloor (s : State) (n : Nat) (f : SeatRecord → SeatRecord) (h : ∀ r : SeatRecord, r.sameButFloor (f r))
    (m : Nat) : (s.seat m).sameButFloor ((s.modSeat n f).seat m) := by
  by_cases e : m = n
  · subst e
    cases hi : seatIndex m with
    | none => simp [State.seat, hi, SeatRecord.sameButFloor]
    | some i => rw [seat_modSeat_self s (by simp [hi])]; exact h _
  · rw [seat_modSeat_ne s e]; rfl

/-- A change of a seat that writes what the Floor Engine writes, but for the image. -/
theorem modSeat (s : State) (n : Nat) (f : SeatRecord → SeatRecord) (h : ∀ r : SeatRecord, r.sameButFloor (f r))
    (hi : ∀ r : SeatRecord, (f r).image = r.image) : s.FloorFrame (s.modSeat n f) := by
  have ht : ∀ i, (s.modSeat n f).trunk i = s.trunk i := fun i => by simp [State.trunk]
  refine ⟨by simp, by simp, by simp, by simp, by simp, by simp, by simp, fun i => by rw [ht i], seat_modSeat_sameButFloor s n f h,
    by simpa using .refl _, fun i w => by rw [ht i]; exact w, fun i x hx => ⟨x, by rw [ht i]; exact hx, rfl, id⟩,
    fun m _ _ _ _ hne => absurd ?_ hne⟩
  by_cases e : m = n
  · subst e
    cases hx : seatIndex m with
    | none => simp [State.seat, hx]
    | some i => rw [seat_modSeat_self s (by simp [hx])]; exact hi _
  · rw [seat_modSeat_ne s e]

/-- A mark of a position of a trunk. -/
theorem markTrunk (s : State) (t : TrunkNo) (p : Nat) (label : Bool) : s.FloorFrame (s.modTrunk t (·.mark p label)) := by
  have key : ∀ i, (s.modTrunk t (·.mark p label)).trunk i = if i = t then (s.trunk i).mark p label else s.trunk i := fun i => by
    split
    · rename_i e; subst e; exact trunk_modTrunk_self _ _ _
    · rename_i e; exact trunk_modTrunk_ne s e _
  refine ⟨rfl, rfl, rfl, rfl, rfl, rfl, rfl, fun i => ?_, fun _ => rfl, .refl _, fun i w => ?_, fun i x hx => ?_,
    fun _ _ _ _ _ h => absurd rfl h⟩
  all_goals rw [key i]; split
  · exact TrunkEngine.mark_rest _ _ _
  · rfl
  · exact TrunkEngine.mark_wf w _ _
  · exact w
  · exact TrunkEngine.mark_kept _ _ _ hx
  · exact ⟨x, hx, rfl, id⟩

theorem markSeat (s : State) (n : Nat) (label : Bool) : s.FloorFrame (s.markSeat n label) := by
  unfold State.markSeat
  split
  · exact markTrunk s _ _ _
  · exact refl s

/-- A mark of a bound seat that its trunk takes leaves an entry for its position. -/
theorem markSeat_entered (s : State) (n : Nat) (label : Bool) (b : Binding) (hb : (s.seat n).binding = some b)
    (h : (s.trunk b.trunk).takesMark b.position = true) :
    ∃ y ∈ ((s.markSeat n label).trunk b.trunk).pending, y.position = b.position ∧ (label = true → y.label = true) := by
  unfold State.markSeat
  rw [hb]
  dsimp only
  rw [trunk_modTrunk_self]
  exact TrunkEngine.mark_entered _ _ _ h

theorem settleImage (s : State) (n : Nat) : s.FloorFrame (s.settleImage n) := by
  unfold State.settleImage
  split
  · exact refl s
  · rename_i hne
    dsimp only
    have ht : ∀ i, (s.modSeat n fun r => { r with image := s.image n }).trunk i = s.trunk i := fun i => by simp [State.trunk]
    have hs := seat_modSeat_sameButFloor s n (fun r => { r with image := s.image n }) fun r => rfl
    have him : ∀ m, m ≠ n → (s.modSeat n fun r => { r with image := s.image n }).seat m = s.seat m := fun m e =>
      seat_modSeat_ne s e _
    split
    · rename_i ha
      refine ⟨by simp, by simp, by simp, by simp, by simp, by simp, by simp, fun i => by rw [ht i], hs, by simpa using .refl _,
        fun i w => by rw [ht i]; exact w, fun i x hx => ⟨x, by rw [ht i]; exact hx, rfl, id⟩, fun m _ _ hp _ hc => absurd ?_ hc⟩
      by_cases e : m = n
      · exact absurd (e ▸ ha) hp
      · rw [him m e]
    · have g := markSeat (s.modSeat n fun r => { r with image := s.image n }) n false
      have hb : ∀ m, ((s.modSeat n fun r => { r with image := s.image n }).seat m).binding = (s.seat m).binding := fun m => by
        have := hs m
        simp only [SeatRecord.sameButFloor] at this
        rw [this]
      refine ⟨by rw [g.ports]; simp, by rw [g.timeBase]; simp, by rw [g.pins]; simp, by rw [g.due]; simp, by rw [g.now]; simp,
        by rw [g.freeDraws]; simp, by rw [g.pending]; simp, fun i => by rw [g.trunks i, ht i],
        fun m => SeatRecord.sameButFloor_trans (hs m) (g.seats m), by simpa using g.report,
        fun i w => g.pendingWf i (by rw [ht i]; exact w), fun i x hx => g.marksKept i x (by rw [ht i]; exact hx),
        fun m b hbm _ htm hc => ?_⟩
      by_cases e : m = n
      · subst e
        obtain ⟨y, hy, hp, _⟩ := markSeat_entered _ m false b ((hb m).trans hbm) (by rw [ht]; exact htm)
        exact ⟨y, hy, hp⟩
      · exact absurd (by
          have hm : ((s.modSeat n fun r => { r with image := s.image n }).markSeat n false).seat m =
              (s.modSeat n fun r => { r with image := s.image n }).seat m := by
            unfold State.markSeat; split <;> rfl
          rw [hm, him m e]) hc

/-- A run of edits, each of which is framed. -/
theorem foldl {α : Type} (f : State → α → State) (h : ∀ (s : State) (x : α), s.FloorFrame (f s x)) (l : List α) (s : State) :
    s.FloorFrame (l.foldl f s) := by
  induction l generalizing s with
  | nil => exact refl s
  | cons x xs ih => exact (h s x).trans (ih _)

end State.FloorFrame

/-! ### FloorFrame: the operations of a claim -/

namespace Claim

@[simp] theorem touch_st (c : Claim) (n : Nat) : (c.touch n).st = c.st := by
  unfold touch
  split <;> rfl

@[simp] theorem touchAll_st (c : Claim) (ns : List Nat) : (c.touchAll ns).st = c.st := by
  unfold touchAll
  induction ns generalizing c with
  | nil => rfl
  | cons n ns ih => simp only [List.foldl_cons]; rw [ih]; simp

@[simp] theorem fillPoint_st (c : Claim) : c.fillPoint.st = c.st := rfl
@[simp] theorem servePoint_st (c : Claim) : c.servePoint.st = c.st := rfl
@[simp] theorem modFloor_st (c : Claim) (f : Floor → Floor) : (c.modFloor f).st = c.st.modFloor f := rfl
@[simp] theorem modSeat_st (c : Claim) (n : Nat) (f : SeatRecord → SeatRecord) : (c.modSeat n f).st = c.st.modSeat n f := rfl
@[simp] theorem raise_st (c : Claim) (e : EventFlag) : (c.raise e).st = c.st.raise e := rfl
@[simp] theorem notify_st (c : Claim) (n : Notice) : (c.notify n).st = c.st.notify n := rfl
@[simp] theorem lift_st (c : Claim) (f : State → State) : (c.lift f).st = f c.st := rfl
@[simp] theorem start_st (s : State) : (start s).st = s := rfl

/-- Watching the head of the request list changes nothing itself. -/
@[simp] theorem trackHead_st (c : Claim) (f : Claim → Claim) : (c.trackHead f).st = (f c).st := by
  simp only [trackHead]
  split
  · rfl
  · simp

/-! Each lemma extends a frame that reaches the claim at hand by one operation more. -/

variable {s : State} {c : Claim}

theorem modFloor_frame (h : s.FloorFrame c.st) (f : Floor → Floor) : s.FloorFrame (c.modFloor f).st := h.trans (.modFloor _ _)
theorem raise_frame (h : s.FloorFrame c.st) (e : EventFlag) : s.FloorFrame (c.raise e).st := h.trans (.raise _ _)
theorem notify_frame (h : s.FloorFrame c.st) (n : Notice) : s.FloorFrame (c.notify n).st := h.trans (.notify _ _)
theorem touch_frame (h : s.FloorFrame c.st) (n : Nat) : s.FloorFrame (c.touch n).st := by rwa [touch_st]
theorem touchAll_frame (h : s.FloorFrame c.st) (ns : List Nat) : s.FloorFrame (c.touchAll ns).st := by rwa [touchAll_st]
theorem fillPoint_frame (h : s.FloorFrame c.st) : s.FloorFrame c.fillPoint.st := h
theorem servePoint_frame (h : s.FloorFrame c.st) : s.FloorFrame c.servePoint.st := h

/-- A change of a seat that writes what the Floor Engine writes, but for the image. -/
theorem modSeat_frame (h : s.FloorFrame c.st) (n : Nat) (f : SeatRecord → SeatRecord) (hf : ∀ r : SeatRecord, r.sameButFloor (f r))
    (hi : ∀ r : SeatRecord, (f r).image = r.image) : s.FloorFrame (c.modSeat n f).st := h.trans (.modSeat _ _ _ hf hi)

theorem trackHead_frame {f : Claim → Claim} (h : s.FloorFrame (f c).st) : s.FloorFrame (c.trackHead f).st := by
  rwa [trackHead_st]

/-- A run of framed operations. -/
theorem foldl_frame {α : Type} (f : Claim → α → Claim) (hf : ∀ (c : Claim) (x : α), s.FloorFrame c.st → s.FloorFrame (f c x).st)
    (l : List α) (h : s.FloorFrame c.st) : s.FloorFrame (l.foldl f c).st := by
  induction l generalizing c with
  | nil => exact h
  | cons x xs ih => exact ih (hf c x h)

theorem setPhase_frame (h : s.FloorFrame c.st) (p : Phase) : s.FloorFrame (c.setPhase p).st := by
  unfold setPhase
  try dsimp only [fillPoint_st, servePoint_st]
  repeat' split
  all_goals apply_rules [modFloor_frame, raise_frame, notify_frame]

theorem beginRound_frame (h : s.FloorFrame c.st) (n : Nat) : s.FloorFrame (c.beginRound n).st := by
  unfold beginRound
  try dsimp only [fillPoint_st, servePoint_st]
  all_goals apply_rules [notify_frame, setPhase_frame, modFloor_frame]

theorem endRound_frame (h : s.FloorFrame c.st) : s.FloorFrame c.endRound.st := by
  unfold endRound
  try dsimp only [fillPoint_st, servePoint_st]
  apply_rules [setPhase_frame, modFloor_frame, notify_frame]

theorem releaseSlot_frame (h : s.FloorFrame c.st) (i : Fin 6) (why : Reason) : s.FloorFrame (c.releaseSlot i why).st := by
  unfold releaseSlot
  try dsimp only [fillPoint_st, servePoint_st]
  repeat' split
  all_goals apply_rules [touch_frame, raise_frame, notify_frame, modFloor_frame]

theorem closeSlot_frame (h : s.FloorFrame c.st) (i : Fin 6) (why : Reason) : s.FloorFrame (c.closeSlot i why).st := by
  unfold closeSlot
  try dsimp only [fillPoint_st, servePoint_st]
  repeat' split
  all_goals apply_rules [beginRound_frame, endRound_frame, releaseSlot_frame]

theorem grantSpeak_frame (h : s.FloorFrame c.st) (n : Nat) (o : Origin) (a : Option Nat) :
    s.FloorFrame (c.grantSpeak n o a).st := by
  unfold grantSpeak
  try dsimp only [fillPoint_st, servePoint_st]
  repeat' split
  all_goals
    first
    | exact h
    | apply_rules [raise_frame, notify_frame, touch_frame, modSeat_frame, trackHead_frame, modFloor_frame]

theorem grantReply_frame (h : s.FloorFrame c.st) (n : Nat) : s.FloorFrame (c.grantReply n).st := by
  unfold grantReply
  try dsimp only [fillPoint_st, servePoint_st]
  repeat' split
  all_goals apply_rules [raise_frame, notify_frame, touch_frame, modFloor_frame]

theorem fillLoop_frame (h : s.FloorFrame c.st) (k : Nat) : s.FloorFrame (fillLoop k c).st := by
  induction k generalizing c with
  | zero => exact h
  | succ k ih =>
    unfold fillLoop
    try dsimp only [fillPoint_st, servePoint_st]
    repeat' split
    all_goals apply_rules [ih, grantSpeak_frame, closeSlot_frame]

theorem fill_frame (h : s.FloorFrame c.st) : s.FloorFrame c.fill.st := by
  unfold fill
  try dsimp only [fillPoint_st, servePoint_st]
  repeat' split
  all_goals apply_rules [fillLoop_frame]

theorem serve_frame (h : s.FloorFrame c.st) : s.FloorFrame c.serve.st := by
  unfold serve
  try dsimp only [fillPoint_st, servePoint_st]
  repeat' split
  all_goals apply_rules [endRound_frame, grantReply_frame]

theorem settleFloor_frame (h : s.FloorFrame c.st) : s.FloorFrame c.settleFloor.st := by
  unfold settleFloor
  try dsimp only [fillPoint_st, servePoint_st]
  repeat' split
  all_goals apply_rules [fill_frame, serve_frame]

theorem dequeue_frame (h : s.FloorFrame c.st) (n : Nat) (why : Reason) : s.FloorFrame (c.dequeue n why).st := by
  unfold dequeue
  try dsimp only [fillPoint_st, servePoint_st]
  repeat' split
  all_goals apply_rules [touch_frame, notify_frame, trackHead_frame, modFloor_frame]

theorem clearRequests_frame (h : s.FloorFrame c.st) (why : Reason) : s.FloorFrame (c.clearRequests why).st := by
  unfold clearRequests
  exact foldl_frame _ (fun c e h => touch_frame (notify_frame h _) _) _ (modFloor_frame h _)

theorem dropReply_frame (h : s.FloorFrame c.st) (n : Nat) (why : Reason) : s.FloorFrame (c.dropReply n why).st := by
  unfold dropReply
  try dsimp only [fillPoint_st, servePoint_st]
  repeat' split
  all_goals apply_rules [touch_frame, raise_frame, notify_frame, modFloor_frame]

theorem dropReplies_frame (h : s.FloorFrame c.st) (ns : List Nat) (why : Reason) : s.FloorFrame (c.dropReplies ns why).st :=
  foldl_frame _ (fun _ _ h => dropReply_frame h _ _) _ h

theorem clearReplies_frame (h : s.FloorFrame c.st) (why : Reason) : s.FloorFrame (c.clearReplies why).st := by
  unfold clearReplies
  try dsimp only [fillPoint_st, servePoint_st]
  split
  · exact h
  · exact servePoint_frame (raise_frame (foldl_frame _ (fun c e h => touch_frame (notify_frame h _) _) _ (modFloor_frame h _)) _)

theorem setChairMode_frame (h : s.FloorFrame c.st) (i : Fin 2) (m : ChairState) : s.FloorFrame (c.setChairMode i m).st := by
  unfold setChairMode
  try dsimp only [fillPoint_st, servePoint_st]
  repeat' split
  all_goals apply_rules [raise_frame, modFloor_frame]

theorem openChair_frame (h : s.FloorFrame c.st) (i : Fin 2) (n : Nat) (m : ChairState) :
    s.FloorFrame (c.openChair i n m).st := by
  unfold openChair
  try dsimp only [fillPoint_st, servePoint_st]
  apply_rules [touch_frame, raise_frame, notify_frame, modFloor_frame]

theorem closeChair_frame (h : s.FloorFrame c.st) (i : Fin 2) (why : Reason) : s.FloorFrame (c.closeChair i why).st := by
  unfold closeChair
  try dsimp only [fillPoint_st, servePoint_st]
  repeat' split
  all_goals apply_rules [touch_frame, raise_frame, notify_frame, modFloor_frame]

theorem expire_frame (h : s.FloorFrame c.st) (i : Fin 6) : s.FloorFrame (c.expire i).st := by
  unfold expire
  try dsimp only [fillPoint_st, servePoint_st]
  split
  · exact h
  · split
    · exact closeSlot_frame (touch_frame (notify_frame (raise_frame (modSeat_frame (modFloor_frame h _) _ _ (fun r => by rfl) fun r => by rfl) _) _) _) _ _
    · exact touch_frame (notify_frame (raise_frame (modSeat_frame (modFloor_frame h _) _ _ (fun r => by rfl) fun r => by rfl) _) _) _

theorem refuse_frame (h : s.FloorFrame c.st) (n : Nat) (b : Button) (why : PressRefusal) :
    s.FloorFrame (c.refuse n b why).st := by
  unfold refuse
  try dsimp only [fillPoint_st, servePoint_st]
  split
  · exact notify_frame h _
  · exact touch_frame (modSeat_frame (notify_frame h _) _ _ (fun r => by rfl) fun r => by rfl) _

theorem dropHeld_frame (h : s.FloorFrame c.st) (n : Nat) (why : Reason) : s.FloorFrame (c.dropHeld n why).st := by
  unfold dropHeld
  split
  · exact touch_frame (raise_frame (foldl_frame _ (fun c e h => notify_frame h _) _
      (foldl_frame _ (fun c e h => notify_frame h _) _ (modFloor_frame h _))) _) _
  · exact h

theorem closeSlotOf_frame (h : s.FloorFrame c.st) (n : Nat) (why : Reason) : s.FloorFrame (c.closeSlotOf n why).st := by
  unfold closeSlotOf
  try dsimp only [fillPoint_st, servePoint_st]
  repeat' split
  all_goals apply_rules [closeSlot_frame]

theorem closeChairOf_frame (h : s.FloorFrame c.st) (n : Nat) (why : Reason) : s.FloorFrame (c.closeChairOf n why).st := by
  unfold closeChairOf
  try dsimp only [fillPoint_st, servePoint_st]
  repeat' split
  all_goals apply_rules [closeChair_frame]

/-- Removing a seat from wherever it is found is the Floor Engine's work alone. -/
theorem removeSeat_frame (h : s.FloorFrame c.st) (n : Nat) (why : Reason) : s.FloorFrame (c.removeSeat n why).st := by
  unfold removeSeat
  try dsimp only [fillPoint_st, servePoint_st]
  apply_rules [dropHeld_frame, closeChairOf_frame, closeSlotOf_frame, dropReply_frame, dequeue_frame]

theorem removeSeats_frame (h : s.FloorFrame c.st) (ns : List Nat) (why : Reason) : s.FloorFrame (c.removeSeats ns why).st :=
  foldl_frame _ (fun _ _ h => removeSeat_frame h _ _) _ (dropReplies_frame h _ _)

theorem discardFrames_frame (h : s.FloorFrame c.st) : s.FloorFrame c.discardFrames.st := by
  unfold discardFrames
  try dsimp only [fillPoint_st, servePoint_st]
  split
  · exact h
  · exact raise_frame (foldl_frame _ (fun c e h => touchAll_frame (notify_frame (modFloor_frame h _) _) _) _ h) _

theorem clearFloor_frame (h : s.FloorFrame c.st) : s.FloorFrame c.clearFloor.st := by
  unfold clearFloor
  exact clearReplies_frame (foldl_frame _ (fun c x h => releaseSlot_frame h _ _) _
    (foldl_frame _ (fun c i h => setChairMode_frame h _ _) _ (discardFrames_frame h))) _

theorem haltFloor_frame (h : s.FloorFrame c.st) : s.FloorFrame c.haltFloor.st := by
  unfold haltFloor
  split
  · exact h
  · exact raise_frame (setPhase_frame (modFloor_frame (clearFloor_frame h) _) _) _

theorem closeGate_frame (h : s.FloorFrame c.st) : s.FloorFrame c.closeGate.st := by
  unfold closeGate
  try dsimp only [fillPoint_st, servePoint_st]
  repeat' split
  all_goals apply_rules [raise_frame, modFloor_frame]

/-- Settling an event's version and images. -/
theorem close_frame (before : List RequestEntry) (c : Claim) : c.st.FloorFrame (close before c) := by
  unfold close
  refine State.FloorFrame.trans ?_ (State.FloorFrame.foldl _ State.FloorFrame.settleImage _ _)
  try dsimp only [fillPoint_st, servePoint_st]
  split
  · exact (State.FloorFrame.modFloor _ _).trans (.raise _ _)
  · exact .refl _

/-! ### The stack -/

theorem returnAtOverflow_frame (h : s.FloorFrame c.st) (n : Nat) (r : ChairState) (why : Reason) :
    s.FloorFrame (c.returnAtOverflow n r why).st := by
  unfold returnAtOverflow
  try dsimp only [fillPoint_st, servePoint_st]
  repeat' split
  all_goals apply_rules [setChairMode_frame, closeChair_frame]

theorem overflow_frame (h : s.FloorFrame c.st) (src : Source) : s.FloorFrame ((c.overflow src).1).st := by
  unfold overflow
  try dsimp only [fillPoint_st, servePoint_st]
  repeat' split
  all_goals apply_rules [returnAtOverflow_frame, modFloor_frame, touchAll_frame, raise_frame, notify_frame]

theorem pushFrame_frame (h : s.FloorFrame c.st) (src : Source) (x : Option ChairState) :
    s.FloorFrame (c.pushFrame src x).st := by
  unfold pushFrame
  try dsimp only [fillPoint_st, servePoint_st]
  repeat' split
  all_goals apply_rules [touchAll_frame, raise_frame, modFloor_frame]

theorem takePriority_frame (h : s.FloorFrame c.st) (n : Nat) : s.FloorFrame (c.takePriority n).st := by
  unfold takePriority
  try dsimp only [fillPoint_st, servePoint_st]
  repeat' split
  all_goals apply_rules [setChairMode_frame, openChair_frame, notify_frame, closeChair_frame]

theorem reportPush_frame (h : s.FloorFrame c.st) (src : Source) : s.FloorFrame (c.reportPush src).st := by
  unfold reportPush
  try dsimp only [fillPoint_st, servePoint_st]
  apply_rules [raise_frame, notify_frame, setPhase_frame]

theorem pushLink_frame (h : s.FloorFrame c.st) (l : Link) : s.FloorFrame (c.pushLink l).st := by
  unfold pushLink
  try dsimp only [fillPoint_st, servePoint_st]
  apply_rules [reportPush_frame, pushFrame_frame, overflow_frame]

theorem pushSeat_frame (h : s.FloorFrame c.st) (n : Nat) : s.FloorFrame (c.pushSeat n).st := by
  unfold pushSeat
  exact reportPush_frame (takePriority_frame (pushFrame_frame (overflow_frame h _) _ _) _) _

theorem restoreRecord_frame {x : Claim × Nat × Nat} (h : s.FloorFrame x.1.st) (r : HeldSlot) :
    s.FloorFrame (restoreRecord x r).1.st := by
  unfold restoreRecord
  try dsimp only [fillPoint_st, servePoint_st]
  repeat' split
  all_goals apply_rules [touch_frame, notify_frame, raise_frame, modFloor_frame]

theorem restoreRecords_frame (l : List HeldSlot) {x : Claim × Nat × Nat} (h : s.FloorFrame x.1.st) :
    s.FloorFrame (l.foldl restoreRecord x).1.st := by
  induction l generalizing x with
  | nil => exact h
  | cons r l ih => exact ih (restoreRecord_frame h r)

theorem returnEntry_frame (h : s.FloorFrame c.st) (e : HeldReply) : s.FloorFrame (c.returnEntry e).st := by
  unfold returnEntry
  try dsimp only [fillPoint_st, servePoint_st]
  refine touch_frame (raise_frame ?_ _) _
  split
  · exact notify_frame h _
  · exact modFloor_frame h _

theorem reconcile_frame (h : s.FloorFrame c.st) (p : Phase) : s.FloorFrame (c.reconcile p).st := by
  unfold reconcile
  try dsimp only [fillPoint_st, servePoint_st]
  repeat' split
  all_goals apply_rules [beginRound_frame, endRound_frame]

theorem expireRestored_frame (h : s.FloorFrame c.st) : s.FloorFrame c.expireRestored.st := by
  unfold expireRestored
  refine foldl_frame _ (fun c i h => ?_) _ h
  try dsimp only [fillPoint_st, servePoint_st]
  split
  · exact expire_frame h _
  · exact h

theorem returnChair_frame (h : s.FloorFrame c.st) (fr : StackFrame) (why : Reason) :
    s.FloorFrame (c.returnChair fr why).st := by
  unfold returnChair
  try dsimp only [fillPoint_st, servePoint_st]
  repeat' split
  all_goals apply_rules [setChairMode_frame, closeChair_frame]

theorem pop_frame (h : s.FloorFrame c.st) (why : Reason) : s.FloorFrame ((c.pop why).1).st := by
  unfold pop
  split
  · exact h
  · dsimp only
    refine fillPoint_frame (raise_frame (notify_frame (returnChair_frame (expireRestored_frame (reconcile_frame
      (foldl_frame _ (fun c e h => returnEntry_frame h e) _ (restoreRecords_frame _ ?_)) _)) _ _) _) _)
    exact setPhase_frame (modFloor_frame h _) _

/-! ### Presses and the events of an advance -/

theorem enqueue_frame (h : s.FloorFrame c.st) (i : Nat) (e : RequestEntry) : s.FloorFrame (c.enqueue i e).st := by
  unfold enqueue
  try dsimp only [fillPoint_st, servePoint_st]
  apply_rules [touch_frame, notify_frame, trackHead_frame, modFloor_frame]

theorem joinRequests_frame (h : s.FloorFrame c.st) (n : Nat) (t : ChamberTime) : s.FloorFrame (c.joinRequests n t).st := by
  unfold joinRequests
  try dsimp only [fillPoint_st, servePoint_st]
  repeat' split
  all_goals apply_rules [refuse_frame, enqueue_frame]

theorem pressReq_frame (h : s.FloorFrame c.st) (n : Nat) (t : ChamberTime) : s.FloorFrame (c.pressReq n t).st := by
  unfold pressReq
  try dsimp only [fillPoint_st, servePoint_st]
  repeat' split
  all_goals apply_rules [dequeue_frame, closeSlotOf_frame, refuse_frame, joinRequests_frame]

theorem joinReplies_frame (h : s.FloorFrame c.st) (n : Nat) (t : ChamberTime) : s.FloorFrame (c.joinReplies n t).st := by
  unfold joinReplies
  try dsimp only [fillPoint_st, servePoint_st]
  repeat' split
  all_goals apply_rules [refuse_frame, touch_frame, raise_frame, notify_frame, modFloor_frame]

theorem pressRpl_frame (h : s.FloorFrame c.st) (n : Nat) (t : ChamberTime) : s.FloorFrame (c.pressRpl n t).st := by
  unfold pressRpl
  try dsimp only [fillPoint_st, servePoint_st]
  repeat' split
  all_goals apply_rules [dropReply_frame, refuse_frame, joinReplies_frame]

theorem pressMic_frame (h : s.FloorFrame c.st) (n : Nat) : s.FloorFrame (c.pressMic n).st := by
  unfold pressMic
  try dsimp only [fillPoint_st, servePoint_st]
  repeat' split
  all_goals apply_rules [refuse_frame, closeChair_frame, openChair_frame]

theorem pressCut_frame (h : s.FloorFrame c.st) (n : Nat) : s.FloorFrame (c.pressCut n).st := by
  unfold pressCut
  try dsimp only [fillPoint_st, servePoint_st]
  repeat' split
  all_goals apply_rules [closeSlot_frame, refuse_frame]

theorem pressNext_frame (h : s.FloorFrame c.st) (n : Nat) : s.FloorFrame (c.pressNext n).st := by
  unfold pressNext
  try dsimp only [fillPoint_st, servePoint_st]
  repeat' split
  all_goals apply_rules [refuse_frame, grantSpeak_frame]

theorem pressPrio_frame (h : s.FloorFrame c.st) (n : Nat) : s.FloorFrame (c.pressPrio n).st := by
  unfold pressPrio
  split
  · exact pop_frame h _
  · split
    · exact refuse_frame h _ _ _
    · exact pushSeat_frame h _

/-- A press is the Floor Engine's work alone, whatever its button and its outcome. -/
theorem press_frame (h : s.FloorFrame c.st) (n : Nat) (t : ChamberTime) (b : Button) : s.FloorFrame (c.press n t b).st := by
  unfold press
  try dsimp only [fillPoint_st, servePoint_st]
  repeat' split
  all_goals apply_rules [refuse_frame, pressReq_frame, pressRpl_frame, pressMic_frame, pressCut_frame, pressNext_frame, pressPrio_frame]

theorem applyRecord_frame (h : s.FloorFrame c.st) (r : CaptureRecord) : s.FloorFrame (c.applyRecord r).st := by
  unfold applyRecord
  exact foldl_frame _ (fun c b h => press_frame h _ _ b) _ h

theorem passSlot_frame (h : s.FloorFrame c.st) (i : Fin 6) : s.FloorFrame (c.passSlot i).st := by
  unfold passSlot
  try dsimp only [fillPoint_st, servePoint_st]
  repeat' split
  all_goals apply_rules [expire_frame, touch_frame]

theorem deadlinePass_frame (h : s.FloorFrame c.st) : s.FloorFrame c.deadlinePass.st := by
  unfold deadlinePass
  exact foldl_frame _ (fun c i h => passSlot_frame h i) _ h

theorem endRefusals_frame (h : s.FloorFrame c.st) : s.FloorFrame c.endRefusals.st := by
  unfold endRefusals
  exact foldl_frame _ (fun c x h => touch_frame (modSeat_frame h _ _ (fun r => by rfl) fun r => by rfl) _) _ h

theorem reorder_frame (h : s.FloorFrame c.st) (l : List RequestEntry) : s.FloorFrame (c.reorder l).st := by
  unfold reorder
  try dsimp only [fillPoint_st, servePoint_st]
  apply_rules [trackHead_frame, modFloor_frame]

theorem clearAll_frame (h : s.FloorFrame c.st) : s.FloorFrame c.clearAll.st := by
  unfold clearAll
  exact setPhase_frame (modFloor_frame (clearRequests_frame
    (foldl_frame _ (fun c i h => closeChair_frame h _ _) _ (clearFloor_frame h)) _) _) _

theorem grantHost_frame (h : s.FloorFrame c.st) (n : Nat) (e : Bool) (a : Option Nat) :
    s.FloorFrame (c.grantHost n e a).st := by
  unfold grantHost
  refine grantSpeak_frame (c := ite _ _ _) ?_ _ _ _
  repeat' split
  all_goals apply_rules [closeSlot_frame]

theorem closeAllSlots_frame (h : s.FloorFrame c.st) : s.FloorFrame c.closeAllSlots.st := by
  unfold closeAllSlots
  refine foldl_frame _ (fun c x h => closeSlot_frame h _ _) _ ?_
  split
  · exact clearReplies_frame h _
  · exact h

end Claim

/-- One event of the Floor Engine leaves what its body leaves: the fill, the version and the images add nothing else. -/
theorem State.event_frame (s : State) (body : Claim → Claim) (h : s.FloorFrame (body (.start s)).st) :
    s.FloorFrame (s.event body) :=
  (Claim.settleFloor_frame h).trans (Claim.close_frame _ _)

end Sys2Proof.Machine
end

