-- ==== Sys2Proof/Laws/Claims.lean ====
section
/-! SUPPORT. What the claims that also write presences, bindings, trunks and alarms leave as it was, and that the engines keep
their capacities (R134): one lemma for each shared operation, to be cited in place of unfolding it. -/

namespace Sys2Proof.Machine

/-! ### One engine keeps its capacities -/

namespace TrunkEngine

theorem initial_wf : TrunkEngine.initial.wf := by
  refine ⟨by decide, by decide, fun p => ?_, by decide, by decide, by decide, Nat.zero_le _, List.nodup_nil, by simp [TrunkEngine.initial]⟩
  unfold station
  split <;> simp [TrunkEngine.initial]

theorem station_modStation (e : TrunkEngine) (p q : Nat) (f : PositionState → PositionState) :
    (e.modStation p f).station q = if q = p ∧ 1 ≤ p ∧ p ≤ 120 then f (e.station q) else e.station q := by
  unfold modStation
  split
  · rename_i h
    by_cases hq : q = p
    · subst hq; simp [station, h]
    · simp only [station, hq, false_and, if_false]
      split
      · rw [Vector.getElem_set_ne]; omega
      · rfl
  · rename_i h
    rw [if_neg (by omega)]

/-- A change of one position's state that keeps the miss count within 3. -/
theorem modStation_wf {e : TrunkEngine} (h : e.wf) (p : Nat) (f : PositionState → PositionState)
    (hf : ∀ x, x.miss ≤ 3 → (f x).miss ≤ 3) : (e.modStation p f).wf := by
  have h' : (e.modStation p f).found = e.found ∧ (e.modStation p f).fifo = e.fifo ∧ (e.modStation p f).crcErrors = e.crcErrors ∧
      (e.modStation p f).formatErrors = e.formatErrors ∧ (e.modStation p f).misses = e.misses ∧
      (e.modStation p f).pending = e.pending := by
    unfold modStation; split <;> exact ⟨rfl, rfl, rfl, rfl, rfl, rfl⟩
  obtain ⟨a, b, c, d, g, k⟩ := h
  refine ⟨h'.1 ▸ a, h'.2.1 ▸ b, fun q => ?_, h'.2.2.1 ▸ d, h'.2.2.2.1 ▸ g, h'.2.2.2.2.1 ▸ k.1, ?_⟩
  swap
  · unfold pendingWf; rw [h'.2.2.2.2.2]; exact k.2
  rw [station_modStation]
  split
  · exact hf _ (c q)
  · exact c q

theorem unmark_wf {e : TrunkEngine} (h : e.wf) (p : Nat) : (e.unmark p).wf :=
  ⟨h.1, h.2.1, h.2.2.1, h.2.2.2.1, h.2.2.2.2.1, h.2.2.2.2.2.1, pendingWf_filter h.2.2.2.2.2.2 _⟩

theorem abandon_wf {e : TrunkEngine} (h : e.wf) : e.abandon.wf :=
  ⟨h.1, Nat.zero_le _, h.2.2.1, h.2.2.2.1, h.2.2.2.2.1, h.2.2.2.2.2.1, Nat.zero_le _, List.nodup_nil, by simp [abandon]⟩

theorem forget_wf {e : TrunkEngine} (h : e.wf) : e.forget.wf :=
  ⟨Nat.zero_le _, h.2.1, fun p => by unfold station; split <;> simp [forget], h.2.2.2⟩

theorem takeSettings_wf {e : TrunkEngine} (h : e.wf) : e.takeSettings.wf := h

theorem send_wf {e : TrunkEngine} (h : e.wf) (m : Nat) (bytes : List Byte) : (e.send m bytes).wf := h

theorem begin_wf {e : TrunkEngine} (h : e.wf) (m : Nat) (x : Bool) (p : Nat) (g : Bool) (bytes : List Byte) :
    (e.begin m x p g bytes).wf := h

theorem startSweep_wf {e : TrunkEngine} (h : e.wf) (m : Nat) : (e.startSweep m).wf := h

theorem countUp_le (n : Nat) : countUp n ≤ 65535 := Nat.min_le_left _ _

end TrunkEngine

/-! ### ClaimFrame: the edits of State -/

namespace State.ClaimFrame

theorem refl (s : State) : s.ClaimFrame s := ⟨rfl, rfl, rfl, rfl, rfl, rfl, rfl, fun _ => id, .refl _⟩

theorem trans {s t u : State} (h : s.ClaimFrame t) (g : t.ClaimFrame u) : s.ClaimFrame u :=
  ⟨g.ports.trans h.ports, by rw [g.timeBase, h.timeBase], g.pins.trans h.pins, g.due.trans h.due, g.now.trans h.now,
    g.freeDraws.trans h.freeDraws, g.pending.trans h.pending, fun i w => g.trunks i (h.trunks i w), h.report.trans g.report⟩

/-- A claim of the Floor Engine alone is a claim. -/
theorem ofFloor {s t : State} (h : s.FloorFrame t) : s.ClaimFrame t :=
  ⟨h.ports, by rw [h.timeBase], h.pins, h.due, h.now, h.freeDraws, h.pending, fun i w => h.pendingWf i w, h.report⟩

theorem modSeat (s : State) (n : Nat) (f : SeatRecord → SeatRecord) : s.ClaimFrame (s.modSeat n f) := by
  refine ⟨by simp, by simp, by simp, by simp, by simp, by simp, by simp, fun i => ?_, by simpa using .refl _⟩
  simp [State.trunk]

theorem modTrunk (s : State) (t : TrunkNo) (f : TrunkEngine → TrunkEngine) (h : ∀ e : TrunkEngine, e.wf → (f e).wf) :
    s.ClaimFrame (s.modTrunk t f) := by
  refine ⟨rfl, rfl, rfl, rfl, rfl, rfl, rfl, fun i w => ?_, .refl _⟩
  by_cases e : i = t
  · subst e; rw [trunk_modTrunk_self]; exact h _ w
  · rwa [trunk_modTrunk_ne s e]

theorem modAlarms (s : State) (f : TimeBase → Vector Alarm 3) : s.ClaimFrame (s.modTime fun t => { t with alarms := f t }) :=
  ⟨rfl, rfl, rfl, rfl, rfl, rfl, rfl, fun _ => id, .refl _⟩

end State.ClaimFrame

/-! ### ClaimFrame: the operations of a claim -/

namespace Claim

variable {s : State} {c d : Claim}

/-- A step that the Floor Engine makes alone extends a claim. -/
theorem floorStep (h : s.ClaimFrame c.st) (g : c.st.FloorFrame d.st) : s.ClaimFrame d.st := h.trans (.ofFloor g)

theorem modSeat_claim (h : s.ClaimFrame c.st) (n : Nat) (f : SeatRecord → SeatRecord) : s.ClaimFrame (c.modSeat n f).st :=
  h.trans (.modSeat _ _ _)

theorem modTrunk_claim (h : s.ClaimFrame c.st) (t : TrunkNo) (f : TrunkEngine → TrunkEngine)
    (hf : ∀ e : TrunkEngine, e.wf → (f e).wf) : s.ClaimFrame (c.modTrunk t f).st := h.trans (.modTrunk _ _ _ hf)

theorem raise_claim (h : s.ClaimFrame c.st) (e : EventFlag) : s.ClaimFrame (c.raise e).st :=
  floorStep h (raise_frame (.refl _) e)

theorem notify_claim (h : s.ClaimFrame c.st) (n : Notice) : s.ClaimFrame (c.notify n).st :=
  floorStep h (notify_frame (.refl _) n)

theorem trackHead_claim {f : Claim → Claim} (h : s.ClaimFrame (f c).st) : s.ClaimFrame (c.trackHead f).st := by
  rwa [trackHead_st]

theorem foldl_claim {α : Type} (f : Claim → α → Claim) (hf : ∀ (c : Claim) (x : α), s.ClaimFrame c.st → s.ClaimFrame (f c x).st)
    (l : List α) (h : s.ClaimFrame c.st) : s.ClaimFrame (l.foldl f c).st := by
  induction l generalizing c with
  | nil => exact h
  | cons x xs ih => exact ih (hf c x h)

theorem removeSeat_claim (h : s.ClaimFrame c.st) (n : Nat) (why : Reason) : s.ClaimFrame (c.removeSeat n why).st :=
  floorStep h (removeSeat_frame (.refl _) n why)

theorem removeSeats_claim (h : s.ClaimFrame c.st) (ns : List Nat) (why : Reason) : s.ClaimFrame (c.removeSeats ns why).st :=
  floorStep h (removeSeats_frame (.refl _) ns why)

theorem dropReplies_claim (h : s.ClaimFrame c.st) (ns : List Nat) (why : Reason) : s.ClaimFrame (c.dropReplies ns why).st :=
  floorStep h (dropReplies_frame (.refl _) ns why)

/-! Presence (R8) -/

theorem setPresence_claim (h : s.ClaimFrame c.st) (n : Nat) (p : Presence) : s.ClaimFrame (c.setPresence n p).st := by
  unfold setPresence
  exact trackHead_claim (modSeat_claim h _ _)

theorem reportPresence_claim (h : s.ClaimFrame c.st) (n : Nat) (p : Presence) : s.ClaimFrame (c.reportPresence n p).st := by
  unfold reportPresence
  exact raise_claim (notify_claim h _) _

theorem markReturn_claim (h : s.ClaimFrame c.st) (n : Nat) : s.ClaimFrame (c.markReturn n).st :=
  h.trans (.ofFloor (.markSeat _ _ _))

theorem leave_claim (h : s.ClaimFrame c.st) (n : Nat) : s.ClaimFrame (c.leave n).st := by
  have h1 := removeSeat_claim h n .absent
  have h2 : ∀ (d : Claim) (o : Option Binding), s.ClaimFrame d.st → s.ClaimFrame (match o with
      | some b => d.lift (·.modTrunk b.trunk (·.unmark b.position))
      | none => d).st := fun d o g => by
    cases o with
    | none => exact g
    | some b => exact g.trans (.modTrunk d.st b.trunk _ fun e w => TrunkEngine.unmark_wf w _)
  exact h2 _ _ h1

theorem becomeAbsent_claim (h : s.ClaimFrame c.st) (n : Nat) : s.ClaimFrame (c.becomeAbsent n).st := by
  unfold becomeAbsent
  exact leave_claim (reportPresence_claim (setPresence_claim h _ _) _ _) _

theorem becomePresent_claim (h : s.ClaimFrame c.st) (n : Nat) : s.ClaimFrame (c.becomePresent n).st := by
  have g := markReturn_claim (reportPresence_claim (setPresence_claim h n .present) n .present) n
  unfold becomePresent
  split
  · exact h
  · exact setPresence_claim h _ _
  · exact g
  · dsimp only
    repeat' split
    all_goals exact g

/-! Alarms (R131) -/

theorem fireAlarm_claim (h : s.ClaimFrame c.st) (i : Fin 3) : s.ClaimFrame (c.fireAlarm i).st := by
  have g : ∀ (f : Alarm → Alarm) (e : EventFlag) (n : Notice), s.ClaimFrame (((c.modAlarm i f).raise e).notify n).st :=
    fun f e n => notify_claim (raise_claim (h.trans (.modAlarms _ fun t => t.alarms.set i (f t.alarms[i]))) _) _
  unfold fireAlarm
  dsimp only
  split
  · exact g _ _ _
  · exact floorStep (g _ _ _) (haltFloor_frame (.refl _))
  · exact floorStep (g _ _ _) (closeGate_frame (.refl _))

theorem checkAlarms_claim (h : s.ClaimFrame c.st) : s.ClaimFrame c.checkAlarms.st := by
  unfold checkAlarms
  refine foldl_claim _ (fun c i h => ?_) _ h
  split
  · exact fireAlarm_claim h _
  · exact h

/-! Bindings (R5 to R7) -/

theorem releasePair_claim (h : s.ClaimFrame c.st) (n : Nat) : s.ClaimFrame (c.releasePair n).st := by
  unfold releasePair
  split
  · exact h
  · exact modSeat_claim (modTrunk_claim h _ _ fun e w => TrunkEngine.mark_wf w _ _) _ _

theorem bind_claim (h : s.ClaimFrame c.st) (n : Nat) (b : Binding) : s.ClaimFrame (c.bind n b).st := by
  have g := fun f => modSeat_claim (releasePair_claim h n) n f
  unfold bind
  dsimp only
  rw [touch_st]
  split
  · exact modTrunk_claim (g _) _ _ fun e w => TrunkEngine.mark_wf w _ _
  · exact g _

theorem unbind_claim (h : s.ClaimFrame c.st) (n : Nat) : s.ClaimFrame (c.unbind n).st := by
  unfold unbind
  dsimp only
  rw [fillPoint_st]
  exact modSeat_claim (releasePair_claim (removeSeat_claim h _ _) _) _ _

theorem setEnabled_claim (h : s.ClaimFrame c.st) (v : Bool) (n : Nat) : s.ClaimFrame (c.setEnabled v n).st := by
  unfold setEnabled
  dsimp only
  repeat' split
  · exact h
  · exact modSeat_claim h _ _
  · rw [fillPoint_st]
    exact removeSeat_claim (modSeat_claim h _ _) _ _

/-! Trunks (R135, R138, R141, R154) -/

theorem setTrunkState_claim (h : s.ClaimFrame c.st) (t : TrunkNo) (x : TrunkState) : s.ClaimFrame (c.setTrunkState t x).st := by
  unfold setTrunkState
  refine raise_claim (notify_claim (modTrunk_claim h _ _ ?_) _) _
  exact fun e w => w

theorem setPresences_claim (h : s.ClaimFrame c.st) (ns : List Nat) (p : Presence) : s.ClaimFrame (c.setPresences ns p).st := by
  unfold setPresences
  exact trackHead_claim (foldl_claim _ (fun c n h => modSeat_claim h _ _) _ h)

theorem closeTrunkSlots_claim (h : s.ClaimFrame c.st) (t : TrunkNo) : s.ClaimFrame (c.closeTrunkSlots t).st := by
  unfold closeTrunkSlots
  exact foldl_claim _ (fun c i h => floorStep h (closeChair_frame (.refl _) _ _)) _
    (foldl_claim _ (fun c x h => floorStep h (closeSlot_frame (.refl _) _ _)) _ h)

theorem startEnumeration_claim (h : s.ClaimFrame c.st) (t : TrunkNo) : s.ClaimFrame (c.startEnumeration t).st := by
  have h1 := raise_claim (setPresences_claim (closeTrunkSlots_claim
    (modTrunk_claim h t TrunkEngine.abandon fun e w => TrunkEngine.abandon_wf w) t)
      (((((c.modTrunk t TrunkEngine.abandon).closeTrunkSlots t).st.boundOn t).map (·.1))) .unconfirmed) .presence
  exact setTrunkState_claim (modTrunk_claim h1 t (fun e => e.forget.takeSettings) fun e (w : e.wf) => TrunkEngine.forget_wf (e := e) w) t _

theorem disableTrunk_claim (h : s.ClaimFrame c.st) (t : TrunkNo) : s.ClaimFrame (c.disableTrunk t).st := by
  unfold disableTrunk
  dsimp only
  rw [fillPoint_st]
  refine setTrunkState_claim ?_ _ _
  refine modTrunk_claim ?_ _ _ (fun e w => TrunkEngine.forget_wf w)
  refine removeSeats_claim ?_ _ _
  refine raise_claim ?_ _
  refine setPresences_claim ?_ _ _
  refine closeTrunkSlots_claim ?_ _
  exact modTrunk_claim h _ _ fun e w => TrunkEngine.abandon_wf w

theorem completeEnumeration_claim (h : s.ClaimFrame c.st) (t : TrunkNo) : s.ClaimFrame (c.completeEnumeration t).st := by
  unfold completeEnumeration
  dsimp only
  rw [fillPoint_st]
  refine setTrunkState_claim ?_ _ _
  refine raise_claim ?_ _
  refine modTrunk_claim ?_ _ _ (fun e w => ⟨w.1, w.2.1, w.2.2.1, w.2.2.2.1, w.2.2.2.2.1, w.2.2.2.2.2.1,
    TrunkEngine.pendingWf_filter w.2.2.2.2.2.2 _⟩)
  refine foldl_claim _ (fun c n h => leave_claim h _) _ ?_
  refine dropReplies_claim ?_ _ _
  refine foldl_claim _ (fun c n h => markReturn_claim h _) _ ?_
  exact setPresences_claim (setPresences_claim h _ _) _ _

/-! Answers (R148 to R153) -/

theorem modStation_claim (h : s.ClaimFrame c.st) (t : TrunkNo) (p : Nat) (f : PositionState → PositionState)
    (hf : ∀ x, x.miss ≤ 3 → (f x).miss ≤ 3) : s.ClaimFrame (c.modTrunk t (·.modStation p f)).st :=
  modTrunk_claim h _ _ fun _ w => TrunkEngine.modStation_wf w _ _ hf

theorem checkMic_claim (h : s.ClaimFrame c.st) (t : TrunkNo) (p : Nat) (x y : Bool) : s.ClaimFrame (c.checkMic t p x y).st := by
  have g := fun v => modStation_claim h t p (fun z => { z with mismatch := v }) fun _ w => w
  unfold checkMic
  dsimp only
  split
  · exact g _
  · split
    · exact h
    · split
      · exact modSeat_claim (notify_claim (g _) _) _ _
      · exact notify_claim (g _) _

theorem acknowledge_claim (h : s.ClaimFrame c.st) (t : TrunkNo) (p : Nat) : s.ClaimFrame (c.acknowledge t p).st := by
  unfold acknowledge
  exact modStation_claim h _ _ _ fun _ w => w

theorem takeReport_claim (h : s.ClaimFrame c.st) (t : TrunkNo) (p : Nat) (r : StatusReport) :
    s.ClaimFrame (c.takeReport t p r).st := by
  unfold takeReport
  dsimp only
  repeat' split
  · exact h
  · rename_i hroom
    refine acknowledge_claim ?_ _ _
    refine h.trans ⟨rfl, rfl, rfl, rfl, rfl, rfl, rfl, fun i w => ?_, .refl _⟩
    by_cases e : i = t
    · subst e
      simp only [modTrunk, lift_st, State.trunk_modTrunk_self]
      refine ⟨w.1, ?_, w.2.2⟩
      simp only [List.length_append, List.length_cons, List.length_nil]
      omega
    · simp only [modTrunk, lift_st]
      rwa [State.trunk_modTrunk_ne _ e]
  · exact h
  · exact acknowledge_claim (notify_claim h _) _ _

theorem recordKind_claim (h : s.ClaimFrame c.st) (t : TrunkNo) (p : Nat) (r : StatusReport) :
    s.ClaimFrame (c.recordKind t p r).st := by
  unfold recordKind
  split
  · exact modSeat_claim h _ _
  · exact h

theorem takeStatus_claim (h : s.ClaimFrame c.st) (t : TrunkNo) (x : Transaction) (r : StatusReport) :
    s.ClaimFrame (c.takeStatus t x r).st := by
  have h1 : s.ClaimFrame (if (c.st.trunk t).state = .fault then c.setTrunkState t .running else c).st := by
    split
    · exact setTrunkState_claim h _ _
    · exact h
  have h2 := modTrunk_claim h1 t (fun e => { e.modStation x.position fun y => { y with miss := 0 } with sweepHeard := true })
    fun e w => TrunkEngine.modStation_wf w x.position (fun y => { y with miss := 0 }) fun _ _ => Nat.zero_le _
  unfold takeStatus
  dsimp only
  split
  · refine modStation_claim (checkMic_claim (recordKind_claim ?_ _ _ _) _ _ _ _) _ _ _ fun _ w => w
    split
    · exact becomePresent_claim h2 _
    · exact h2
  · refine takeReport_claim (checkMic_claim (recordKind_claim ?_ _ _ _) _ _ _ _) _ _ _
    split
    · exact becomePresent_claim h2 _
    · exact h2

theorem takeProbe_claim (h : s.ClaimFrame c.st) (t : TrunkNo) (p : Nat) (r : StatusReport) :
    s.ClaimFrame (c.takeProbe t p r).st := by
  unfold takeProbe
  exact recordKind_claim (modStation_claim h _ _ _ fun _ _ => Nat.zero_le _) _ _ _

theorem takeMiss_claim (h : s.ClaimFrame c.st) (t : TrunkNo) (p : Nat) : s.ClaimFrame (c.takeMiss t p).st := by
  have g := modStation_claim h t p (fun y => { y with miss := min 3 (((c.st.trunk t).station p).miss + 1) })
    fun _ _ => Nat.min_le_left _ _
  unfold takeMiss
  dsimp only
  repeat' split
  all_goals first | exact g | exact becomeAbsent_claim g _ | exact setPresence_claim g _ _

/-! The intake (R26 to R31) -/

theorem intake_claim (h : s.ClaimFrame c.st) : s.ClaimFrame c.intake.st := by
  unfold intake
  have h1 : s.ClaimFrame (c.lift fun s => { s with trunks := s.trunks.map fun e =>
      { e with fifo := e.fifo.filter fun r => !r.qualifies c.time } }).st := by
    refine h.trans ⟨rfl, rfl, rfl, rfl, rfl, rfl, rfl, fun i w => ?_, .refl _⟩
    simp only [State.trunk, lift_st, Fin.getElem_fin, Vector.getElem_map]
    exact ⟨w.1, Nat.le_trans (List.length_filter_le _ _) w.2.1, w.2.2⟩
  dsimp only
  have h2 : ∀ (ns : List Notice) (l : List CaptureRecord) (w : Word), s.ClaimFrame
      (l.foldl applyRecord ((ns.foldl notify (c.lift fun s => { s with trunks := s.trunks.map fun e =>
        { e with fifo := e.fifo.filter fun r => !r.qualifies c.time } })).modFloor fun f => { f with draw := w })).st :=
    fun ns l w => foldl_claim _ (fun c r h => floorStep h (applyRecord_frame (.refl _) r)) _
      (floorStep (foldl_claim _ (fun c n h => notify_claim h n) _ h1) (modFloor_frame (.refl _) _))
  split <;> exact h2 _ _ _

end Claim

/-- One event leaves what its body leaves: the fill, the version and the images are the Floor Engine's. -/
theorem State.event_claim (s : State) (body : Claim → Claim) (h : s.ClaimFrame (body (.start s)).st) :
    s.ClaimFrame (s.event body) :=
  h.trans (.ofFloor ((Claim.settleFloor_frame (.refl _)).trans (Claim.close_frame _ _)))

end Sys2Proof.Machine
end

