-- ==== Sys2Proof/Laws/Events.lean ====
section
/-! SUPPORT. What one event leaves of the floor and of the reports: the end of an event (the version and the images) and the fill
point or serve point before it, each said once, so that a proof about an event looks at its body alone. -/

namespace Sys2Proof.Machine
namespace State

/-! ### The images -/

@[simp] theorem markSeat_floor (s : State) (n : Nat) (label : Bool) : (s.markSeat n label).floor = s.floor := by
  unfold markSeat; split <;> rfl
@[simp] theorem markSeat_report (s : State) (n : Nat) (label : Bool) : (s.markSeat n label).report = s.report := by
  unfold markSeat; split <;> rfl
@[simp] theorem markSeat_seats (s : State) (n : Nat) (label : Bool) : (s.markSeat n label).seats = s.seats := by
  unfold markSeat; split <;> rfl

@[simp] theorem settleImage_floor (s : State) (n : Nat) : (s.settleImage n).floor = s.floor := by
  unfold settleImage; dsimp only; repeat' split
  all_goals simp
@[simp] theorem settleImage_report (s : State) (n : Nat) : (s.settleImage n).report = s.report := by
  unfold settleImage; dsimp only; repeat' split
  all_goals simp

/-- Settling the image of a seat leaves every seat's record but its image. -/
theorem settleImage_seat (s : State) (n m : Nat) : (s.settleImage n).seat m = { s.seat m with image := ((s.settleImage n).seat m).image } := by
  have key : ∀ i : Image, (s.modSeat n fun r => { r with image := i }).seat m =
      { s.seat m with image := ((s.modSeat n fun r => { r with image := i }).seat m).image } := by
    intro i
    by_cases e : m = n
    · subst e
      cases hi : seatIndex m with
      | none => simp [seat, hi]
      | some j => rw [seat_modSeat_self s (by simp [hi])]
    · rw [seat_modSeat_ne s e]
  unfold settleImage
  dsimp only
  repeat' split
  · rfl
  · exact key _
  · have h : ∀ u : State, (u.markSeat n false).seat m = u.seat m := fun u => by unfold seat; rw [markSeat_seats]
    rw [h]; exact key _

@[simp] theorem foldl_settleImage_floor (l : List Nat) (s : State) : (l.foldl settleImage s).floor = s.floor := by
  induction l generalizing s with
  | nil => rfl
  | cons n l ih => rw [List.foldl_cons, ih, settleImage_floor]
@[simp] theorem foldl_settleImage_report (l : List Nat) (s : State) : (l.foldl settleImage s).report = s.report := by
  induction l generalizing s with
  | nil => rfl
  | cons n l ih => rw [List.foldl_cons, ih, settleImage_report]

/-- Settling images leaves every seat's record but the images. -/
theorem foldl_settleImage_seat (l : List Nat) (s : State) (m : Nat) :
    (l.foldl settleImage s).seat m = { s.seat m with image := ((l.foldl settleImage s).seat m).image } := by
  induction l generalizing s with
  | nil => rfl
  | cons n l ih =>
    rw [List.foldl_cons]
    have h := ih (s.settleImage n)
    rw [settleImage_seat] at h
    exact h

end State

namespace Claim

/-! ### What the small operations leave of an event's bookkeeping -/

@[simp] theorem touch_tookEntry (c : Claim) (n : Nat) : (c.touch n).tookEntry = c.tookEntry := by unfold touch; split <;> rfl
@[simp] theorem touch_fillDue (c : Claim) (n : Nat) : (c.touch n).fillDue = c.fillDue := by unfold touch; split <;> rfl
@[simp] theorem touch_serveDue (c : Claim) (n : Nat) : (c.touch n).serveDue = c.serveDue := by unfold touch; split <;> rfl
@[simp] theorem touchAll_tookEntry (c : Claim) (ns : List Nat) : (c.touchAll ns).tookEntry = c.tookEntry := by
  unfold touchAll
  induction ns generalizing c with
  | nil => rfl
  | cons n ns ih => rw [List.foldl_cons, ih, touch_tookEntry]
@[simp] theorem touchAll_fillDue (c : Claim) (ns : List Nat) : (c.touchAll ns).fillDue = c.fillDue := by
  unfold touchAll
  induction ns generalizing c with
  | nil => rfl
  | cons n ns ih => rw [List.foldl_cons, ih, touch_fillDue]
@[simp] theorem trackHead_tookEntry (c : Claim) (f : Claim → Claim) : (c.trackHead f).tookEntry = (f c).tookEntry := by
  unfold trackHead; dsimp only; split <;> simp
@[simp] theorem trackHead_fillDue (c : Claim) (f : Claim → Claim) : (c.trackHead f).fillDue = (f c).fillDue := by
  unfold trackHead; dsimp only; split <;> simp
@[simp] theorem modFloor_tookEntry (c : Claim) (f : Floor → Floor) : (c.modFloor f).tookEntry = c.tookEntry := rfl
@[simp] theorem modFloor_fillDue (c : Claim) (f : Floor → Floor) : (c.modFloor f).fillDue = c.fillDue := rfl
@[simp] theorem modSeat_tookEntry (c : Claim) (n : Nat) (f : SeatRecord → SeatRecord) : (c.modSeat n f).tookEntry = c.tookEntry := rfl
@[simp] theorem modSeat_fillDue (c : Claim) (n : Nat) (f : SeatRecord → SeatRecord) : (c.modSeat n f).fillDue = c.fillDue := rfl
@[simp] theorem raise_tookEntry (c : Claim) (e : EventFlag) : (c.raise e).tookEntry = c.tookEntry := rfl
@[simp] theorem raise_fillDue (c : Claim) (e : EventFlag) : (c.raise e).fillDue = c.fillDue := rfl
@[simp] theorem notify_tookEntry (c : Claim) (n : Notice) : (c.notify n).tookEntry = c.tookEntry := rfl
@[simp] theorem notify_fillDue (c : Claim) (n : Notice) : (c.notify n).fillDue = c.fillDue := rfl
@[simp] theorem fillPoint_tookEntry (c : Claim) : c.fillPoint.tookEntry = c.tookEntry := rfl
@[simp] theorem fillPoint_fillDue (c : Claim) : c.fillPoint.fillDue = true := rfl
@[simp] theorem servePoint_tookEntry (c : Claim) : c.servePoint.tookEntry = c.tookEntry := rfl
@[simp] theorem servePoint_fillDue (c : Claim) : c.servePoint.fillDue = c.fillDue := rfl

/-! ### The end of an event -/

/-- What the end of an event leaves of the floor: the version alone is counted, for a list left different or a grant's entry
(R22, R49). -/
theorem close_floor (before : List RequestEntry) (c : Claim) : (close before c).floor =
    if before ≠ c.floor.requests ∨ c.tookEntry then { c.floor with listVersion := c.floor.listVersion + 1 } else c.floor := by
  unfold close
  dsimp only
  rw [State.foldl_settleImage_floor]
  split <;> rfl

/-- What the end of an event leaves of the reports: the LIST flag alone is added, where the version is counted (R22, R23). -/
theorem close_report (before : List RequestEntry) (c : Claim) : (close before c).report =
    if before ≠ c.floor.requests ∨ c.tookEntry then (c.st.raise .list).report else c.st.report := by
  unfold close
  dsimp only
  rw [State.foldl_settleImage_report]
  split <;> rfl

/-- What the end of an event leaves of a seat: all but its image. -/
theorem close_seat (before : List RequestEntry) (c : Claim) (n : Nat) :
    (close before c).seat n = { c.st.seat n with image := ((close before c).seat n).image } := by
  unfold close
  dsimp only
  rw [State.foldl_settleImage_seat]
  split <;> rfl

/-! ### The fill point and the serve point -/

/-- In HALTED and INTERRUPTED nothing follows an event. -/
theorem settleFloor_shut (c : Claim) (h : c.floor.phase = .halted ∨ c.floor.phase = .interrupted) :
    c.settleFloor = { c with fillDue := false, serveDue := false } := by
  unfold settleFloor
  rcases h with h | h <;> simp only [h]

/-- In OPEN under MANUAL grants nothing follows an event (R50). -/
theorem settleFloor_manual (c : Claim) (h : c.floor.phase = .openFloor) (g : c.policy.grantMode = .manual) :
    c.settleFloor = { c with fillDue := false, serveDue := false } := by
  have hf : c.fill = c := by unfold fill; rw [if_neg (fun x => by rw [g] at x; exact absurd x.2 (by decide))]
  unfold settleFloor
  simp only [h, hf]
  split <;> simp

/-- In OPEN nothing follows an event that is no fill point. -/
theorem settleFloor_quiet (c : Claim) (h : c.floor.phase = .openFloor) (g : c.fillDue = false) :
    c.settleFloor = { c with fillDue := false, serveDue := false } := by
  unfold settleFloor
  simp [h, g]

/-- In REPLY_ROUND, while a REPLY slot is open, nothing follows an event (R92). -/
theorem settleFloor_served (c : Claim) (h : c.floor.phase = .replyRound) (g : c.floor.replySlot.isSome = true) :
    c.settleFloor = { c with fillDue := false, serveDue := false } := by
  have hs : c.serve = c := by unfold serve; rw [if_pos g]
  unfold settleFloor
  simp only [h, hs]
  split <;> simp

end Claim

namespace State

/-! ### One event -/

/-- The floor after one event: its body's, with the fill or the serve point, and the version counted (R22, R49, R50, R92). -/
theorem event_floor (s : State) (body : Claim → Claim) : (s.event body).floor =
    if s.floor.requests ≠ (body (.start s)).settleFloor.floor.requests ∨ (body (.start s)).settleFloor.tookEntry then
      { (body (.start s)).settleFloor.floor with listVersion := (body (.start s)).settleFloor.floor.listVersion + 1 }
    else (body (.start s)).settleFloor.floor :=
  Claim.close_floor _ _

/-- The reports after one event: its body's, with those of the fill or the serve point, and LIST where the version is counted. -/
theorem event_report (s : State) (body : Claim → Claim) : (s.event body).report =
    if s.floor.requests ≠ (body (.start s)).settleFloor.floor.requests ∨ (body (.start s)).settleFloor.tookEntry then
      ((body (.start s)).settleFloor.st.raise .list).report
    else (body (.start s)).settleFloor.st.report :=
  Claim.close_report _ _

/-- A seat after one event: as its body and the fill or the serve point left it, but for its image. -/
theorem event_seat (s : State) (body : Claim → Claim) (n : Nat) :
    (s.event body).seat n = { (body (.start s)).settleFloor.st.seat n with image := ((s.event body).seat n).image } :=
  Claim.close_seat _ _ _

/-- An event after whose body nothing follows, which leaves the request list as it was and in which no grant took an entry, leaves
the floor and the reports of its body. -/
theorem event_of_quiet (s : State) (body : Claim → Claim) (c : Claim) (hb : body (.start s) = c)
    (hq : c.settleFloor = { c with fillDue := false, serveDue := false }) (hr : c.floor.requests = s.floor.requests)
    (ht : c.tookEntry = false) : (s.event body).floor = c.floor ∧ (s.event body).report = c.st.report := by
  rw [event_floor, event_report, hb, hq]
  have h : ¬ (s.floor.requests ≠ c.floor.requests ∨ c.tookEntry = true) := by simp [hr, ht]
  exact ⟨if_neg h, if_neg h⟩

end State
end Sys2Proof.Machine
end

