-- ==== Sys2Proof/Laws/Links.lean ====
section
/-! SUPPORT. The Link Ports: that every operation on a port keeps the laws of R162 and R163, and what taking a held command
comes to in each of its four cases (R164, R165). -/

namespace Sys2Proof.Machine

/-! ### One port -/

namespace LinkPort

theorem initial_wf : LinkPort.initial.wf := ⟨rfl, Nat.zero_le _⟩

/-- A port's laws rest on its command and its transmit queue alone. -/
theorem wf_congr {p q : LinkPort} (h : p.wf) (hc : q.command = p.command) (ht : q.transmit = p.transmit) : q.wf := by
  obtain ⟨a, b⟩ := h
  refine ⟨?_, ?_⟩
  · unfold replies at *; rw [hc, ht]; exact a
  · unfold waitingRejects at *; rw [ht]; exact b

theorem filter_tail_append {α : Type} (f : α → Bool) (l : List α) (x : α) :
    ((l ++ [x]).tail.filter f).length ≤ (l.tail.filter f).length + (if f x then 1 else 0) := by
  cases l with
  | nil => simp
  | cons y ys => simp [List.filter_append, List.filter_singleton]; cases f x <;> simp

theorem reject_wf {p : LinkPort} (h : p.wf) (tag : Byte) (r : RejectReason) : (p.reject tag r).wf := by
  unfold reject
  split
  · rename_i room
    obtain ⟨a, b⟩ := h
    refine ⟨?_, ?_⟩
    · simpa [replies, TxFrame.isReject, List.filter_append] using a
    · have := filter_tail_append TxFrame.isReject p.transmit (.reject (rejectFrame tag r))
      simp only [waitingRejects, TxFrame.isReject, if_true] at *
      omega
  · exact h

theorem endFrame_wf {p : LinkPort} (h : p.wf) : p.endFrame.wf := wf_congr h rfl rfl

theorem timeout_wf {p : LinkPort} (h : p.wf) : p.timeout.wf := endFrame_wf (reject_wf h _ _)

/-- A whole frame held by an IDLE port (R163). -/
theorem hold_wf {p : LinkPort} (h : p.wf) (hi : p.command = .idle) (c : HeldCommand) :
    ({ p with command := .holding c } : LinkPort).wf := by
  obtain ⟨a, b⟩ := h
  exact ⟨by simpa [replies, hi] using a, b⟩

/-- A whole frame: held by an IDLE port, rejected by any other (R163). -/
theorem holdOrReject_wf {p : LinkPort} (h : p.wf) (c : HeldCommand) (tag : Byte) (r : RejectReason) :
    (if p.command = .idle then { p with command := .holding c } else p.reject tag r : LinkPort).wf := by
  split
  · exact hold_wf h (by assumption) c
  · exact reject_wf h tag r

/-- A reply handed to a HOLDING port (R163). -/
theorem answer_wf {p : LinkPort} {c : HeldCommand} (h : p.wf) (hc : p.command = .holding c) (bytes : List Byte) (x : Bool) :
    ({ p with command := .replying, transmit := p.transmit ++ [.reply bytes x] } : LinkPort).wf := by
  obtain ⟨a, b⟩ := h
  refine ⟨?_, ?_⟩
  · simpa [replies, hc, TxFrame.isReject, List.filter_append] using a
  · have := filter_tail_append TxFrame.isReject p.transmit (.reply bytes x)
    simp only [waitingRejects, TxFrame.isReject] at *
    simp only [Bool.false_eq_true, if_false] at this
    omega

theorem waiting_tail {f : TxFrame} {rest : List TxFrame} :
    (rest.tail.filter TxFrame.isReject).length ≤ ((f :: rest).tail.filter TxFrame.isReject).length := by
  cases rest with
  | nil => simp
  | cons g r => simp only [List.tail_cons, List.filter_cons]; split <;> simp

/-- The reply in transmission has been sent (R163). -/
theorem replySent_wf {p : LinkPort} {bytes : List Byte} {x : Bool} {rest : List TxFrame} (h : p.wf)
    (ht : p.transmit = .reply bytes x :: rest) : ({ p with transmit := rest, command := .idle } : LinkPort).wf := by
  obtain ⟨a, b⟩ := h
  refine ⟨?_, Nat.le_trans (waiting_tail (f := .reply bytes x)) (by simpa [waitingRejects, ht] using b)⟩
  simp only [replies, ht, List.filter_cons, TxFrame.isReject, Bool.not_false, if_true, List.length_cons] at a ⊢
  split at a
  · simpa using a
  · omega

/-- The REJECT in transmission has been sent (R162). -/
theorem rejectSent_wf {p : LinkPort} {bytes : List Byte} {rest : List TxFrame} (h : p.wf)
    (ht : p.transmit = .reject bytes :: rest) : ({ p with transmit := rest } : LinkPort).wf := by
  obtain ⟨a, b⟩ := h
  refine ⟨?_, Nat.le_trans (waiting_tail (f := .reject bytes)) (by simpa [waitingRejects, ht] using b)⟩
  simpa [replies, ht, TxFrame.isReject] using a

end LinkPort

/-! ### Both ports -/

namespace State

theorem portsWf_iff (s : State) : s.portsWf ↔ ∀ l, (s.port l).wf :=
  ⟨fun h l => by cases l; exacts [h.1, h.2], fun h => ⟨h .a, h .b⟩⟩

@[simp] theorem control_modPort (s : State) (l : Link) (f : LinkPort → LinkPort) :
    (s.modPort l f).ports.control = s.ports.control := by cases l <;> rfl

theorem modPort_portsWf {s : State} (h : s.portsWf) (l : Link) (f : LinkPort → LinkPort) (hf : (s.port l).wf → (f (s.port l)).wf) :
    (s.modPort l f).portsWf := by
  cases l
  · exact ⟨hf h.1, h.2⟩
  · exact ⟨h.1, hf h.2⟩

theorem portsWf_congr {s t : State} (h : s.portsWf) (ha : t.ports.portA = s.ports.portA) (hb : t.ports.portB = s.ports.portB) :
    t.portsWf := by unfold portsWf; rw [ha, hb]; exact h

theorem settleSilence_portsWf {s : State} (h : s.portsWf) (l : Link) : (s.settleSilence l).portsWf :=
  modPort_portsWf h l _ fun w => by split; exacts [LinkPort.timeout_wf w, w]

theorem completeFrame_portsWf {s : State} (h : s.portsWf) (l : Link) (frame : List Byte) : (s.completeFrame l frame).portsWf := by
  unfold completeFrame
  dsimp only
  split
  · have h1 : (s.modPort l fun p => { p.endFrame with lastValid := s.time }).portsWf :=
      modPort_portsWf h l _ fun w => LinkPort.wf_congr w rfl rfl
    refine modPort_portsWf ?_ l _ fun w => ?_
    · split
      · exact portsWf_congr h1 rfl rfl
      · exact h1
    · exact LinkPort.holdOrReject_wf w _ _ _
  · exact modPort_portsWf h l _ fun w => LinkPort.endFrame_wf (LinkPort.reject_wf w _ _)

/-- Receiving a byte keeps the ports' laws, whatever the byte does (R160). -/
theorem receiveByte_portsWf {s : State} (h : s.portsWf) (l : Link) (b : Byte) (m : Nat) : (s.receiveByte l b m).portsWf := by
  have h0 : ((s.reachMoment m).settleSilence l).portsWf := settleSilence_portsWf (s := s.reachMoment m) h l
  have h1 := modPort_portsWf h0 l (fun p => { p with lastByteAt := ((s.reachMoment m).settleSilence l).now })
    fun w => LinkPort.wf_congr w rfl rfl
  unfold receiveByte
  dsimp only
  repeat' split
  all_goals
    first
    | exact h1
    | exact completeFrame_portsWf h1 _ _
    | exact modPort_portsWf h1 l _ fun w => LinkPort.endFrame_wf (LinkPort.reject_wf w _ _)
    | exact modPort_portsWf h1 l _ fun w => LinkPort.wf_congr w rfl rfl

/-! ### Taking a held command -/

/-- A command that may be taken is held by its port (R164). -/
theorem takeable_holds {s : State} {l : Link} {c : HeldCommand} (h : s.takeable l = some c) :
    (s.port l).command = .holding c := by
  unfold takeable at h
  split at h
  · split at h
    · simp_all
    · simp at h
  · simp at h

variable {s : State} {l : Link} {c : HeldCommand} {takes : HeldCommand → Bool} {needsControl : Bool} {lengths : Nat → Bool}
  {action : Action}

/-- No command to take: nothing happens. -/
theorem take_none (h : s.takeable l = none) : s.take l takes needsControl lengths action = s := by
  unfold take; rw [h]

/-- Another row's command: nothing happens. -/
theorem take_other (h : s.takeable l = some c) (ht : takes c = false) : s.take l takes needsControl lengths action = s := by
  unfold take; rw [h]; simp [ht]

/-- A CONTROL command of a link without CONTROL: DENIED and nothing else (R165). -/
theorem take_denied (h : s.takeable l = some c) (ht : takes c = true) (hc : s.hasControl l = false) :
    s.take l takes true lengths action = s.answer l c (.of .denied) := by
  unfold take; rw [h]; simp [ht, hc]

/-- A wrong length: BAD_LENGTH and nothing else (R165). -/
theorem take_badLength (h : s.takeable l = some c) (ht : takes c = true) (hc : needsControl = false ∨ s.hasControl l = true)
    (hl : lengths c.payload.length = false) :
    s.take l takes needsControl lengths action = s.answer l c (.of .badLength) := by
  unfold take; rw [h]
  rcases hc with hc | hc <;> simp [ht, hc, hl]

/-- The checks of R165 passed: the command's own action, and then its reply. -/
theorem take_acts (h : s.takeable l = some c) (ht : takes c = true) (hc : needsControl = false ∨ s.hasControl l = true)
    (hl : lengths c.payload.length = true) :
    s.take l takes needsControl lengths action = (action c.payload s).1.answer l c (action c.payload s).2 := by
  unfold take; rw [h]
  rcases hc with hc | hc <;> simp [ht, hc, hl]

/-- A command's reply changes its port and the number of the reply, nothing else (R166). -/
theorem answer_frame (s : State) (l : Link) (c : HeldCommand) (r : Reply) :
    s.answer l c r = { s with ports := (s.answer l c r).ports, freeDraws := s.freeDraws + 1 } := by
  cases l <;> rfl

/-- Answering keeps the ports' laws when the port holds a command (R163). -/
theorem answer_portsWf {d : HeldCommand} (h : s.portsWf) (hc : (s.port l).command = .holding d) (c : HeldCommand) (r : Reply) :
    (s.answer l c r).portsWf :=
  portsWf_congr (modPort_portsWf h l _ fun w => LinkPort.answer_wf w hc (r.frame c) r.restart) rfl rfl

/-- Everything a command row can do to the ports: its action's change of them, if it acts, and the reply. -/
theorem take_portsWf (h : s.portsWf) (ha : ∀ p, (action p s).1.ports.portA = s.ports.portA ∧ (action p s).1.ports.portB = s.ports.portB) :
    (s.take l takes needsControl lengths action).portsWf := by
  unfold take
  split
  · exact h
  · rename_i c hc
    have hold := takeable_holds hc
    dsimp only
    repeat' split
    · exact answer_portsWf h hold _ _
    · refine answer_portsWf (portsWf_congr h (ha _).1 (ha _).2) (d := c) ?_ _ _
      cases l
      · simpa [port, (ha c.payload).1] using hold
      · simpa [port, (ha c.payload).2] using hold
    · exact answer_portsWf h hold _ _
    · exact h

end State
end Sys2Proof.Machine
end

