-- ==== Sys2Proof/Tests/Slice0.lean ====
section
/-! SUPPORT. The model's own tests: well-formedness, the worked values of the manual, single steps, and for every statement with
hypotheses a state and operands that meet them, clause by clause (`witness_<statement>`). -/

namespace Sys2Proof.Tests
open Sys2Proof.Machine
set_option Elab.async false

/-! ### Small states -/

/-- The command a port holds in these tests, with tag 42h. -/
def command (kind : Byte) (payload : List Byte) : HeldCommand := ⟨kind, 0x42, payload, 0⟩

/-- A state in which a link holds a command. -/
def holding (l : Link) (kind : Byte) (payload : List Byte) (s : State) : State :=
  s.modPort l fun p => { p with command := .holding (command kind payload) }

/-- A seat bound, present, at a position of trunk 0. -/
def seated (n p : Nat) (k : SeatClass) (s : State) : State :=
  s.modSeat n fun r => { r with binding := some ⟨0, p, k⟩, presence := .present }

/-- An open SPEAK slot of a seat, granted at 0 with 600 ticks. -/
def speaking (i : Fin 6) (n : Nat) (s : State) : State :=
  s.modFloor fun f => { f with slots := f.slots.set i (some ⟨n, .speak, .host, 0, 600, some 600, some 300, false⟩) }

/-- A request list entry of a seat at the tail. -/
def waiting (n : Nat) (s : State) : State := s.modFloor fun f => { f with requests := f.requests ++ [⟨n, .host, 0, none⟩] }

/-- A reply list entry of a seat at the tail. -/
def replying (n target : Nat) (s : State) : State := s.modFloor fun f => { f with replies := f.replies ++ [⟨n, target, 0⟩] }

/-- A chair slot of a seat. -/
def chairing (i : Fin 2) (n : Nat) (m : ChairState) (s : State) : State :=
  s.modFloor fun f => { f with chairs := f.chairs.set i (some ⟨n, 0, m⟩) }

/-- An OPEN floor at chamber time 100 with seats 1 to 4 bound as delegates and 5 as president, present on a RUNNING trunk 0 with
N = 10; another seat, 6, is bound there but absent and disabled. -/
def chamber : State :=
  let s := seated 5 5 .president (seated 4 4 .delegate (seated 3 3 .delegate (seated 2 2 .delegate (seated 1 1 .delegate .reset))))
  let s := s.modSeat 6 fun r => { r with binding := some ⟨0, 6, .delegate⟩, enabled := false }
  let s := s.modTrunk 0 fun e => { e with state := .running, found := 10, plan := .waiting }
  let s := s.modTime fun t => { t with chamberTime := 100 }
  s.modFloor fun f => { f with phase := .openFloor }

/-- A held command of Link A that passes the checks of R165. -/
theorem takes_holding (s : State) (kind : Byte) (b : Bool) (payload : List Byte) (hb : (s.port .b).command = .idle)
    (hc : s.hasControl .a = true) :
    (holding .a kind payload s).Takes .a (command kind payload) kind b payload.length :=
  ⟨by simp [State.takeable, holding, State.heldAt, State.port, State.modPort, Link.other] at hb ⊢; simp [hb], rfl,
    fun _ => hc, rfl⟩

theorem takes_reset (kind : Byte) (b : Bool) (payload : List Byte) :
    (holding .a kind payload .reset).Takes .a (command kind payload) kind b payload.length := takes_holding _ _ _ _ rfl rfl

theorem takes_chamber (kind : Byte) (b : Bool) (payload : List Byte) :
    (holding .a kind payload chamber).Takes .a (command kind payload) kind b payload.length :=
  takes_holding _ _ _ _ (by decide +kernel) (by decide +kernel)

/-- The chamber under AUTO grants. -/
def auto (s : State) : State := s.modFloor fun f => { f with policy := { f.policy with grantMode := .auto } }

/-- An intake is due, and the FIFO of trunk 0 holds these records, each of a seat and a position, stamped one tick ago. -/
def captured (records : List (Nat × Nat × PressCounts)) (s : State) : State :=
  { s.modTrunk 0 fun e => { e with fifo := records.map fun r => ⟨0, r.2.1, r.1, r.2.2, s.time - 1⟩ } with
    due := ⟨1, 0, 0, 0, 0, 0, 0⟩ }

/-- The record of a seat's press at its own position of trunk 0, one tick before 100. -/
def pressOf (n : Nat) (counts : PressCounts) : CaptureRecord := ⟨0, n, n, counts, 99⟩

/-- A seat at the position of its own number has pressed. -/
def pressing (n : Nat) (counts : PressCounts) (s : State) : State := captured [(n, n, counts)] s

theorem onePress (s : State) (r : CaptureRecord) (b : Button)
    (h : 0 < s.due.intake ∧ s.pins.hold = false ∧ s.floor.hold = .released ∧ s.taken = [r] ∧
      s.seatAt r.trunk r.position = some r.seat ∧ s.isHere r.seat = true ∧ r.counts.presses = [b]) : s.OnePress r b :=
  ⟨h.1, h.2.1, h.2.2.1, h.2.2.2.1, h.2.2.2.2.1, h.2.2.2.2.2.1, h.2.2.2.2.2.2⟩

theorem mayPress (s : State) (n : Nat) (b : Button) (x : Binding)
    (h : (s.seat n).binding = some x ∧ x.cls.hasButton b = true ∧ (s.seat n).enabled = true) : s.mayPress n b :=
  ⟨⟨x, h.1, h.2.1⟩, h.2.2⟩

/-- A press that its seat may make, on a floor in which this holds: what every press clause asks. -/
def Pressed (b : Button) (p : State → CaptureRecord → Prop) : Prop :=
  ∃ s r, State.OnePress s r b ∧ s.mayPress r.seat b ∧ p s r

/-- A delegate, seat 1, has pressed on this floor. -/
theorem pressed_delegate (s : State) (b : Button) (counts : PressCounts) (p : State → CaptureRecord → Prop)
    (h : (0 < (pressing 1 counts s).due.intake ∧ (pressing 1 counts s).pins.hold = false ∧
        (pressing 1 counts s).floor.hold = .released ∧ (pressing 1 counts s).taken = [pressOf 1 counts] ∧
        (pressing 1 counts s).seatAt 0 1 = some 1 ∧ (pressing 1 counts s).isHere 1 = true ∧ counts.presses = [b]) ∧
      ((pressing 1 counts s).seat 1).binding = some ⟨0, 1, .delegate⟩ ∧ SeatClass.delegate.hasButton b = true ∧
      ((pressing 1 counts s).seat 1).enabled = true) (hp : p (pressing 1 counts s) (pressOf 1 counts)) : Pressed b p :=
  ⟨_, _, onePress _ _ _ h.1, mayPress _ _ _ _ h.2, hp⟩

/-- The president, seat 5, has pressed on this floor. -/
theorem pressed_president (s : State) (b : Button) (counts : PressCounts) (p : State → CaptureRecord → Prop)
    (h : (0 < (pressing 5 counts s).due.intake ∧ (pressing 5 counts s).pins.hold = false ∧
        (pressing 5 counts s).floor.hold = .released ∧ (pressing 5 counts s).taken = [pressOf 5 counts] ∧
        (pressing 5 counts s).seatAt 0 5 = some 5 ∧ (pressing 5 counts s).isHere 5 = true ∧ counts.presses = [b]) ∧
      ((pressing 5 counts s).seat 5).binding = some ⟨0, 5, .president⟩ ∧ SeatClass.president.hasButton b = true ∧
      ((pressing 5 counts s).seat 5).enabled = true) (hp : p (pressing 5 counts s) (pressOf 5 counts)) : Pressed b p :=
  ⟨_, _, onePress _ _ _ h.1, mayPress _ _ _ _ h.2, hp⟩

/-- A seat found in one slot of each kind at most has one slot (R15). -/
theorem oneSlot_of_any (f : Floor) (n : Nat)
    (h : (∀ i j : Fin 6, f.slots[i].any (·.seat = n) = true → f.slots[j].any (·.seat = n) = true → i = j) ∧
      ∀ i j : Fin 2, f.chairs[i].any (·.seat = n) = true → f.chairs[j].any (·.seat = n) = true → i = j) : f.oneSlot n :=
  ⟨fun i j d e hd he hdn hen => h.1 i j (by simp [hd, hdn]) (by simp [he, hen]),
    fun i j d e hd he hdn hen => h.2 i j (by simp [hd, hdn]) (by simp [he, hen])⟩

/-! ### Well-formedness -/

theorem test_wellFormed_tally : (Instr.tallyReceived 0 [] 0).wellFormed = false := by decide
theorem test_wellFormed_probe : (Instr.probeAnswer 0 [] 0).wellFormed = false := by decide
theorem test_wellFormed_status : (Instr.statusAnswer 0 [] 0).wellFormed = false := by decide
theorem test_wellFormed_fault : (Instr.answerFault 0 [] 0).wellFormed = false := by decide
theorem test_wellFormed_len : (Instr.lenReject .a 2 0).wellFormed = false ∧ (Instr.lenReject .a 252 0).wellFormed = false := by
  decide
theorem test_wellFormed_good : (Instr.lenReject .a 1 0).wellFormed ∧ (Instr.lenReject .a 253 0).wellFormed ∧
    (Instr.tallyReceived 0 [0xC5] 0).wellFormed ∧ Instr.beat.wellFormed := by decide

/-! ### Worked values of the manual -/

/-- R184: the nine bytes 31h to 39h give the check 29B1h. -/
theorem test_crc : crc16 [0x31, 0x32, 0x33, 0x34, 0x35, 0x36, 0x37, 0x38, 0x39] = 0x29B1#16 := by decide +kernel

/-- R29: two steps of the draw generator from 1. -/
theorem test_draw : drawStep 1#32 = 0x00042021#32 ∧ drawStep 0x00042021#32 = 0x04080601#32 := by decide +kernel

/-- R12: the codes of a label, a lowercase letter folded. -/
theorem test_label : displayCode 0x20 = some 0 ∧ displayCode 0x41 = some 1 ∧ displayCode 0x7A = some 26 ∧
    displayCode 0x30 = some 27 ∧ displayCode 0x2E = some 37 ∧ displayCode 0x23 = some 47 ∧ displayCode 0x40 = none := by decide

/-- R72: a point at the present is reached, one tick ahead is not, and 2^31 - 1 ticks behind is, also across the wrap. -/
theorem test_reached : reached 5 5 = true ∧ reached 5 6 = false ∧ reached 3 0xFFFFFFF0#32 = true ∧
    reached 0x7FFFFFFF#32 0 = true ∧ reached 0x80000000#32 0 = false := by decide

/-- R30: presses of a record, by parity for the toggling buttons, in their order. -/
theorem test_presses : (PressCounts.delegate 3 2).presses = [.req] ∧
    (PressCounts.chair 1 2 4 15).presses = [.mic, .cut, .next, .prio] := by decide

/-- R166: the kind of a reply. -/
theorem test_replyKind : replyKind 0xFF = 0x7F ∧ replyKind 0x7F = 0x7F ∧ replyKind 0x01 = 0x81 := by decide

/-! ### Single steps -/

/-- A step that answered a next state with this property. -/
def next (o : Host.Outcome State Fault Refusal) (p : State → Bool) : Bool :=
  match o with
  | .next t => p t
  | _ => false

/-- A step runs the front of the queue. -/
theorem test_step : next (step { State.reset with pending := [.internalTick] })
    fun t => t.time = 1 ∧ t.due.intake = 1 ∧ t.pending = [] := by decide +kernel

/-- The floor grants a waiting delegate when the fill point finds it (R50). -/
theorem test_fill : next (exec (.policySet .a) (holding .a 0x36 [1, 0, 0] (waiting 2 chamber)))
    fun t => t.floor.slotOf 2 = some 0 ∧ t.floor.requests = [] ∧ t.floor.listVersion = 1 ∧ (t.seat 2).grantCount = 1 ∧
      (t.seat 2).image = ⟨true, .live⟩ := by decide +kernel

/-- A president's press pushes (R102). -/
theorem test_prio : next (exec .intake { (speaking 0 1 chamber).modTrunk 0 fun e =>
      { e with fifo := [⟨0, 5, 5, .chair 0 0 0 1, 99⟩] } with due := ⟨1, 0, 0, 0, 0, 0, 0⟩ })
    fun t => t.floor.phase = .interrupted ∧ t.floorState 1 = .held ∧ t.floorState 5 = .chairLive ∧ (t.trunk 0).fifo = [] := by
  decide +kernel

/-- A REQ press of an IDLE delegate joins the list (R32). -/
theorem test_req : next (exec .intake { chamber.modTrunk 0 fun e => { e with fifo := [⟨0, 1, 1, .delegate 1 0, 99⟩] } with
      due := ⟨1, 0, 0, 0, 0, 0, 0⟩ })
    fun t => t.floorState 1 = .waiting ∧ (t.seat 1).image.lamp = .first ∧ (t.trunk 0).pending = [⟨1, false⟩] := by
  decide +kernel

/-- A grant of the principal's own tick in a lower place does not make it principal while replies to it wait (R48, R87). -/
theorem test_principal : ((replying 4 2 (speaking 1 2 (speaking 0 1 chamber))).floor.principal 100).map (·.1) = some 1 ∧
    ((speaking 1 2 (speaking 0 1 chamber)).floor.principal 100).map (·.1) = some 0 := by decide +kernel

/-- A disabled trunk's reply entries leave in list order (R88). -/
theorem test_disableDrops : next (exec (.trunkDisable .a) (holding .a 0x60 [0, 2] (replying 2 1 (replying 3 1 (speaking 0 1 chamber)))))
    fun t => t.report.linkA.queue.filterMap (fun x => if x.notice.kind = .replyDropped then some x.notice.subject else none) =
      [.seat 3, .seat 2] := by decide +kernel

/-! ### Witnesses -/

theorem witness_StepRunsFront : ∃ (i : Instr) (rest : List Instr) (s : State), s.pending = i :: rest :=
  ⟨.beat, [], { State.reset with pending := [.beat] }, rfl⟩

theorem witness_DeviceReset : ∃ s : State, s.pins.rstnLow = true :=
  ⟨{ State.reset with pins := ⟨true, false, false, false⟩ }, rfl⟩

theorem witness_HoldAndSeed :
    (∃ s l c, State.Takes s l c 0x27 true 1 ∧ 2 ≤ u8 c.payload 0) ∧
    (∃ s l c, State.Takes s l c 0x27 true 1 ∧ u8 c.payload 0 = 0 ∧ Hold.released = s.floor.hold) ∧
    (∃ s l c, State.Takes s l c 0x27 true 1 ∧ u8 c.payload 0 = 1 ∧ Hold.held ≠ s.floor.hold) ∧
    (∃ s l c, State.Takes s l c 0x28 true 4 ∧ u32 c.payload 0 = 0) ∧
    (∃ s l c, State.Takes s l c 0x28 true 4 ∧ u32 c.payload 0 ≠ 0) :=
  ⟨⟨_, _, _, takes_reset 0x27 true [2], by decide⟩, ⟨_, _, _, takes_reset 0x27 true [0], by decide⟩,
    ⟨_, _, _, takes_reset 0x27 true [1], by decide⟩, ⟨_, _, _, takes_reset 0x28 true [0, 0, 0, 0], by decide⟩,
    ⟨_, _, _, takes_reset 0x28 true [0, 0, 0, 1], by decide⟩⟩

theorem witness_InternalTick : State.reset.pins.rstnLow = false ∧ State.reset.timeBase.source ≠ .external := by decide

/-- A Time Base in QUALIFYING with this count, its last tick at 60000 and its last pulse at 0. -/
def qualifying (count : Nat) : State :=
  State.reset.modTime fun t => { t with source := .qualifying, count := count, lastTick := 60000, lastPulse := some 0 }

theorem witness_TrefQualifies :
    (∃ s : State, s.pins.rstnLow = false ∧ s.now ≤ 0 ∧ s.timeBase.source = .internal ∧ s.timeBase.mode = .internal) ∧
    (State.reset.now ≤ 0 ∧ State.reset.timeBase.source = .internal ∧ State.reset.timeBase.mode = .auto) ∧
    (¬ ∃ p, (qualifying 5).timeBase.lastPulse = some p ∧ p + 95000 ≤ 94999 ∧ 94999 ≤ p + 105000) ∧
    (¬ ∃ p, (qualifying 5).timeBase.lastPulse = some p ∧ p + 95000 ≤ 105001 ∧ 105001 ≤ p + 105000) ∧
    ((qualifying 18).timeBase.lastPulse = some 0 ∧ (qualifying 18).timeBase.count < 19) ∧
    ((qualifying 19).timeBase.count = 19 ∧ (qualifying 19).timeBase.lastTick + 45000 ≤ 105000) ∧
    (95000 < (qualifying 19).timeBase.lastTick + 45000) :=
  ⟨⟨State.reset.modTime fun t => { t with mode := .internal }, by decide⟩, by decide,
    by rintro ⟨p, h, h1, h2⟩; simp [qualifying, State.modTime] at h; omega,
    by rintro ⟨p, h, h1, h2⟩; simp [qualifying, State.modTime] at h; omega, by decide, by decide, by decide⟩

theorem witness_TrefExternal :
    ∃ s : State, s.pins.rstnLow = false ∧ s.timeBase.source = .external ∧ s.now ≤ 94999 ∧
      s.timeBase.lastTick + 95000 ≤ 95000 ∧ 94999 < s.timeBase.lastTick + 95000 ∧ 150000 ≤ s.timeBase.lastTick + 150000 :=
  ⟨State.reset.modTime fun t => { t with source := .external }, by decide⟩

theorem witness_BeatCount :
    (∃ s : State, s.due.beat = 0 + 1 ∧ s.timeBase.beatCount ≠ 4) ∧
    (∃ s : State, s.due.beat = 0 + 1 ∧ s.timeBase.beatCount = 4 ∧ (s.trunk 0).state = .running ∧
      (s.trunk 1).state ≠ .running) :=
  ⟨⟨{ State.reset with due := ⟨0, 0, 0, 0, 0, 1, 0⟩ }, by decide⟩,
    ⟨{ chamber.modTime fun t => { t with beatCount := 4 } with due := ⟨0, 0, 0, 0, 0, 1, 0⟩ }, by decide +kernel⟩⟩

/-- Alarm 0 closes the list at 100, alarm 1 halts the floor at 100, alarm 2 waits for 101. -/
def alarmed : State := { chamber.modTime fun t =>
  { t with alarms := #v[⟨true, 100, .closeList⟩, ⟨true, 100, .haltFloor⟩, ⟨true, 101, .none⟩] } with
  due := ⟨0, 0, 0, 0, 1, 0, 0⟩ }

/-- The same with the halting alarm disarmed. -/
def alarmedQuiet : State :=
  alarmed.modTime fun t => { t with alarms := t.alarms.set 1 ⟨false, 100, .haltFloor⟩ }

theorem witness_AlarmCheck : alarmed.due.alarmCheck = 0 + 1 ∧
    (alarmed.timeBase.alarms[0].armed ∧ reached alarmed.time alarmed.timeBase.alarms[0].target ∧
      alarmed.timeBase.alarms[0].action = .closeList) ∧
    (alarmed.timeBase.alarms[1].armed ∧ reached alarmed.time alarmed.timeBase.alarms[1].target ∧
      alarmed.timeBase.alarms[1].action = .haltFloor) ∧
    reached alarmed.time alarmed.timeBase.alarms[2].target = false ∧
    (alarmed.firesAction .haltFloor = true ∧ alarmed.firing = [0, 1]) ∧
    (alarmedQuiet.firesAction .haltFloor = false ∧ alarmedQuiet.firesAction .closeList = true ∧
      alarmedQuiet.floor.gate = .opened ∧ alarmedQuiet.firing = [0]) := by decide +kernel

theorem witness_TimeSet :
    (∃ s l c, State.Takes s l c 0x50 true 4 ∧ u32 c.payload 0 = s.time) ∧
    (∃ s l c, State.Takes s l c 0x50 true 4 ∧ u32 c.payload 0 ≠ s.time ∧
      ∀ i : Fin 3, s.timeBase.alarms[i].armed → reached (u32 c.payload 0) s.timeBase.alarms[i].target = false) ∧
    (∃ s l c, State.Takes s l c 0x50 true 4 ∧ u32 c.payload 0 = 101 ∧ s.time = 100 ∧ s.floor.phase = .openFloor ∧
      (∀ i : Fin 3, s.timeBase.alarms[i].armed ∧ reached (u32 c.payload 0) s.timeBase.alarms[i].target = true) ∧
      State.firing { s with timeBase := { s.timeBase with chamberTime := 101 }, floor := s.floor.moved 1 } = [0, 1, 2] ∧
      State.firesAction { s with timeBase := { s.timeBase with chamberTime := 101 }, floor := s.floor.moved 1 } .haltFloor = true) ∧
    (∃ s l c, State.Takes s l c 0x50 true 4 ∧ u32 c.payload 0 = 101 ∧ s.time = 100 ∧
      State.firing { s with timeBase := { s.timeBase with chamberTime := 101 }, floor := s.floor.moved 1 } = [0, 2] ∧
      State.firesAction { s with timeBase := { s.timeBase with chamberTime := 101 }, floor := s.floor.moved 1 } .haltFloor =
        false) :=
  ⟨⟨_, _, _, takes_reset 0x50 true [0, 0, 0, 0], by decide⟩, ⟨_, _, _, takes_reset 0x50 true [0, 0, 0, 1], by decide, by decide⟩,
    ⟨_, _, _, takes_holding alarmed 0x50 true [0, 0, 0, 101] (by decide +kernel) (by decide +kernel), by decide +kernel⟩,
    ⟨_, _, _, takes_holding alarmedQuiet 0x50 true [0, 0, 0, 101] (by decide +kernel) (by decide +kernel), by decide +kernel⟩⟩

/-- The reset state in mode INTERNAL. -/
def internal : State := State.reset.modTime fun t => { t with mode := .internal }

theorem witness_TimebaseMode :
    (∃ s l c, State.Takes s l c 0x52 true 1 ∧ 2 ≤ u8 c.payload 0) ∧
    (∃ s l c, State.Takes s l c 0x52 true 1 ∧ u8 c.payload 0 = 1 ∧ TimeMode.auto = s.timeBase.mode) ∧
    (∃ s l c, State.Takes s l c 0x52 true 1 ∧ u8 c.payload 0 = 1 ∧ s.timeBase.mode = .internal) ∧
    (∃ s l c, State.Takes s l c 0x52 true 1 ∧ u8 c.payload 0 = 0 ∧ s.timeBase.mode = .auto ∧ s.timeBase.source = .internal) ∧
    (∃ s l c, State.Takes s l c 0x52 true 1 ∧ u8 c.payload 0 = 0 ∧ s.timeBase.mode = .auto ∧ s.timeBase.source ≠ .internal) :=
  ⟨⟨_, _, _, takes_reset 0x52 true [2], by decide⟩, ⟨_, _, _, takes_reset 0x52 true [1], by decide⟩,
    ⟨_, _, _, takes_holding internal 0x52 true [1] rfl rfl, by decide⟩, ⟨_, _, _, takes_reset 0x52 true [0], by decide⟩,
    ⟨_, _, _, takes_holding (qualifying 3) 0x52 true [0] rfl rfl, by decide⟩⟩

theorem witness_AlarmSet :
    (∃ s l c, State.Takes s l c 0x53 true 6 ∧ 2 < u8 c.payload 0) ∧
    (∃ s l c, State.Takes s l c 0x53 true 6 ∧ u8 c.payload 0 ≤ 2 ∧ 2 < u8 c.payload 5) ∧
    (∃ s l c, State.Takes s l c 0x53 true 6 ∧ u8 c.payload 0 = (2 : Fin 3) ∧ alarmActionRow[u8 c.payload 5]? = some .haltFloor ∧
      reached s.time (u32 c.payload 1) = false) ∧
    (∃ s l c, State.Takes s l c 0x53 true 6 ∧ u8 c.payload 0 = (0 : Fin 3) ∧ alarmActionRow[u8 c.payload 5]? = some .closeList ∧
      reached s.time (u32 c.payload 1) = true) :=
  ⟨⟨_, _, _, takes_reset 0x53 true [3, 0, 0, 0, 0, 0], by decide⟩, ⟨_, _, _, takes_reset 0x53 true [2, 0, 0, 0, 0, 3], by decide⟩,
    ⟨_, _, _, takes_reset 0x53 true [2, 0, 0, 0, 1, 1], by decide⟩,
    ⟨_, _, _, takes_reset 0x53 true [0, 0, 0, 0, 0, 2], by decide⟩⟩

/-- A held command of Link B, which is OBSERVE. -/
theorem witness_denied (kind : Byte) (payload : List Byte) :
    (holding .b kind payload .reset).takeable .b = some (command kind payload) ∧
      (holding .b kind payload .reset).hasControl .b = false := ⟨rfl, rfl⟩

theorem witness_AlarmClear :
    (∃ s l c, State.Takes s l c 0x54 true 1 ∧ 2 < u8 c.payload 0) ∧
    (∃ s l c, State.Takes s l c 0x54 true 1 ∧ u8 c.payload 0 = (2 : Fin 3) ∧ s.timeBase.alarms[2].armed = false) ∧
    (∃ s l c, State.Takes s l c 0x54 true 1 ∧ u8 c.payload 0 = (2 : Fin 3) ∧ s.timeBase.alarms[2].armed = true) :=
  ⟨⟨_, _, _, takes_reset 0x54 true [3], by decide⟩, ⟨_, _, _, takes_reset 0x54 true [2], by decide⟩,
    ⟨_, _, _, takes_holding alarmed 0x54 true [2] (by decide +kernel) (by decide +kernel), by decide +kernel⟩⟩

/-- Link A has received these bytes of a frame, the last at moment 0. -/
def received (bytes : List Byte) : State := State.reset.modPort .a fun p => { p with buffer := bytes }

theorem witness_LinkByte :
    (received []).pins.rstnLow = false ∧ (received []).now ≤ 0 ∧ ((received []).port .a).buffer = [] ∧
    (((received [0xD7]).port .a).buffer.length = 1 ∧ 20000 ≤ ((received [0xD7]).port .a).lastByteAt + 20000) ∧
    (2 ≤ ((received [0xD7, 2]).port .a).buffer.length ∧
      ((received [0xD7, 2]).port .a).buffer.length + 1 ≠ u8 ((received [0xD7, 2]).port .a).buffer 1 + 4) := by decide

/-- An IDENTIFY with tag 42h, but for its last byte. -/
def identifyFrame : List Byte := [0xD7, 0x02, 0x01, 0x42] ++ [(crc16 [0x02, 0x01, 0x42]).extractLsb' 8 8]

theorem witness_FrameComplete :
    (∃ b, (received identifyFrame).now ≤ 0 ∧ 0 ≤ ((received identifyFrame).port .a).lastByteAt + 20000 ∧
      2 ≤ ((received identifyFrame).port .a).buffer.length ∧
      ((received identifyFrame).port .a).buffer.length + 1 = u8 ((received identifyFrame).port .a).buffer 1 + 4 ∧
      checkPasses (((received identifyFrame).port .a).buffer ++ [b]).tail = true ∧
      ((received identifyFrame).port .a).command = .idle) ∧
    (∃ b, checkPasses (((received identifyFrame).port .a).buffer ++ [b]).tail = false) ∧
    (((received identifyFrame).modPort .a fun p => { p with command := .replying }).port .a).command ≠ .idle :=
  ⟨⟨(crc16 [0x02, 0x01, 0x42]).extractLsb' 0 8, by decide +kernel⟩,
    ⟨(crc16 [0x02, 0x01, 0x42]).extractLsb' 0 8 + 1, by decide +kernel⟩, by decide⟩

theorem witness_FrameRejects :
    ((received [0xD7]).pins.rstnLow = false ∧ (received [0xD7]).now ≤ 20000 ∧
      20000 ≤ ((received [0xD7]).port .a).lastByteAt + 20000 ∧ ((received [0xD7]).port .a).buffer.length = 1 ∧
      ((1 : Byte).toNat < 2 ∨ 252 < (1 : Byte).toNat)) ∧
    ((received [0xD7, 5, 1, 0x42]).port .a).buffer ≠ [] := by decide

/-- Link A sends this frame. -/
def sending (f : TxFrame) : State := State.reset.modPort .a fun p => { p with transmit := [f] }

theorem witness_FrameSent :
    ((sending (.reply [] false)).port .a).transmit = .reply [] false :: [] ∧
    ((sending (.reply [] true)).port .a).transmit = .reply [] true :: [] ∧
    ((sending (.reject [])).port .a).transmit = .reject [] :: [] := ⟨rfl, rfl, rfl⟩

theorem witness_CommandChecks :
    ((holding .a 0x06 [] .reset).takeable .a = some (command 0x06 []) ∧ (command 0x06 []).kind ∉ commandKinds) ∧
    (∃ r ∈ commandRows, r.needsControl = true ∧ r.takes (command 0x23 []) = true ∧
      (holding .b 0x23 [] .reset).takeable .b = some (command 0x23 []) ∧ (holding .b 0x23 [] .reset).hasControl .b = false) ∧
    (∃ r ∈ commandRows, r.takes (command 0x23 [0]) = true ∧ (holding .a 0x23 [0] .reset).takeable .a = some (command 0x23 [0]) ∧
      (holding .a 0x23 [0] .reset).hasControl .a = true ∧ r.lengths (command 0x23 [0]).payload.length = false) :=
  ⟨by decide, ⟨⟨.listClear, ofKind 0x23, true, exactly 0⟩, by simp [commandRows], by decide⟩,
    ⟨⟨.listClear, ofKind 0x23, true, exactly 0⟩, by simp [commandRows], by decide⟩⟩

theorem witness_IdentifyRestart :
    (∃ s l c, State.Takes s l c 0x01 false 0) ∧ (∃ s l c, State.Takes s l c 0x02 true 0) :=
  ⟨⟨_, _, _, takes_reset 0x01 false []⟩, ⟨_, _, _, takes_reset 0x02 true []⟩⟩

/-- Link B claims authority, with the takeover in this state. -/
def claiming (isOpen : Bool) : State := holding .b 0x04 [] { State.reset with ports := { State.reset.ports with takeoverOpen := isOpen } }

theorem witness_Authority :
    (∃ s l c, State.Takes s l c 0x03 true 0) ∧ (∃ s l c, State.Takes s l c 0x04 false 0 ∧ s.hasControl l = true) ∧
    (∃ s l c, State.Takes s l c 0x04 false 0 ∧ s.hasControl l = false ∧ s.ports.takeoverOpen = false) ∧
    (∃ s l c, State.Takes s l c 0x04 false 0 ∧ s.hasControl l = false ∧ s.ports.takeoverOpen = true) :=
  ⟨⟨_, _, _, takes_reset 0x03 true []⟩, ⟨_, _, _, takes_reset 0x04 false [], rfl⟩,
    ⟨claiming false, .b, command 0x04 [], ⟨rfl, rfl, by decide, rfl⟩, by decide⟩,
    ⟨claiming true, .b, command 0x04 [], ⟨rfl, rfl, by decide, rfl⟩, by decide⟩⟩

theorem witness_Takeover :
    (∃ s l c, State.Takes s l c 0x05 true 2 ∧ 600 < u16 c.payload 0) ∧
    (∃ s l c, State.Takes s l c 0x05 true 2 ∧ u16 c.payload 0 ≤ 600 ∧ u16 c.payload 0 = s.ports.takeoverInterval) ∧
    (∃ s l c, State.Takes s l c 0x05 true 2 ∧ u16 c.payload 0 = 600 ∧ u16 c.payload 0 ≠ s.ports.takeoverInterval) ∧
    (∃ s : State, s.due.silence = 0 + 1) :=
  ⟨⟨_, _, _, takes_reset 0x05 true [2, 89], by decide⟩, ⟨_, _, _, takes_reset 0x05 true [0, 0], by decide⟩,
    ⟨_, _, _, takes_reset 0x05 true [2, 88], by decide⟩, ⟨{ State.reset with due := ⟨0, 0, 0, 0, 0, 0, 1⟩ }, rfl⟩⟩

theorem witness_SeatBind :
    (∃ s l c, State.Takes s l c 0x10 true 5 ∧ 120 < u8 c.payload 3) ∧
    (∃ s l c, State.Takes s l c 0x10 true 5 ∧ u16 c.payload 0 = 480 ∧ u8 c.payload 2 = (3 : TrunkNo) ∧ u8 c.payload 3 = 120 ∧
      4 ≤ u8 c.payload 4) ∧
    (∃ s l c, State.Takes s l c 0x10 true 5 ∧ u16 c.payload 0 = 1 ∧ (s.seat 1).binding ≠ none ∧ s.floorState 1 ≠ .idle ∧
      classRow[u8 c.payload 4]? = some .delegate) ∧
    (∃ s l c, State.Takes s l c 0x10 true 5 ∧ u16 c.payload 0 = 1 ∧ s.floorState 1 = .idle ∧ s.seatAt 0 2 = some 2 ∧
      u8 c.payload 2 = (0 : TrunkNo) ∧ u8 c.payload 3 = 2) ∧
    (∃ s l c, State.Takes s l c 0x10 true 5 ∧ u16 c.payload 0 = 1 ∧ s.floorState 1 = .idle ∧ s.seatAt 0 1 = some 1 ∧
      (s.seat 1).binding = some ⟨0, 1, .delegate⟩) ∧
    (∃ s l c, State.Takes s l c 0x10 true 5 ∧ u16 c.payload 0 = 480 ∧ u8 c.payload 2 = (3 : TrunkNo) ∧ u8 c.payload 3 = 120 ∧
      classRow[u8 c.payload 4]? = some .listener ∧ (s.seat 480).binding = none ∧ s.seatAt 3 120 = none) ∧
    (∃ s l c, State.Takes s l c 0x10 true 5 ∧ u16 c.payload 0 = 7 ∧ u8 c.payload 2 = (0 : TrunkNo) ∧ u8 c.payload 3 = 10 ∧
      (s.seat 7).binding = none ∧ s.seatAt 0 10 = none ∧ (s.trunk 0).state = .running ∧ 10 ≤ (s.trunk 0).found) ∧
    (∃ s l c, State.Takes s l c 0x10 true 5 ∧ u16 c.payload 0 = 1 ∧ u8 c.payload 2 = (0 : TrunkNo) ∧ u8 c.payload 3 = 10 ∧
      (s.seat 1).binding = some ⟨0, 1, .delegate⟩ ∧ s.floorState 1 = .idle ∧ s.seatAt 0 10 = none ∧
      (s.trunk 0).takesMark 1 = true) ∧
    (∃ s l c, State.Takes s l c 0x10 true 5 ∧ u16 c.payload 0 = 1 ∧ u8 c.payload 2 = (0 : TrunkNo) ∧ u8 c.payload 3 = 1 ∧
      classRow[u8 c.payload 4]? = some .chair ∧ (s.seat 1).binding = some ⟨0, 1, .delegate⟩ ∧ s.floorState 1 = .idle ∧
      s.seatAt 0 1 = some 1) :=
  ⟨⟨_, _, _, takes_reset 0x10 true [0, 1, 0, 121, 0], by decide⟩, ⟨_, _, _, takes_reset 0x10 true [1, 0xE0, 3, 120, 4], by decide⟩,
    ⟨_, _, _, takes_holding (speaking 0 1 chamber) 0x10 true [0, 1, 0, 7, 0] (by decide +kernel) (by decide +kernel),
      by decide +kernel⟩,
    ⟨_, _, _, takes_chamber 0x10 true [0, 1, 0, 2, 0], by decide +kernel⟩,
    ⟨_, _, _, takes_chamber 0x10 true [0, 1, 0, 1, 0], by decide +kernel⟩,
    ⟨_, _, _, takes_reset 0x10 true [1, 0xE0, 3, 120, 3], by decide +kernel⟩,
    ⟨_, _, _, takes_chamber 0x10 true [0, 7, 0, 10, 0], by decide +kernel⟩,
    ⟨_, _, _, takes_chamber 0x10 true [0, 1, 0, 10, 0], by decide +kernel⟩,
    ⟨_, _, _, takes_chamber 0x10 true [0, 1, 0, 1, 1], by decide +kernel⟩⟩

/-- Each seat in one of the places a removal takes it from: 1 in a slot, 2 on the request list, 3 on the reply list, 5 in a chair
slot. -/
def everyPlace : State := chairing 0 5 .mic (replying 3 1 (waiting 2 (speaking 0 1 chamber)))

/-- The chamber interrupted over a frame in which seat 1 is held in a slot record and seat 3 in a reply entry. -/
def heldPlaces : State :=
  chamber.modFloor fun f => { f with
    phase := .interrupted, stack := [⟨.link .a, 0, .openFloor, none, [⟨1, .speak, .host, some 9, false, false⟩], [⟨3, 1⟩], none⟩] }

/-- A removal tells of every place it takes a seat from, with its reason, and what follows the close of the principal's slot. -/
theorem test_seatRemoved :
    ((everyPlace.seatRemoved 1 11).reportOf .a).queue.map (fun r => (r.notice.kind, r.notice.state)) =
      [(.released, some 11), (.phase, some 1), (.roundBegin, none)] ∧
    ((everyPlace.seatRemoved 2 10).reportOf .a).queue.map (fun r => (r.notice.kind, r.notice.state)) = [(.dequeued, some 10)] ∧
    ((everyPlace.seatRemoved 3 5).reportOf .a).queue.map (fun r => (r.notice.kind, r.notice.state)) =
      [(.replyDropped, some 5)] ∧
    ((everyPlace.seatRemoved 5 11).reportOf .a).queue.map (fun r => (r.notice.kind, r.notice.state)) = [(.chairClose, some 11)] ∧
    ((heldPlaces.seatRemoved 1 11).reportOf .a).queue.map (fun r => (r.notice.kind, r.notice.state)) = [(.released, some 11)] ∧
    ((heldPlaces.seatRemoved 3 11).reportOf .a).queue.map (fun r => (r.notice.kind, r.notice.state)) =
      [(.replyDropped, some 11)] := by decide +kernel

theorem witness_SeatUnbind :
    (∃ s l c, State.Takes s l c 0x11 true 2 ∧ 480 < u16 c.payload 0) ∧
    (∃ s l c, State.Takes s l c 0x11 true 2 ∧ u16 c.payload 0 = 480 ∧ (s.seat 480).binding = none) ∧
    (∃ s l c, State.Takes s l c 0x11 true 2 ∧ u16 c.payload 0 = 1 ∧ (s.seat 1).binding ≠ none) ∧
    (∃ s l c, State.Takes s l c 0x11 true 2 ∧ u16 c.payload 0 = 1 ∧ s.floor.oneSlot 1 ∧ s.floorState 1 = .live ∧
      (s.seat 1).binding = some ⟨0, 1, .delegate⟩ ∧ (s.trunk 0).takesMark 1 = true) ∧
    (∃ s l c, State.Takes s l c 0x11 true 2 ∧ u16 c.payload 0 = 1 ∧ (s.seat 1).binding ≠ none ∧ s.floorState 1 = .live ∧
      ((s.seatRemoved 1 11).listTold s).floor.phase = .replyRound) ∧
    (∃ s l c, State.Takes s l c 0x11 true 2 ∧ u16 c.payload 0 = 2 ∧ (s.seat 2).binding ≠ none ∧ s.floorState 2 = .waiting ∧
      ((s.seatRemoved 2 11).listTold s).floor.listVersion = s.floor.listVersion + 1) ∧
    (∃ s l c, State.Takes s l c 0x11 true 2 ∧ u16 c.payload 0 = 5 ∧ (s.seat 5).binding ≠ none ∧ s.floorState 5 = .chairLive) ∧
    (∃ s l c, State.Takes s l c 0x11 true 2 ∧ u16 c.payload 0 = 1 ∧ (s.seat 1).binding ≠ none ∧ s.floorState 1 = .held) :=
  ⟨⟨_, _, _, takes_reset 0x11 true [1, 0xE1], by decide⟩, ⟨_, _, _, takes_reset 0x11 true [1, 0xE0], by decide +kernel⟩,
    ⟨_, _, _, takes_chamber 0x11 true [0, 1], by decide +kernel⟩,
    ⟨_, _, _, takes_holding (speaking 0 1 chamber) 0x11 true [0, 1] (by decide +kernel) (by decide +kernel), by decide +kernel,
      oneSlot_of_any _ _ (by decide +kernel), by decide +kernel⟩,
    ⟨_, _, _, takes_holding everyPlace 0x11 true [0, 1] (by decide +kernel) (by decide +kernel), by decide +kernel⟩,
    ⟨_, _, _, takes_holding everyPlace 0x11 true [0, 2] (by decide +kernel) (by decide +kernel), by decide +kernel⟩,
    ⟨_, _, _, takes_holding everyPlace 0x11 true [0, 5] (by decide +kernel) (by decide +kernel), by decide +kernel⟩,
    ⟨_, _, _, takes_holding heldPlaces 0x11 true [0, 1] (by decide +kernel) (by decide +kernel), by decide +kernel⟩⟩

theorem witness_SeatEnable :
    (∃ s l c, State.Takes s l c 0x12 true 4 ∧ 481 < u16 c.payload 0 + u8 c.payload 2) ∧
    (∃ s l c, State.Takes s l c 0x12 true 4 ∧ u16 c.payload 0 = 449 ∧ u8 c.payload 2 = 32 ∧ 2 ≤ u8 c.payload 3) ∧
    (∃ s l c, State.Takes s l c 0x12 true 4 ∧ u16 c.payload 0 = 1 ∧ u8 c.payload 2 = 1 ∧ u8 c.payload 3 = 1 ∧
      (s.seat 1).enabled = true) ∧
    (∃ s l c, State.Takes s l c 0x12 true 4 ∧ u16 c.payload 0 = 480 ∧ u8 c.payload 2 = 1 ∧ u8 c.payload 3 = 0 ∧
      (s.seat 480).enabled ≠ false) ∧
    (∃ s l c, State.Takes s l c 0x12 true 4 ∧ u16 c.payload 0 = 1 ∧ u8 c.payload 2 = 32 ∧ u8 c.payload 3 = 0 ∧
      (s.seat 1).enabled = true ∧ s.floor.oneSlot 1 ∧ s.floorState 1 = .live) ∧
    (∃ s l c, State.Takes s l c 0x12 true 4 ∧ u16 c.payload 0 = 2 ∧ u8 c.payload 2 = 2 ∧ u8 c.payload 3 = 0 ∧
      (s.seat 2).enabled = true ∧ s.floorState 2 = .waiting ∧ (s.seat 3).enabled = true ∧ s.floorState 3 = .replyWaiting) :=
  ⟨⟨_, _, _, takes_reset 0x12 true [1, 0xE0, 2, 0], by decide⟩, ⟨_, _, _, takes_reset 0x12 true [1, 0xC1, 32, 2], by decide⟩,
    ⟨_, _, _, takes_reset 0x12 true [0, 1, 1, 1], by decide +kernel⟩,
    ⟨_, _, _, takes_reset 0x12 true [1, 0xE0, 1, 0], by decide +kernel⟩,
    ⟨_, _, _, takes_holding (speaking 0 1 chamber) 0x12 true [0, 1, 32, 0] (by decide +kernel) (by decide +kernel),
      by decide +kernel, by decide +kernel, by decide +kernel, by decide +kernel, oneSlot_of_any _ _ (by decide +kernel),
      by decide +kernel⟩,
    ⟨_, _, _, takes_holding everyPlace 0x12 true [0, 2, 2, 0] (by decide +kernel) (by decide +kernel), by decide +kernel⟩⟩

theorem witness_SeatLabel :
    (∃ s l c, State.Takes s l c 0x13 true 2 ∧ u16 c.payload 0 < 1) ∧
    (∃ s l c, State.Takes s l c 0x13 true 4 ∧ u16 c.payload 0 = 480 ∧ (c.payload.drop 2)[1]? = some 0x40 ∧
      displayCode 0x40 = none ∧ ∀ b, (c.payload.drop 2)[0]? = some b → displayCode b ≠ none) ∧
    (∃ s l c, State.Takes s l c 0x13 true 27 ∧ u16 c.payload 0 = 1 ∧
      ((c.payload.drop 2).take 24).map displayCode = (List.replicate 24 1).map some) ∧
    (∃ s l c, State.Takes s l c 0x13 true 3 ∧ u16 c.payload 0 = 1 ∧ ((c.payload.drop 2).take 24).map displayCode = [1].map some ∧
      (s.seat 1).binding = some ⟨0, 1, .delegate⟩ ∧ (s.seat 1).presence ≠ .absent) ∧
    ((chamber.trunk 1).state = .down ∧ (chamber.trunk 0).state = .running ∧ (chamber.trunk 0).found < 11 ∧
      10 ≤ (chamber.trunk 0).found ∧ (∀ x ∈ (chamber.trunk 0).pending, x.position ≠ 10) ∧
      ∃ x ∈ ((chamber.trunk 0).mark 10 false).pending, x.position = 10) :=
  ⟨⟨_, _, _, takes_reset 0x13 true [0, 0], by decide⟩,
    ⟨_, _, _, takes_reset 0x13 true [1, 0xE0, 0x41, 0x40], by decide, by decide, by decide, by
      intro b h; simp [command] at h; subst h; decide⟩,
    ⟨_, _, _, takes_reset 0x13 true ([0, 1] ++ List.replicate 25 0x41), by decide⟩,
    ⟨_, _, _, takes_chamber 0x13 true [0, 1, 0x41], by decide +kernel⟩, by decide +kernel⟩

theorem witness_MarksClear :
    (∃ s l c, State.Takes s l c 0x15 true 3 ∧ 32 < u8 c.payload 2) ∧
    (∃ s l c, State.Takes s l c 0x15 true 3 ∧ u16 c.payload 0 = 449 ∧ u8 c.payload 2 = 32) :=
  ⟨⟨_, _, _, takes_reset 0x15 true [0, 1, 33], by decide⟩, ⟨_, _, _, takes_reset 0x15 true [1, 0xC1, 32], by decide⟩⟩

/-- A frame of Link A on the stack. -/
def linkFrameOf (saved : Phase) : StackFrame := ⟨.link .a, 0, saved, none, [], [], none⟩

/-- The chamber INTERRUPTED by these frames. -/
def interrupted (frames : List StackFrame) : State :=
  chamber.modFloor fun f => { f with phase := .interrupted, stack := frames }

theorem witness_ReadCommands :
    (∃ s l c, State.Takes s l c 0x14 false 3 ∧ u16 c.payload 0 = 480 ∧ u8 c.payload 2 = 2) ∧
    (∃ s l c, State.Takes s l c 0x14 false 3 ∧ u16 c.payload 0 = 480 ∧ u8 c.payload 2 = 1 ∧
      (takeFitting 16 246 ((List.range' 480 1).map fun n => s.seatBytes s.freeDraws (n - 480) n)).length = 1) ∧
    (∃ s l c, State.Takes s l c 0x14 false 3 ∧ u16 c.payload 0 = 449 ∧ u8 c.payload 2 = 32 ∧
      (takeFitting 16 246 ((List.range' 449 32).map fun n => s.seatBytes s.freeDraws (n - 449) n)).length ≠ 32) ∧
    (∃ s l c, State.Takes s l c 0x26 false 1 ∧ u8 c.payload 0 = 64) ∧
    (∃ s l c, State.Takes s l c 0x26 false 1 ∧ u8 c.payload 0 = 63) ∧
    (∃ s l c, State.Takes s l c 0x35 false 0) ∧ (∃ s l c, State.Takes s l c 0x37 false 0) ∧
    (∃ s l c, State.Takes s l c 0x40 false 0) ∧ (∃ s l c, State.Takes s l c 0x4A false 1 ∧ 3 < u8 c.payload 0) ∧
    (∃ s l c, State.Takes s l c 0x4A false 1 ∧ u8 c.payload 0 ≤ 3 ∧ s.floor.stack.length ≤ u8 c.payload 0) ∧
    (∃ s l c, State.Takes s l c 0x4A false 1 ∧ s.floor.stack[u8 c.payload 0]? = some (linkFrameOf .openFloor)) ∧
    (∃ s l c, State.Takes s l c 0x51 false 0) ∧ (∃ s l c, State.Takes s l c 0x62 false 1 ∧ 3 < u8 c.payload 0) ∧
    (∃ s l c, State.Takes s l c 0x62 false 1 ∧ u8 c.payload 0 = (3 : TrunkNo)) :=
  ⟨⟨_, _, _, takes_reset 0x14 false [1, 0xE0, 2], by decide⟩, ⟨_, _, _, takes_reset 0x14 false [1, 0xE0, 1], by decide +kernel⟩,
    ⟨_, _, _, takes_reset 0x14 false [1, 0xC1, 32], by decide +kernel⟩,
    ⟨_, _, _, takes_reset 0x26 false [64], by decide⟩, ⟨_, _, _, takes_reset 0x26 false [63], by decide⟩,
    ⟨_, _, _, takes_reset 0x35 false []⟩, ⟨_, _, _, takes_reset 0x37 false []⟩, ⟨_, _, _, takes_reset 0x40 false []⟩,
    ⟨_, _, _, takes_reset 0x4A false [4], by decide⟩, ⟨_, _, _, takes_reset 0x4A false [0], by decide⟩,
    ⟨_, _, _, takes_holding (interrupted [linkFrameOf .openFloor]) 0x4A false [0] (by decide +kernel) (by decide +kernel), rfl⟩,
    ⟨_, _, _, takes_reset 0x51 false []⟩, ⟨_, _, _, takes_reset 0x62 false [4], by decide⟩,
    ⟨_, _, _, takes_reset 0x62 false [3], by decide⟩⟩

theorem witness_ListInsert :
    (∃ s l c, State.Takes s l c 0x20 true 6 ∧ u16 c.payload 0 < 1) ∧
    (∃ s l c, State.Takes s l c 0x20 true 6 ∧ u16 c.payload 0 = 480 ∧ 3 ≤ u8 c.payload 2) ∧
    (∃ s l c, State.Takes s l c 0x20 true 6 ∧ u16 c.payload 0 = 480 ∧ u8 c.payload 2 = 2 ∧
      u8 c.payload 3 = s.floor.requests.length + 1) ∧
    (∃ s l c, State.Takes s l c 0x20 true 6 ∧ u16 c.payload 0 = 480 ∧ u8 c.payload 2 = 2 ∧
      u8 c.payload 3 = s.floor.requests.length ∧ u16 c.payload 4 = 36001) ∧
    (∃ s l c, State.Takes s l c 0x20 true 6 ∧ u16 c.payload 0 = 480 ∧ u8 c.payload 2 = 1 ∧ u16 c.payload 4 = 65534) ∧
    (∃ s l c, State.Takes s l c 0x20 true 6 ∧ u16 c.payload 0 = 7 ∧ (s.seat 7).binding = none ∧
      placeIndex .head (u8 c.payload 3) s.floor.requests.length = some 0) ∧
    (∃ s l c, State.Takes s l c 0x20 true 6 ∧ u16 c.payload 0 = 5 ∧ (s.seat 5).binding ≠ none ∧ s.hasClass 5 .delegate = false) ∧
    (∃ s l c, State.Takes s l c 0x20 true 6 ∧ u16 c.payload 0 = 6 ∧ s.hasClass 6 .delegate = true ∧ (s.seat 6).enabled = false) ∧
    (∃ s l c, State.Takes s l c 0x20 true 6 ∧ u16 c.payload 0 = 1 ∧ s.hasClass 1 .delegate = true ∧ (s.seat 1).enabled = true ∧
      (s.seat 1).presence = .absent) ∧
    (∃ s l c, State.Takes s l c 0x20 true 6 ∧ u16 c.payload 0 = 1 ∧ s.hasClass 1 .delegate = true ∧ (s.seat 1).enabled = true ∧
      (s.seat 1).presence ≠ .absent ∧ s.floorState 1 ≠ .idle) ∧
    (∃ s l c, State.Takes s l c 0x20 true 6 ∧ u16 c.payload 0 = 1 ∧ s.hasClass 1 .delegate = true ∧ (s.seat 1).enabled = true ∧
      (s.seat 1).presence ≠ .absent ∧ s.floorState 1 = .idle ∧ 64 ≤ s.floor.requests.length) ∧
    (∃ s l c, State.Takes s l c 0x20 true 6 ∧ u16 c.payload 0 = 1 ∧ placeRow[u8 c.payload 2]? = some .index ∧
      placeIndex .index (u8 c.payload 3) s.floor.requests.length = some 1 ∧ u16 c.payload 4 = 36000 ∧
      s.hasClass 1 .delegate = true ∧ (s.seat 1).enabled = true ∧ (s.seat 1).presence ≠ .absent ∧ s.floorState 1 = .idle ∧
      s.floor.requests.length < 64 ∧ s.floor.phase = .openFloor ∧ s.floor.policy.grantMode = .manual) :=
  ⟨⟨_, _, _, takes_reset 0x20 true [0, 0, 0, 0, 0xFF, 0xFF], by decide⟩,
    ⟨_, _, _, takes_reset 0x20 true [1, 0xE0, 3, 0, 0xFF, 0xFF], by decide⟩,
    ⟨_, _, _, takes_reset 0x20 true [1, 0xE0, 2, 1, 0xFF, 0xFF], by decide⟩,
    ⟨_, _, _, takes_reset 0x20 true [1, 0xE0, 2, 0, 0x8C, 0xA1], by decide⟩,
    ⟨_, _, _, takes_reset 0x20 true [1, 0xE0, 1, 9, 0xFF, 0xFE], by decide⟩,
    ⟨_, _, _, takes_chamber 0x20 true [0, 7, 0, 0, 0xFF, 0xFF], by decide +kernel⟩,
    ⟨_, _, _, takes_chamber 0x20 true [0, 5, 0, 0, 0xFF, 0xFF], by decide +kernel⟩,
    ⟨_, _, _, takes_chamber 0x20 true [0, 6, 0, 0, 0xFF, 0xFF], by decide +kernel⟩,
    ⟨_, _, _, takes_holding (chamber.modSeat 1 fun r => { r with presence := .absent }) 0x20 true [0, 1, 0, 0, 0xFF, 0xFF]
      (by decide +kernel) (by decide +kernel), by decide +kernel⟩,
    ⟨_, _, _, takes_holding (speaking 0 1 chamber) 0x20 true [0, 1, 0, 0, 0xFF, 0xFF] (by decide +kernel) (by decide +kernel),
      by decide +kernel⟩,
    ⟨_, _, _, takes_holding (chamber.modFloor fun f => { f with requests := (List.range 64).map fun i => ⟨100 + i, .host, 0, none⟩ })
      0x20 true [0, 1, 0, 0, 0xFF, 0xFF] (by decide +kernel) (by decide +kernel), by decide +kernel⟩,
    ⟨_, _, _, takes_holding (waiting 2 chamber) 0x20 true [0, 1, 2, 1, 0x8C, 0xA0] (by decide +kernel) (by decide +kernel),
      by decide +kernel⟩⟩

theorem witness_ListRemoveClear :
    (∃ s l c, State.Takes s l c 0x21 true 2 ∧ 480 < u16 c.payload 0) ∧
    (∃ s l c, State.Takes s l c 0x21 true 2 ∧ u16 c.payload 0 = 480 ∧ ∀ e ∈ s.floor.requests, e.seat ≠ 480) ∧
    (∃ s l c, State.Takes s l c 0x21 true 2 ∧ u16 c.payload 0 = 2 ∧ ∃ e ∈ s.floor.requests, e.seat = 2) ∧
    (∃ s l c, State.Takes s l c 0x23 true 0 ∧ s.floor.requests = []) ∧
    (∃ s l c, State.Takes s l c 0x23 true 0 ∧ s.floor.requests ≠ []) :=
  ⟨⟨_, _, _, takes_reset 0x21 true [1, 0xE1], by decide⟩, ⟨_, _, _, takes_reset 0x21 true [1, 0xE0], by decide⟩,
    ⟨_, _, _, takes_holding (waiting 2 chamber) 0x21 true [0, 2] (by decide +kernel) (by decide +kernel), by decide +kernel⟩,
    ⟨_, _, _, takes_reset 0x23 true [], rfl⟩,
    ⟨_, _, _, takes_holding (waiting 2 chamber) 0x23 true [] (by decide +kernel) (by decide +kernel), by decide +kernel⟩⟩

/-- Seats 2 and 3 wait, in this order. -/
def twoWaiting : State := waiting 3 (waiting 2 chamber)

/-- The exchanges of a draw over three items from the draw state 1: places 2 and 0, then place 1 with itself. -/
def exchanges : Nat → List Nat
  | 0 => [7, 8, 9]
  | _ => [9, 8, 7]

theorem witness_ListMoveShuffle :
    (∃ s l c, State.Takes s l c 0x22 true 4 ∧ u16 c.payload 0 = 0) ∧
    (∃ s l c, State.Takes s l c 0x22 true 4 ∧ u16 c.payload 0 = 480 ∧ u8 c.payload 2 = 3) ∧
    (∃ s l c, State.Takes s l c 0x22 true 4 ∧ u16 c.payload 0 = 480 ∧ u8 c.payload 2 = 2 ∧ s.floor.requestOf 480 = none) ∧
    (∃ s l c, State.Takes s l c 0x22 true 4 ∧ u16 c.payload 0 = 3 ∧ u8 c.payload 2 = 2 ∧ s.floor.requestOf 3 ≠ none ∧
      u8 c.payload 3 = (s.floor.requests.filter (·.seat ≠ 3)).length + 1) ∧
    (∃ s l c, State.Takes s l c 0x22 true 4 ∧ u16 c.payload 0 = 3 ∧ placeRow[u8 c.payload 2]? = some .tail ∧
      s.floor.requestOf 3 = some ⟨3, .host, 0, none⟩ ∧
      placeIndex .tail (u8 c.payload 3) (s.floor.requests.filter (·.seat ≠ 3)).length = some 1 ∧
      (s.floor.requests.filter (·.seat ≠ 3)).insertIdx 1 ⟨3, .host, 0, none⟩ = s.floor.requests) ∧
    (∃ s l c, State.Takes s l c 0x22 true 4 ∧ u16 c.payload 0 = 3 ∧ placeRow[u8 c.payload 2]? = some .head ∧
      placeIndex .head (u8 c.payload 3) (s.floor.requests.filter (·.seat ≠ 3)).length = some 0 ∧
      (s.floor.requests.filter (·.seat ≠ 3)).insertIdx 0 ⟨3, .host, 0, none⟩ ≠ s.floor.requests ∧
      s.floor.phase = .openFloor ∧ s.floor.policy.grantMode = .manual) ∧
    (∃ s l c, State.Takes s l c 0x24 true 0 ∧ s.floor.requests.length < 2) ∧
    (∃ s l c, State.Takes s l c 0x24 true 0 ∧ 2 ≤ s.floor.requests.length ∧ s.floor.phase = .openFloor ∧
      s.floor.policy.grantMode = .manual) ∧
    ((Nat.repeat drawStep 1 (1 : Word)).toNat % 3 = 0 ∧ (Nat.repeat drawStep 2 (1 : Word)).toNat % 2 = 1 ∧
      exchanges 0 = [7, 8, 9] ∧ ((exchanges 1)[2]? = (exchanges 0)[0]? ∧ (exchanges 1)[0]? = (exchanges 0)[2]? ∧
        (exchanges 1)[1]? = (exchanges 0)[1]?) ∧ exchanges 2 = exchanges 1 ∧
      drawOrder (1 : Word) [7, 8, 9] = (exchanges 2, Nat.repeat drawStep 2 1)) :=
  ⟨⟨_, _, _, takes_reset 0x22 true [0, 0, 0, 0], by decide⟩, ⟨_, _, _, takes_reset 0x22 true [1, 0xE0, 3, 0], by decide⟩,
    ⟨_, _, _, takes_reset 0x22 true [1, 0xE0, 2, 9], by decide⟩,
    ⟨_, _, _, takes_holding twoWaiting 0x22 true [0, 3, 2, 2] (by decide +kernel) (by decide +kernel), by decide +kernel⟩,
    ⟨_, _, _, takes_holding twoWaiting 0x22 true [0, 3, 1, 0] (by decide +kernel) (by decide +kernel), by decide +kernel⟩,
    ⟨_, _, _, takes_holding twoWaiting 0x22 true [0, 3, 0, 0] (by decide +kernel) (by decide +kernel), by decide +kernel⟩,
    ⟨_, _, _, takes_reset 0x24 true [], by decide⟩,
    ⟨_, _, _, takes_holding twoWaiting 0x24 true [] (by decide +kernel) (by decide +kernel), by decide +kernel⟩, by decide⟩

theorem witness_ListGate :
    (∃ s l c, State.Takes s l c 0x25 true 1 ∧ 2 ≤ u8 c.payload 0) ∧
    (∃ s l c, State.Takes s l c 0x25 true 1 ∧ u8 c.payload 0 = 0 ∧ Gate.opened = s.floor.gate) ∧
    (∃ s l c, State.Takes s l c 0x25 true 1 ∧ u8 c.payload 0 = 1 ∧ Gate.closed ≠ s.floor.gate) :=
  ⟨⟨_, _, _, takes_reset 0x25 true [2], by decide⟩, ⟨_, _, _, takes_reset 0x25 true [0], by decide⟩,
    ⟨_, _, _, takes_reset 0x25 true [1], by decide⟩⟩

theorem witness_FloorOpen :
    (∃ s l c, State.Takes s l c 0x30 true 0 ∧ s.floor.phase = .openFloor) ∧
    (∃ s l c, State.Takes s l c 0x30 true 0 ∧ s.floor.phase = .interrupted) ∧
    (∃ s l c, State.Takes s l c 0x30 true 0 ∧ s.floor.phase = .halted ∧ s.floor.policy.grantMode = .manual) ∧
    (∃ s l c, State.Takes s l c 0x30 true 0 ∧ s.floor.phase = .halted ∧ s.floor.policy.grantMode = .auto ∧
      s.floor.policy.floorMax ≤ 6 ∧ s.floor.replies = [] ∧ s.floor.policy.fullPolicy = .wait ∧
      s.floor.slots = Vector.replicate 6 none ∧ (s.floor.requests.map (·.seat)).Nodup ∧
      s.floor.requests.filter (fun e => s.isHere e.seat) = [⟨2, .host, 0, none⟩] ∧
      next (exec (.floorOpen l) s) fun t => t.floor.openCount < s.floor.policy.floorMax) :=
  ⟨⟨_, _, _, takes_chamber 0x30 true [], by decide +kernel⟩,
    ⟨_, _, _, takes_holding (interrupted [linkFrameOf .openFloor]) 0x30 true [] (by decide +kernel) (by decide +kernel), rfl⟩,
    ⟨_, _, _, takes_reset 0x30 true [], by decide⟩,
    ⟨_, _, _, takes_holding (auto ((waiting 6 (waiting 2 chamber)).modFloor fun f => { f with phase := .halted })) 0x30 true []
      (by decide +kernel) (by decide +kernel), by decide +kernel⟩⟩

theorem witness_FloorHaltClear :
    (∃ s l c, State.Takes s l c 0x31 true 0 ∧ s.floor.phase = .halted) ∧
    (∃ s l c, State.Takes s l c 0x31 true 0 ∧ s.floor.phase ≠ .halted) ∧
    (∃ s l c, State.Takes s l c 0x32 true 0 ∧ s.floor.phase = .halted ∧ (∀ i : Fin 2, s.floor.chairs[i] = none) ∧
      s.floor.requests = []) ∧
    (∃ s l c, State.Takes s l c 0x32 true 0 ∧
      ¬ (s.floor.phase = .halted ∧ (∀ i : Fin 2, s.floor.chairs[i] = none) ∧ s.floor.requests = [])) :=
  ⟨⟨_, _, _, takes_reset 0x31 true [], rfl⟩, ⟨_, _, _, takes_chamber 0x31 true [], by decide +kernel⟩,
    ⟨_, _, _, takes_reset 0x32 true [], by decide⟩, ⟨_, _, _, takes_chamber 0x32 true [], by decide +kernel⟩⟩

/-- Seats 1 and 2 speak on the two places of the floor and seat 3 waits. -/
def fullFloor : State := waiting 3 (speaking 1 2 (speaking 0 1 chamber))

/-- A REPLY slot of a seat in place 1, and the phase REPLY_ROUND with this subject. -/
def roundOf (n subject : Nat) (s : State) : State :=
  s.modFloor fun f => { f with
    phase := .replyRound, subject := some subject
    slots := f.slots.set 1 (some ⟨n, .reply, .auto, 50, 600, some 650, some 350, false⟩) }

theorem witness_GrantOpensSlot :
    (∃ s l c, State.Takes s l c 0x33 true 6 ∧ u8 c.payload 0 = 0 ∧ s.firstPresent.map (·.seat) = some 2 ∧
      s.floor.phase = .openFloor ∧ s.floor.openCount < s.floor.policy.floorMax ∧ s.floor.freeSlot = some 1 ∧
      (c.payload.getD 3 0).getLsbD 0 = true ∧ (c.payload.getD 3 0).getLsbD 1 = false) ∧
    (∃ s l c, State.Takes s l c 0x33 true 6 ∧ u8 c.payload 0 = 1 ∧ u16 c.payload 1 = 2 ∧ s.hasClass 2 .delegate = true ∧
      (s.seat 2).enabled = true ∧ s.isHere 2 = true ∧ s.floorState 2 = .idle ∧ s.floor.phase = .openFloor ∧
      s.floor.openCount < s.floor.policy.floorMax ∧ s.floor.freeSlot = some 0 ∧
      (c.payload.getD 3 0).getLsbD 1 = true ∧ u16 c.payload 4 = 36000) ∧
    (∃ s l c, State.Takes s l c 0x33 true 6 ∧ u8 c.payload 0 = 2) ∧
    (∃ s l c, State.Takes s l c 0x33 true 6 ∧ u8 c.payload 0 = 1 ∧ u16 c.payload 1 = 481) ∧
    (∃ s l c, State.Takes s l c 0x33 true 6 ∧ u8 c.payload 0 = 1 ∧ u16 c.payload 1 = 480 ∧
      (c.payload.getD 3 0).getLsbD 1 = true ∧ u16 c.payload 4 = 36001) ∧
    (∃ s l c, State.Takes s l c 0x33 true 6 ∧ u8 c.payload 0 = 1 ∧ u16 c.payload 1 = 480 ∧
      (c.payload.getD 3 0).getLsbD 1 = true ∧ u16 c.payload 4 = 36000 ∧ s.floor.phase ≠ .openFloor) ∧
    (∃ s l c, State.Takes s l c 0x33 true 6 ∧ u8 c.payload 0 = 0 ∧ (c.payload.getD 3 0).getLsbD 1 = false ∧
      s.floor.phase = .openFloor ∧ s.firstPresent = none) ∧
    (∃ s l c, State.Takes s l c 0x33 true 6 ∧ u8 c.payload 0 = 1 ∧ u16 c.payload 1 = 7 ∧ s.floor.phase = .openFloor ∧
      (s.seat 7).binding = none) ∧
    (∃ s l c, State.Takes s l c 0x33 true 6 ∧ u8 c.payload 0 = 1 ∧ u16 c.payload 1 = 5 ∧ s.floor.phase = .openFloor ∧
      (s.seat 5).binding ≠ none ∧ s.hasClass 5 .delegate = false) ∧
    (∃ s l c, State.Takes s l c 0x33 true 6 ∧ u8 c.payload 0 = 1 ∧ u16 c.payload 1 = 6 ∧ s.floor.phase = .openFloor ∧
      s.hasClass 6 .delegate = true ∧ (s.seat 6).enabled = false) ∧
    (∃ s l c, State.Takes s l c 0x33 true 6 ∧ u8 c.payload 0 = 1 ∧ u16 c.payload 1 = 1 ∧ s.floor.phase = .openFloor ∧
      s.hasClass 1 .delegate = true ∧ (s.seat 1).enabled = true ∧ s.isHere 1 = false) ∧
    (∃ s l c, State.Takes s l c 0x33 true 6 ∧ u8 c.payload 0 = 1 ∧ u16 c.payload 1 = 1 ∧ s.floor.phase = .openFloor ∧
      s.hasClass 1 .delegate = true ∧ (s.seat 1).enabled = true ∧ s.isHere 1 = true ∧ s.floorState 1 = .live) ∧
    (∃ s l c, State.Takes s l c 0x33 true 6 ∧ s.grantNames c 3 ∧ (c.payload.getD 3 0).getLsbD 0 = false ∧
      s.floor.phase = .openFloor ∧ s.floor.openCount = s.floor.policy.floorMax) ∧
    (∃ s l c, State.Takes s l c 0x33 true 6 ∧ s.grantNames c 3 ∧ (c.payload.getD 3 0).getLsbD 0 = true ∧
      s.floor.phase = .openFloor ∧ s.floor.policy.floorMax < s.floor.openCount) ∧
    (∃ s l c i d j, State.Takes s l c 0x33 true 6 ∧ s.grantNames c 3 ∧ (c.payload.getD 3 0).getLsbD 0 = true ∧
      s.floor.phase = .openFloor ∧ s.floor.openCount = s.floor.policy.floorMax ∧
      s.floor.oldestSpeak s.time = some (i, d) ∧ (s.slotClosed i d 4).floor.freeSlot = some j) ∧
    Pressed .next (fun s _ => s.floor.policy.chairNext = false) ∧
    Pressed .next (fun s _ => s.floor.policy.chairNext = true ∧ s.floor.phase = .halted) ∧
    Pressed .next (fun s _ => s.floor.policy.chairNext = true ∧ s.floor.phase = .openFloor ∧
      s.floor.policy.floorMax = s.floor.openCount) ∧
    Pressed .next (fun s _ => s.floor.policy.chairNext = true ∧ s.floor.phase = .openFloor ∧
      s.floor.openCount < s.floor.policy.floorMax ∧ s.firstPresent = none) ∧
    Pressed .next (fun s _ => s.floor.policy.chairNext = true ∧ s.floor.phase = .openFloor ∧
      s.floor.openCount < s.floor.policy.floorMax ∧ s.firstPresent = some ⟨3, .host, 0, none⟩ ∧ s.floor.freeSlot = some 1) :=
  ⟨⟨_, _, _, takes_holding (waiting 2 (speaking 0 1 chamber)) 0x33 true [0, 0, 0, 1, 0, 0] (by decide +kernel)
      (by decide +kernel), by decide +kernel⟩,
    ⟨_, _, _, takes_chamber 0x33 true [1, 0, 2, 2, 0x8C, 0xA0], by decide +kernel⟩,
    ⟨_, _, _, takes_reset 0x33 true [2, 0, 1, 0, 0, 0], by decide⟩,
    ⟨_, _, _, takes_reset 0x33 true [1, 1, 0xE1, 0, 0, 0], by decide⟩,
    ⟨_, _, _, takes_reset 0x33 true [1, 1, 0xE0, 2, 0x8C, 0xA1], by decide⟩,
    ⟨_, _, _, takes_reset 0x33 true [1, 1, 0xE0, 2, 0x8C, 0xA0], by decide⟩,
    ⟨_, _, _, takes_chamber 0x33 true [0, 0, 0, 0, 0, 0], by decide +kernel⟩,
    ⟨_, _, _, takes_chamber 0x33 true [1, 0, 7, 0, 0, 0], by decide +kernel⟩,
    ⟨_, _, _, takes_chamber 0x33 true [1, 0, 5, 0, 0, 0], by decide +kernel⟩,
    ⟨_, _, _, takes_chamber 0x33 true [1, 0, 6, 0, 0, 0], by decide +kernel⟩,
    ⟨_, _, _, takes_holding (chamber.modSeat 1 fun r => { r with presence := .absent }) 0x33 true [1, 0, 1, 0, 0, 0]
      (by decide +kernel) (by decide +kernel), by decide +kernel⟩,
    ⟨_, _, _, takes_holding (speaking 0 1 chamber) 0x33 true [1, 0, 1, 0, 0, 0] (by decide +kernel) (by decide +kernel),
      by decide +kernel⟩,
    ⟨_, _, _, takes_holding fullFloor 0x33 true [1, 0, 3, 0, 0, 0] (by decide +kernel) (by decide +kernel),
      Or.inr (by decide +kernel), by decide +kernel⟩,
    ⟨_, _, _, takes_holding (fullFloor.modFloor fun f => { f with policy := { f.policy with floorMax := 1 } }) 0x33 true
      [0, 0, 0, 1, 0, 0] (by decide +kernel) (by decide +kernel), Or.inl (by decide +kernel), by decide +kernel⟩,
    ⟨_, _, _, 0, ⟨1, .speak, .host, 0, 600, some 600, some 300, false⟩, 0,
      takes_holding fullFloor 0x33 true [1, 0, 3, 1, 0, 0] (by decide +kernel) (by decide +kernel), Or.inr (by decide +kernel),
      by decide +kernel⟩,
    pressed_president (chamber.modFloor fun f => { f with policy := { f.policy with chairNext := false } }) _ (.chair 0 1 0 0) _
      (by decide +kernel) (by decide +kernel),
    pressed_president (chamber.modFloor fun f => { f with phase := .halted }) _ (.chair 0 1 0 0) _ (by decide +kernel)
      (by decide +kernel),
    pressed_president fullFloor _ (.chair 0 1 0 0) _ (by decide +kernel) (by decide +kernel),
    pressed_president chamber _ (.chair 0 1 0 0) _ (by decide +kernel) (by decide +kernel),
    pressed_president (waiting 3 (speaking 0 1 chamber)) _ (.chair 0 1 0 0) _ (by decide +kernel) (by decide +kernel)⟩

theorem witness_CloseCommands :
    (∃ s l c, State.Takes s l c 0x34 true 3 ∧ u8 c.payload 0 = 2) ∧
    (∃ s l c, State.Takes s l c 0x34 true 3 ∧ u8 c.payload 0 = 0 ∧ u16 c.payload 1 = 481) ∧
    (∃ s l c, State.Takes s l c 0x34 true 3 ∧ u8 c.payload 0 = 1 ∧ s.floor.phase = .replyRound ∧ s.floor.openCount = 2 ∧
      s.floor.replies = [⟨3, 1, 0⟩] ∧ (s.floor.slotsByAge s.time).map (·.1) = [0, 1]) ∧
    (∃ s l c, State.Takes s l c 0x34 true 3 ∧ u8 c.payload 0 = 1 ∧ s.floor.phase = .openFloor ∧ s.floor.openCount = 2 ∧
      s.floor.replies = [⟨3, 1, 0⟩] ∧ s.floor.principal s.time =
        some (0, ⟨1, .speak, .host, 0, 600, some 600, some 300, false⟩)) ∧
    (∃ s l c, State.Takes s l c 0x34 true 3 ∧ u8 c.payload 0 = 1 ∧ s.floor.phase = .replyRound ∧ s.floor.openCount = 0 ∧
      s.floor.replies = []) ∧
    (∃ s l c, State.Takes s l c 0x34 true 3 ∧ u8 c.payload 0 = 0 ∧ u16 c.payload 1 = 480 ∧ s.floor.slotOf 480 = none ∧
      s.floor.chairOf 480 = none) ∧
    (∃ s l c, State.Takes s l c 0x34 true 3 ∧ u8 c.payload 0 = 0 ∧ u16 c.payload 1 = 5 ∧ s.floor.slotOf 5 = none ∧
      s.floor.chairOf 5 = some 1 ∧ s.floor.chairs[1] = some ⟨5, 0, .priority⟩) ∧
    (∃ s l c, State.Takes s l c 0x34 true 3 ∧ u8 c.payload 0 = 0 ∧ u16 c.payload 1 = 5 ∧ s.floor.slotOf 5 = none ∧
      s.floor.chairOf 5 = some 0 ∧ s.floor.chairs[0] = some ⟨5, 0, .mic⟩) ∧
    (∃ s l c, State.Takes s l c 0x34 true 3 ∧ u8 c.payload 0 = 0 ∧ u16 c.payload 1 = 1 ∧ s.floor.slotOf 1 = some 0 ∧
      s.floor.slots[0] = some ⟨1, .speak, .host, 0, 600, some 600, some 300, false⟩ ∧ s.floor.phase = .openFloor ∧
      s.floor.replies = [] ∧ s.floor.policy.grantMode = .manual) ∧
    (∃ s l c, State.Takes s l c 0x34 true 3 ∧ u8 c.payload 0 = 1 ∧ s.floor.phase = .halted) ∧
    (∃ s l c, State.Takes s l c 0x34 true 3 ∧ u8 c.payload 0 = 1 ∧ s.floor.phase = .openFloor ∧ s.floor.replies = [] ∧
      s.floor.openCount = 0) ∧
    (∃ s l c, State.Takes s l c 0x34 true 3 ∧ u8 c.payload 0 = 1 ∧ s.floor.phase = .openFloor ∧ s.floor.replies = [] ∧
      s.floor.openCount ≠ 0 ∧ s.floor.policy.grantMode = .manual) ∧
    Pressed .cut (fun s _ => s.floor.phase = .openFloor ∧ s.floor.principal s.time = none) ∧
    Pressed .cut (fun s _ => s.floor.phase = .openFloor ∧
      s.floor.principal s.time = some (0, ⟨1, .speak, .host, 0, 600, some 600, some 300, false⟩)) ∧
    Pressed .cut (fun s _ => s.floor.phase = .replyRound ∧ s.floor.replySlot = none) ∧
    Pressed .cut (fun s _ => s.floor.phase = .replyRound ∧
      s.floor.replySlot = some (1, ⟨2, .reply, .auto, 50, 600, some 650, some 350, false⟩)) ∧
    Pressed .cut (fun s _ => s.floor.phase = .interrupted) :=
  ⟨⟨_, _, _, takes_reset 0x34 true [2, 0, 1], by decide⟩, ⟨_, _, _, takes_reset 0x34 true [0, 1, 0xE1], by decide⟩,
    ⟨_, _, _, takes_holding (replying 3 1 (roundOf 2 1 (speaking 0 4 chamber))) 0x34 true [1, 0, 0] (by decide +kernel)
      (by decide +kernel), by decide +kernel⟩,
    ⟨_, _, _, takes_holding (replying 3 1 (speaking 1 2 (speaking 0 1 chamber))) 0x34 true [1, 0, 0] (by decide +kernel)
      (by decide +kernel), by decide +kernel⟩,
    ⟨_, _, _, takes_holding (chamber.modFloor fun f => { f with phase := .replyRound, subject := some 1 }) 0x34 true [1, 0, 0]
      (by decide +kernel) (by decide +kernel), by decide +kernel⟩,
    ⟨_, _, _, takes_reset 0x34 true [0, 1, 0xE0], by decide⟩,
    ⟨_, _, _, takes_holding (chairing 1 5 .priority chamber) 0x34 true [0, 0, 5] (by decide +kernel) (by decide +kernel),
      by decide +kernel⟩,
    ⟨_, _, _, takes_holding (chairing 0 5 .mic chamber) 0x34 true [0, 0, 5] (by decide +kernel) (by decide +kernel),
      by decide +kernel⟩,
    ⟨_, _, _, takes_holding (speaking 0 1 chamber) 0x34 true [0, 0, 1] (by decide +kernel) (by decide +kernel),
      by decide +kernel⟩,
    ⟨_, _, _, takes_reset 0x34 true [1, 0, 0], by decide⟩, ⟨_, _, _, takes_chamber 0x34 true [1, 0, 0], by decide +kernel⟩,
    ⟨_, _, _, takes_holding (speaking 0 1 chamber) 0x34 true [1, 0, 0] (by decide +kernel) (by decide +kernel),
      by decide +kernel⟩,
    pressed_president chamber _ (.chair 0 0 1 0) _ (by decide +kernel) (by decide +kernel),
    pressed_president (speaking 0 1 chamber) _ (.chair 0 0 1 0) _ (by decide +kernel) (by decide +kernel),
    pressed_president (chamber.modFloor fun f => { f with phase := .replyRound }) _ (.chair 0 0 1 0) _ (by decide +kernel)
      (by decide +kernel),
    pressed_president (roundOf 2 1 (speaking 0 1 chamber)) _ (.chair 0 0 1 0) _ (by decide +kernel) (by decide +kernel),
    pressed_president (interrupted [linkFrameOf .openFloor]) _ (.chair 0 0 1 0) _ (by decide +kernel) (by decide +kernel)⟩

/-- The first pair of a POLICY SET with a legal value. -/
theorem pairOk_first (payload : List Byte) (r : Nat × Nat) (h : policyRanges[u8 payload (3 * 0)]? = some r ∧
    r.1 ≤ u16 payload (3 * 0 + 1) ∧ u16 payload (3 * 0 + 1) ≤ r.2) (j : Nat) (hj : j < 1) : policyPairOk payload j := by
  obtain rfl : j = 0 := by omega
  exact ⟨fun i hi => absurd hi (Nat.not_lt_zero i), r, h⟩

theorem witness_PolicySet :
    (∃ s l c, State.Takes s l c 0x36 true 3 ∧ s.floor.policy.setPairs [] (policyPairs c.payload) = .error .range) ∧
    (∃ s l c, State.Takes s l c 0x36 true 3 ∧ s.floor.policy.setPairs [] (policyPairs c.payload) = .ok s.floor.policy) ∧
    (∃ s l c q, State.Takes s l c 0x36 true 3 ∧ s.floor.policy.setPairs [] (policyPairs c.payload) = .ok q ∧
      q ≠ s.floor.policy ∧ s.floor.phase ≠ .replyRound ∧ (s.floor.phase = .openFloor → q.grantMode = .manual)) ∧
    (∃ s l c, State.Takes s l c 0x36 true 3 ∧ u8 c.payload (3 * 0) = 15) ∧
    (∃ s l c, State.Takes s l c 0x36 true 6 ∧ 3 * 1 < 6 ∧ (∀ i, i < 1 → policyPairOk c.payload i) ∧
      u8 c.payload (3 * 0) = u8 c.payload (3 * 1)) ∧
    (∃ s l c, State.Takes s l c 0x36 true 6 ∧ (∀ i, i < 1 → policyPairOk c.payload i) ∧
      (∀ i, i < 1 → u8 c.payload (3 * i) ≠ u8 c.payload (3 * 1)) ∧ policyRanges[u8 c.payload (3 * 1)]? = some (0, 50) ∧
      50 < u16 c.payload (3 * 1 + 1)) ∧
    (∃ s l c, State.Takes s l c 0x36 true 3 ∧ policyRanges[u8 c.payload (3 * 0)]? = some (1, 6) ∧ u16 c.payload (3 * 0 + 1) < 1) ∧
    (∃ s l c, State.Takes s l c 0x36 true 6 ∧ (∀ j, 3 * j < 6 → policyPairOk c.payload j) ∧
      (List.range (6 / 3)).foldl (fun p j => p.stored (u8 c.payload (3 * j)) (u16 c.payload (3 * j + 1))) s.floor.policy ≠
        s.floor.policy) ∧
    (∃ s l c, State.Takes s l c 0x36 true 3 ∧ (∀ j, 3 * j < 3 → policyPairOk c.payload j) ∧
      (List.range (3 / 3)).foldl (fun p j => p.stored (u8 c.payload (3 * j)) (u16 c.payload (3 * j + 1))) s.floor.policy =
        s.floor.policy) :=
  ⟨⟨_, _, _, takes_reset 0x36 true [0, 0, 7], rfl⟩, ⟨_, _, _, takes_reset 0x36 true [0, 0, 2], rfl⟩,
    ⟨_, _, _, { Policy.initial with floorMax := 6 }, takes_reset 0x36 true [0, 0, 6], rfl, by decide, by decide, by decide⟩,
    ⟨_, _, _, takes_reset 0x36 true [15, 0, 0], by decide⟩,
    ⟨_, _, _, takes_reset 0x36 true [3, 0x17, 0x70, 3, 0, 0], by decide, pairOk_first _ (0, 6000) (by decide), by decide⟩,
    ⟨_, _, _, takes_reset 0x36 true [3, 0x17, 0x70, 14, 0, 51], pairOk_first _ (0, 6000) (by decide), by decide⟩,
    ⟨_, _, _, takes_reset 0x36 true [0, 0, 0], by decide⟩,
    ⟨_, _, _, takes_reset 0x36 true [3, 0x17, 0x70, 14, 0, 50], fun j hj => by
      rcases (by omega : j = 0 ∨ j = 1) with rfl | rfl
      · exact pairOk_first _ (0, 6000) (by decide) 0 (by decide)
      · exact ⟨by decide, (0, 50), by decide⟩, by decide⟩,
    ⟨_, _, _, takes_reset 0x36 true [0, 0, 2], fun j hj => pairOk_first _ (1, 6) (by decide) j (by omega), by decide⟩⟩

/-- A frame that holds seat 1 with this remaining time. -/
def holdingFrame (remaining : Option Nat) : StackFrame :=
  ⟨.link .a, 0, .openFloor, none, [⟨1, .speak, .host, remaining, true, true⟩], [], none⟩

theorem witness_Extend :
    (∃ s l c, State.Takes s l c 0x38 true 4 ∧ 36000 < u16 c.payload 2) ∧
    (∃ s l c d, State.Takes s l c 0x38 true 4 ∧ u16 c.payload 0 = 1 ∧ u16 c.payload 2 = 1 ∧ s.floor.slotOf 1 = some 0 ∧
      s.floor.slots[0] = some d ∧ d.deadline = none) ∧
    (∃ s l c d, State.Takes s l c 0x38 true 4 ∧ u16 c.payload 0 = 1 ∧ u16 c.payload 2 = 36000 ∧ s.floor.slotOf 1 = some 0 ∧
      s.floor.slots[0] = some d ∧ d.deadline = some 600 ∧ 36000 < ticksLeft s.time (after 600 36000)) ∧
    (∃ s l c d, State.Takes s l c 0x38 true 4 ∧ u16 c.payload 0 = 1 ∧ u16 c.payload 2 = 35500 ∧ s.floor.slotOf 1 = some 0 ∧
      s.floor.slots[0] = some d ∧ d.deadline = some 600 ∧ ticksLeft s.time (after 600 35500) = 36000) ∧
    (∃ s l c, State.Takes s l c 0x38 true 4 ∧ u16 c.payload 0 = 480 ∧ u16 c.payload 2 = 1 ∧ s.floor.slotOf 480 = none ∧
      s.floor.heldOf 480 = none) ∧
    (∃ s l c h, State.Takes s l c 0x38 true 4 ∧ u16 c.payload 0 = 1 ∧ s.floor.slotOf 1 = none ∧ s.floor.heldOf 1 = some h ∧
      h.remaining = none) ∧
    (∃ s l c h, State.Takes s l c 0x38 true 4 ∧ u16 c.payload 0 = 1 ∧ s.floor.slotOf 1 = none ∧ s.floor.heldOf 1 = some h ∧
      h.remaining = some 36000 ∧ 36000 < 36000 + u16 c.payload 2) ∧
    (∃ s l c h, State.Takes s l c 0x38 true 4 ∧ u16 c.payload 0 = 1 ∧ s.floor.slotOf 1 = none ∧ s.floor.heldOf 1 = some h ∧
      h.remaining = some 35999 ∧ 35999 + u16 c.payload 2 = 36000) :=
  ⟨⟨_, _, _, takes_reset 0x38 true [0, 1, 0x8C, 0xA1], by decide⟩,
    ⟨_, _, _, ⟨1, .speak, .host, 0, 0, none, none, false⟩,
      takes_holding (chamber.modFloor fun f => { f with slots := f.slots.set 0 (some ⟨1, .speak, .host, 0, 0, none, none, false⟩) })
        0x38 true [0, 1, 0, 1] (by decide +kernel) (by decide +kernel), by decide +kernel⟩,
    ⟨_, _, _, ⟨1, .speak, .host, 0, 600, some 600, some 300, false⟩,
      takes_holding (speaking 0 1 chamber) 0x38 true [0, 1, 0x8C, 0xA0] (by decide +kernel) (by decide +kernel), by decide +kernel⟩,
    ⟨_, _, _, ⟨1, .speak, .host, 0, 600, some 600, some 300, false⟩,
      takes_holding (speaking 0 1 chamber) 0x38 true [0, 1, 0x8A, 0xAC] (by decide +kernel) (by decide +kernel), by decide +kernel⟩,
    ⟨_, _, _, takes_reset 0x38 true [1, 0xE0, 0, 1], by decide⟩,
    ⟨_, _, _, ⟨1, .speak, .host, none, true, true⟩,
      takes_holding (interrupted [holdingFrame none]) 0x38 true [0, 1, 0, 1] (by decide +kernel) (by decide +kernel),
      by decide +kernel⟩,
    ⟨_, _, _, ⟨1, .speak, .host, some 36000, true, true⟩,
      takes_holding (interrupted [holdingFrame (some 36000)]) 0x38 true [0, 1, 0, 1] (by decide +kernel) (by decide +kernel),
      by decide +kernel⟩,
    ⟨_, _, _, ⟨1, .speak, .host, some 35999, true, true⟩,
      takes_holding (interrupted [holdingFrame (some 35999)]) 0x38 true [0, 1, 0, 1] (by decide +kernel) (by decide +kernel),
      by decide +kernel⟩⟩

theorem witness_ReplyCommands :
    (∃ s l c, State.Takes s l c 0x41 true 2 ∧ 480 < u16 c.payload 0) ∧
    (∃ s l c, State.Takes s l c 0x41 true 2 ∧ u16 c.payload 0 = 480 ∧ s.floor.replyOf 480 = none) ∧
    (∃ s l c, State.Takes s l c 0x41 true 2 ∧ u16 c.payload 0 = 2 ∧ s.floor.replyOf 2 = some ⟨2, 1, 0⟩ ∧
      s.floor.phase = .openFloor) ∧
    (∃ s l c, State.Takes s l c 0x42 true 0 ∧ s.floor.replies = []) ∧
    (∃ s l c, State.Takes s l c 0x42 true 0 ∧ s.floor.replies ≠ [] ∧ s.floor.phase = .openFloor) ∧
    (∃ s l c, State.Takes s l c 0x42 true 0 ∧ s.floor.replies ≠ [] ∧ s.floor.phase = .replyRound) ∧
    (∃ s l c, State.Takes s l c 0x41 true 2 ∧ u16 c.payload 0 = 3 ∧ s.floor.replyOf 3 = some ⟨3, 1, 0⟩ ∧
      s.floor.phase = .replyRound) ∧
    (∃ s l c, State.Takes s l c 0x34 true 3 ∧ u8 c.payload 0 = 0 ∧ u16 c.payload 1 = 1 ∧ s.floor.slotOf 1 = some 0 ∧
      s.floor.slots[0] = some ⟨1, .speak, .host, 0, 600, some 600, some 300, false⟩ ∧ s.floor.phase = .openFloor ∧
      s.floor.replies ≠ []) ∧
    (∃ s l c, State.Takes s l c 0x34 true 3 ∧ u8 c.payload 0 = 0 ∧ u16 c.payload 1 = 2 ∧ s.floor.slotOf 2 = some 1 ∧
      s.floor.slots[1] = some ⟨2, .reply, .auto, 50, 600, some 650, some 350, false⟩ ∧ s.floor.phase = .replyRound ∧
      s.floor.replies = []) ∧
    Pressed .rpl (fun s r => s.floorState r.seat = .replyWaiting ∧ s.floor.replyOf r.seat = some ⟨1, 2, 0⟩) ∧
    Pressed .rpl (fun s r => s.floorState r.seat = .waiting) ∧ Pressed .rpl (fun s r => s.floorState r.seat = .live) ∧
    Pressed .rpl (fun s r => s.floorState r.seat = .held) ∧
    Pressed .rpl (fun s r => s.floorState r.seat = .idle ∧ s.floor.phase = .halted) ∧
    Pressed .rpl (fun s r => s.floorState r.seat = .idle ∧ s.floor.phase = .openFloor ∧ s.floor.principal s.time = none) ∧
    Pressed .rpl (fun s r => s.floorState r.seat = .idle ∧ s.floor.phase = .openFloor ∧
      s.floor.principal s.time = some (0, ⟨2, .speak, .host, 0, 600, some 600, some 300, false⟩) ∧
      s.floor.policy.replyMax = s.floor.replies.length) ∧
    Pressed .rpl (fun s r => s.floorState r.seat = .idle ∧ s.floor.phase = .openFloor ∧
      s.floor.principal s.time = some (0, ⟨2, .speak, .host, 0, 600, some 600, some 300, false⟩) ∧
      s.floor.replies.length + 1 = s.floor.policy.replyMax) :=
  ⟨⟨_, _, _, takes_reset 0x41 true [1, 0xE1], by decide⟩, ⟨_, _, _, takes_reset 0x41 true [1, 0xE0], by decide⟩,
    ⟨_, _, _, takes_holding (replying 2 1 (speaking 0 1 chamber)) 0x41 true [0, 2] (by decide +kernel) (by decide +kernel),
      by decide +kernel⟩,
    ⟨_, _, _, takes_reset 0x42 true [], rfl⟩,
    ⟨_, _, _, takes_holding (replying 2 1 (speaking 0 1 chamber)) 0x42 true [] (by decide +kernel) (by decide +kernel),
      by decide +kernel⟩,
    ⟨_, _, _, takes_holding (replying 3 1 (roundOf 2 1 chamber)) 0x42 true [] (by decide +kernel) (by decide +kernel),
      by decide +kernel⟩,
    ⟨_, _, _, takes_holding (replying 3 1 (roundOf 2 1 chamber)) 0x41 true [0, 3] (by decide +kernel) (by decide +kernel),
      by decide +kernel⟩,
    ⟨_, _, _, takes_holding (replying 2 1 (speaking 0 1 chamber)) 0x34 true [0, 0, 1] (by decide +kernel) (by decide +kernel),
      by decide +kernel⟩,
    ⟨_, _, _, takes_holding (roundOf 2 1 chamber) 0x34 true [0, 0, 2] (by decide +kernel) (by decide +kernel), by decide +kernel⟩,
    pressed_delegate (replying 1 2 (speaking 0 2 chamber)) _ (.delegate 0 1) _ (by decide +kernel) (by decide +kernel),
    pressed_delegate (waiting 1 chamber) _ (.delegate 0 1) _ (by decide +kernel) (by decide +kernel),
    pressed_delegate (speaking 0 1 chamber) _ (.delegate 0 1) _ (by decide +kernel) (by decide +kernel),
    pressed_delegate (interrupted [holdingFrame none]) _ (.delegate 0 1) _ (by decide +kernel) (by decide +kernel),
    pressed_delegate (chamber.modFloor fun f => { f with phase := .halted }) _ (.delegate 0 1) _ (by decide +kernel)
      (by decide +kernel),
    pressed_delegate chamber _ (.delegate 0 1) _ (by decide +kernel) (by decide +kernel),
    pressed_delegate ((speaking 0 2 chamber).modFloor fun f => { f with policy := { f.policy with replyMax := 0 } }) _
      (.delegate 0 1) _ (by decide +kernel) (by decide +kernel),
    pressed_delegate ((speaking 0 2 chamber).modFloor fun f => { f with policy := { f.policy with replyMax := 1 } }) _
      (.delegate 0 1) _ (by decide +kernel) (by decide +kernel)⟩

/-- Four frames of Link A, the bottom one having saved OPEN. -/
def fourFrames : List StackFrame :=
  [linkFrameOf .interrupted, linkFrameOf .interrupted, linkFrameOf .interrupted, linkFrameOf .openFloor]

theorem witness_Suspend :
    (∃ s l c, State.Takes s l c 0x48 true 0 ∧ s.floor.stack.length < 4) ∧
    (∃ s l c, State.Takes s l c 0x48 true 0 ∧ s.floor.stack.length = 4 ∧
      s.floor.stack.getLast? = some (linkFrameOf .openFloor) ∧ s.floor.phase = .interrupted ∧ s.floor.replies = []) ∧
    Pressed .prio (fun s r => s.floor.stack.length = 4 ∧ (∀ fr rest, s.floor.stack = fr :: rest → fr.source ≠ .seat r.seat) ∧
      s.floor.chairOf r.seat = none ∧ ∀ j : Fin 2, s.floor.chairs[j].any (·.mode = .priority) = true) ∧
    Pressed .prio (fun s r => s.floor.stack.length = 4 ∧ (∀ fr rest, s.floor.stack = fr :: rest → fr.source ≠ .seat r.seat) ∧
      (s.floor.overflowed (.seat r.seat)).1.chairOf r.seat = some 1 ∧
      (s.floor.overflowed (.seat r.seat)).1.chairs[1] = some ⟨5, 0, .mic⟩) ∧
    Pressed .prio (fun s r => s.floor.stack = [] ∧ (s.floor.overflowed (.seat r.seat)).1.chairOf r.seat = none ∧
      s.floor.chairs[0].any (·.mode = .priority) = false ∧ (s.floor.overflowed (.seat r.seat)).1.freeChair = some 1) ∧
    Pressed .prio (fun s r => s.floor.stack = [] ∧ (s.floor.overflowed (.seat r.seat)).1.chairOf r.seat = none ∧
      s.floor.chairs[0].any (·.mode = .priority) = false ∧
      (s.floor.overflowed (.seat r.seat)).1.chairs[0] = some ⟨7, 0, .mic⟩ ∧
      (s.floor.overflowed (.seat r.seat)).1.chairs[1] = some ⟨8, 0, .mic⟩) :=
  ⟨⟨_, _, _, takes_holding (interrupted fourFrames.tail) 0x48 true [] (by decide +kernel) (by decide +kernel), by decide +kernel⟩,
    ⟨_, _, _, takes_holding (interrupted fourFrames) 0x48 true [] (by decide +kernel) (by decide +kernel), by decide +kernel⟩,
    pressed_president (chairing 0 7 .priority (chairing 1 8 .priority (interrupted fourFrames))) _ (.chair 0 0 0 1) _
      (by decide +kernel) ⟨rfl, fun _ _ h => by cases h; decide, by decide +kernel⟩,
    pressed_president (chairing 1 5 .mic (interrupted fourFrames)) _ (.chair 0 0 0 1) _
      (by decide +kernel) ⟨rfl, fun _ _ h => by cases h; decide, by decide +kernel⟩,
    pressed_president (chairing 0 7 .mic chamber) _ (.chair 0 0 0 1) _ (by decide +kernel) (by decide +kernel),
    pressed_president (chairing 0 7 .mic (chairing 1 8 .mic chamber)) _ (.chair 0 0 0 1) _ (by decide +kernel)
      (by decide +kernel)⟩

theorem witness_Resume :
    (∃ s l c, State.Takes s l c 0x49 true 0 ∧ s.floor.stack = []) ∧
    (∃ s l c, State.Takes s l c 0x49 true 0 ∧ s.floor.stack = linkFrameOf .interrupted :: fourFrames.tail) ∧
    (∃ s l c, State.Takes s l c 0x49 true 0 ∧ s.floor.stack = holdingFrame (some 100) :: [] ∧ s.PopsOnto (holdingFrame (some 100)) ∧
      s.restoredRecords (holdingFrame (some 100)) = [⟨1, .speak, .host, some 100, true, true⟩]) ∧
    Pressed .prio (fun s r => s.floor.stack = { linkFrameOf .openFloor with source := .seat 5, chairState := some .closed } :: [] ∧
      r.seat = 5 ∧ s.PopsOnto { linkFrameOf .openFloor with source := .seat 5, chairState := some .closed }) :=
  ⟨⟨_, _, _, takes_reset 0x49 true [], rfl⟩,
    ⟨_, _, _, takes_holding (interrupted fourFrames) 0x49 true [] (by decide +kernel) (by decide +kernel), by decide +kernel⟩,
    ⟨_, _, _, takes_holding (interrupted [holdingFrame (some 100)]) 0x49 true [] (by decide +kernel) (by decide +kernel), rfl,
      ⟨rfl, rfl, by decide +kernel, by decide +kernel, Or.inl rfl⟩, by decide +kernel⟩,
    pressed_president (chairing 0 5 .priority
        (interrupted [{ linkFrameOf .openFloor with source := .seat 5, chairState := some .closed }])) _ (.chair 0 0 0 1) _
      (by decide +kernel) ⟨rfl, rfl, rfl, rfl, by decide +kernel, fun _ h => (by cases h), Or.inl rfl⟩⟩

/-- Seat 1 speaks, warned since 100; seat 2 waits; seat 5 has the chair; seats 3 and 4 are refused, seat 4 until the present. -/
def shown : State :=
  let s := (speaking 0 1 (waiting 2 (chairing 0 5 .mic chamber))).modFloor fun f =>
    { f with slots := f.slots.set 0 (some ⟨1, .speak, .host, 0, 600, some 600, some 100, false⟩) }
  (s.modSeat 3 fun r => { r with refusalUntil := some 101 }).modSeat 4 fun r => { r with refusalUntil := some 100 }

theorem witness_FloorFrame :
    (∃ t, exec .deadlinePass State.reset = .next t ∨ exec .displacementCheck State.reset = .next t ∨
      exec .refusalEnd State.reset = .next t) ∧
    ((shown.seat 7).binding = none ∧ (∀ n ∈ [1, 2, 3, 4, 5], (shown.seat n).binding ≠ none) ∧ shown.floor.slotOf 1 = some 0 ∧
      shown.floor.slots[0] = some ⟨1, .speak, .host, 0, 600, some 600, some 100, false⟩ ∧
      (∀ n ∈ [2, 3, 4, 5], shown.floor.slotOf n = none) ∧ shown.floor.chairOf 5 = some 0 ∧
      (∀ n ∈ [2, 3, 4], shown.floor.chairOf n = none) ∧ (shown.seat 2).refusalUntil = none ∧
      (shown.seat 3).refusalUntil = some 101 ∧ reached shown.time 101 = false ∧ (shown.seat 4).refusalUntil = some 100 ∧
      reached shown.time 100 = true) ∧
    [1, 2, 3, 4, 5, 7].map shown.image = [⟨true, .warn⟩, ⟨false, .first⟩, ⟨false, .refused⟩, ⟨false, .off⟩, ⟨true, .live⟩,
      ⟨false, .off⟩] := ⟨⟨_, Or.inl rfl⟩, by decide +kernel, by decide +kernel⟩

theorem witness_Intake :
    (∃ s : State, s.due.intake = 0 + 1 ∧ (s.pins.hold = true ∨ s.floor.hold = .held)) ∧
    (∃ s : State, s.due.intake = 0 + 1 ∧ s.pins.hold = false ∧ s.floor.hold = .released) ∧
    (∃ s : State, 0 < s.due.intake ∧ s.pins.hold = false ∧ s.floor.hold = .released ∧
      s.taken = [⟨0, 2, 1, .delegate 1 0, 99⟩] ∧ s.seatAt 0 2 ≠ some 1) ∧
    (∃ s : State, 0 < s.due.intake ∧ s.pins.hold = false ∧ s.floor.hold = .released ∧
      s.taken = [pressOf 6 (.delegate 1 0)] ∧ s.seatAt 0 6 = some 6 ∧ s.isHere 6 = false) ∧
    (∃ s : State, s.OnePress (pressOf 5 (.delegate 1 0)) .req ∧ (s.seat 5).binding = some ⟨0, 5, .president⟩ ∧
      SeatClass.president.hasButton .req = false) ∧
    (∃ s : State, s.OnePress (pressOf 6 (.delegate 1 0)) .req ∧ (s.seat 6).binding = some ⟨0, 6, .delegate⟩ ∧
      (s.seat 6).enabled = false) ∧
    (Pressed .req (fun s r => s.floorState r.seat = .waiting) ∧
      Pressed .req (fun s r => s.floorState r.seat = .live ∧ s.floor.policy.selfClose = false) ∧
      Pressed .req (fun s r => s.floorState r.seat = .live ∧ s.floor.policy.selfClose = true ∧ s.floor.slotOf r.seat = some 0 ∧
        s.floor.slots[0] = some ⟨1, .speak, .host, 0, 600, some 600, some 300, false⟩) ∧
      Pressed .req (fun s r => s.floorState r.seat = .replyWaiting) ∧ Pressed .req (fun s r => s.floorState r.seat = .held) ∧
      Pressed .req (fun s r => s.floorState r.seat = .idle ∧ s.floor.gate = .closed) ∧
      Pressed .req (fun s r => s.floorState r.seat = .idle ∧ s.floor.gate = .opened ∧ s.floor.policy.grantQuota ≠ 0 ∧
        s.floor.policy.grantQuota = (s.seat r.seat).grantCount) ∧
      Pressed .req (fun s r => s.floorState r.seat = .idle ∧ s.floor.gate = .opened ∧ s.floor.policy.grantQuota = 0 ∧
        s.floor.policy.listMax = s.floor.requests.length) ∧
      Pressed .req (fun s r => s.floorState r.seat = .idle ∧ s.floor.gate = .opened ∧
        (s.seat r.seat).grantCount < s.floor.policy.grantQuota ∧ s.floor.requests.length < s.floor.policy.listMax)) ∧
    (Pressed .mic (fun s r => s.floor.chairOf r.seat = none ∧ s.floor.freeChair = none) ∧
      Pressed .mic (fun s r => s.floor.chairOf r.seat = none ∧ s.floor.freeChair = some 1) ∧
      Pressed .mic (fun s r => s.floor.chairOf r.seat = some 1 ∧ s.floor.chairs[1] = some ⟨5, 0, .priority⟩) ∧
      Pressed .mic (fun s r => s.floor.chairOf r.seat = some 0 ∧ s.floor.chairs[0] = some ⟨5, 0, .mic⟩)) :=
  ⟨⟨{ State.reset with due := ⟨1, 0, 0, 0, 0, 0, 0⟩, pins := ⟨false, true, false, false⟩ }, by decide⟩,
    ⟨{ State.reset with due := ⟨1, 0, 0, 0, 0, 0, 0⟩ }, by decide⟩,
    ⟨captured [(1, 2, .delegate 1 0)] chamber, by decide +kernel⟩, ⟨pressing 6 (.delegate 1 0) chamber, by decide +kernel⟩,
    ⟨pressing 5 (.delegate 1 0) chamber, onePress _ _ _ (by decide +kernel), by decide +kernel⟩,
    ⟨pressing 6 (.delegate 1 0) (chamber.modSeat 6 fun r => { r with presence := .present }),
      onePress _ _ _ (by decide +kernel), by decide +kernel⟩,
    ⟨pressed_delegate (waiting 1 chamber) _ (.delegate 1 0) _ (by decide +kernel) (by decide +kernel),
      pressed_delegate ((speaking 0 1 chamber).modFloor fun f => { f with policy := { f.policy with selfClose := false } }) _
        (.delegate 1 0) _ (by decide +kernel) (by decide +kernel),
      pressed_delegate (speaking 0 1 chamber) _ (.delegate 1 0) _ (by decide +kernel) (by decide +kernel),
      pressed_delegate (replying 1 2 (speaking 0 2 chamber)) _ (.delegate 1 0) _ (by decide +kernel) (by decide +kernel),
      pressed_delegate (interrupted [holdingFrame none]) _ (.delegate 1 0) _ (by decide +kernel) (by decide +kernel),
      pressed_delegate (chamber.modFloor fun f => { f with gate := .closed }) _ (.delegate 1 0) _ (by decide +kernel)
        (by decide +kernel),
      pressed_delegate ((chamber.modSeat 1 fun r => { r with grantCount := 3 }).modFloor fun f =>
        { f with policy := { f.policy with grantQuota := 3 } }) _ (.delegate 1 0) _ (by decide +kernel) (by decide +kernel),
      pressed_delegate ((waiting 2 chamber).modFloor fun f => { f with policy := { f.policy with listMax := 1 } }) _
        (.delegate 1 0) _ (by decide +kernel) (by decide +kernel),
      pressed_delegate ((waiting 2 chamber).modFloor fun f => { f with policy := { f.policy with grantQuota := 1 } }) _
        (.delegate 1 0) _ (by decide +kernel) (by decide +kernel)⟩,
    pressed_president (chairing 0 7 .mic (chairing 1 8 .mic chamber)) _ (.chair 1 0 0 0) _ (by decide +kernel) (by decide +kernel),
    pressed_president (chairing 0 7 .mic chamber) _ (.chair 1 0 0 0) _ (by decide +kernel) (by decide +kernel),
    pressed_president (chairing 1 5 .priority (interrupted [linkFrameOf .openFloor])) _ (.chair 1 0 0 0) _ (by decide +kernel)
      (by decide +kernel),
    pressed_president (chairing 0 5 .mic chamber) _ (.chair 1 0 0 0) _ (by decide +kernel) (by decide +kernel)⟩

/-- Seats 2 and 1 have pressed REQ at one tick, in this order of the FIFO. -/
def twoPresses : State := captured [(2, 2, .delegate 1 0), (1, 1, .delegate 1 0)] chamber

/-- The batch clauses of Intake: two records of one tick, and a batch of joins. -/
theorem witness_IntakeBatch :
    (∃ (batch : List CaptureRecord) (seats : List Nat), (∀ r ∈ batch, r.stamp = 99) ∧ batch ≠ [] ∧ seats.Pairwise (· < ·) ∧
      (∀ r ∈ batch, r.seat ∈ seats) ∧ ∀ n ∈ seats, ∃ r ∈ batch, r.seat = n) ∧
    (0 < twoPresses.due.intake ∧ twoPresses.pins.hold = false ∧ twoPresses.floor.hold = .released ∧
      twoPresses.floor.phase = .openFloor ∧ twoPresses.floor.policy.grantMode = .manual ∧ twoPresses.floor.gate = .opened ∧
      twoPresses.floor.policy.grantQuota = 0 ∧
      twoPresses.floor.requests.length + twoPresses.taken.length ≤ twoPresses.floor.policy.listMax ∧
      (twoPresses.taken.map (·.seat)).Nodup ∧ twoPresses.taken.length = 2) ∧
    ∀ r ∈ twoPresses.taken, twoPresses.seatAt r.trunk r.position = some r.seat ∧ twoPresses.isHere r.seat = true ∧
      r.counts.presses = [.req] ∧ twoPresses.mayPress r.seat .req ∧ twoPresses.floorState r.seat = .idle := by
  refine ⟨⟨[pressOf 2 (.delegate 1 0), pressOf 1 (.delegate 1 0)], [1, 2], by decide, by decide, by decide, by decide, by decide⟩,
    by decide +kernel, ?_⟩
  have h : twoPresses.taken = [pressOf 2 (.delegate 1 0), pressOf 1 (.delegate 1 0)] := by decide +kernel
  rw [h]
  intro r hr
  rcases List.mem_cons.1 hr with rfl | hr
  · exact ⟨by decide +kernel, by decide +kernel, by decide, mayPress _ _ _ ⟨0, 2, .delegate⟩ (by decide +kernel),
      by decide +kernel⟩
  · rcases List.mem_singleton.1 hr with rfl
    exact ⟨by decide +kernel, by decide +kernel, by decide, mayPress _ _ _ ⟨0, 1, .delegate⟩ (by decide +kernel),
      by decide +kernel⟩

/-- Seat 1 speaks and its deadline, 600, is the present. -/
def expiring : State :=
  { (speaking 0 1 chamber).modTime fun t => { t with chamberTime := 600 } with due := ⟨0, 1, 0, 1, 0, 0, 0⟩ }

/-- The same under EXPIRY_ACTION CLOSE. -/
def closing (s : State) : State := s.modFloor fun f => { f with policy := { f.policy with expiryAction := .close } }

theorem witness_AdvancePasses :
    (expiring.due.deadlinePass = 0 + 1 ∧ expiring.floor.policy.expiryAction = .warn ∧
      expiring.floor.slots[0] = some ⟨1, .speak, .host, 0, 600, some 600, some 300, false⟩ ∧
      (some (600 : ChamberTime)).any (reached expiring.time) = true) ∧
    expiring.due.refusalEnd = 0 + 1 ∧
    ((closing expiring).due.deadlinePass = 0 + 1 ∧ (closing expiring).floor.policy.expiryAction = .close ∧
      (closing expiring).floor.slots[0] = some ⟨1, .speak, .host, 0, 600, some 600, some 300, false⟩ ∧
      (some (600 : ChamberTime)).any (reached (closing expiring).time) = true ∧ (closing expiring).floor.phase = .openFloor ∧
      (closing expiring).floor.replies = [] ∧ (closing expiring).floor.policy.grantMode = .manual ∧
      ∀ j : Fin 6, j ≠ 0 → (closing expiring).floor.slots[j] = none) ∧
    ((auto (closing expiring)).floor.policy.grantMode = .auto ∧ (auto (closing expiring)).floor.policy.floorMax ≤ 6 ∧
      next (exec .deadlinePass (auto (closing expiring))) fun t =>
        t.floor.openCount < (auto (closing expiring)).floor.policy.floorMax) := by decide +kernel

/-- A full floor of two places under AUTO and DISPLACE, whose two speakers have held it for 100 ticks, and seat 3 waiting. -/
def displacing : State :=
  { (waiting 3 (speaking 1 2 (speaking 0 1 chamber))).modFloor fun f =>
      { f with policy := { f.policy with grantMode := .auto, fullPolicy := .displace } } with due := ⟨0, 0, 1, 0, 0, 0, 0⟩ }

/-- What a displacement check of this state finds: an open floor that is full, this first present entry and this slot. -/
def displaces (s : State) (e : RequestEntry) (oldest : Option (Fin 6 × DelegateSlot)) : Prop :=
  s.due.displacement = 0 + 1 ∧ s.floor.policy.grantMode = .auto ∧ s.floor.policy.fullPolicy = .displace ∧
    s.floor.phase = .openFloor ∧ s.floor.openCount = s.floor.policy.floorMax ∧ s.firstPresent = some e ∧
    oldest = ((s.floor.slotsByAge s.time).find? fun x => x.2.kind = .speak ∧ x.2.grantedAt ≠ s.time ∧
      reached s.time x.2.grantedAt ∧ reached s.time (after x.2.grantedAt s.floor.policy.minTenure))

/-- The oldest slot of `displacing`. -/
def displaced : Fin 6 × DelegateSlot := (0, ⟨1, .speak, .host, 0, 600, some 600, some 300, false⟩)

/-- The floor of `displacing` with MIN_TENURE one tick above the speakers' age: no slot qualifies. -/
def displacingNone : State := displacing.modFloor fun f => { f with policy := { f.policy with minTenure := 101 } }

theorem witness_DisplacementCheck :
    (∃ s : State, s.due.displacement = 0 + 1 ∧ s.floor.policy.grantMode = .manual) ∧
    displaces displacingNone ⟨3, .host, 0, none⟩ none ∧
    (displaces displacing ⟨3, .host, 0, none⟩ (some displaced) ∧ displacing.floor.replies = [] ∧
      (displacing.slotClosed displaced.1 displaced.2 4).floor.freeSlot = some 0 ∧
      ∀ x ∈ displacing.floor.requests, x.seat ≠ 3 → displacing.isHere x.seat = false) ∧
    (displaces (replying 4 1 displacing) ⟨3, .host, 0, none⟩ (some displaced) ∧ (replying 4 1 displacing).floor.replies ≠ [] ∧
      ((replying 4 1 displacing).floor.principal (replying 4 1 displacing).time).any (·.1 = displaced.1) = true) ∧
    (displaces (replying 4 2 displacing) ⟨3, .host, 0, none⟩ (some displaced) ∧
      ((replying 4 2 displacing).floor.principal (replying 4 2 displacing).time).any (·.1 = displaced.1) = false ∧
      ((replying 4 2 displacing).slotClosed displaced.1 displaced.2 4).floor.freeSlot = some 0) := by
  refine ⟨⟨{ State.reset with due := ⟨0, 0, 1, 0, 0, 0, 0⟩ }, by decide⟩, ?_, ?_, ?_, ?_⟩ <;> unfold displaces <;> decide +kernel

/-- The chamber with trunk 0 in this state. -/
def trunkIn (x : TrunkState) : State := chamber.modTrunk 0 fun e => { e with state := x }

/-- Seats 3 and 2 wait for a reply to seat 1, which speaks from another trunk. -/
def trunkReplies : State :=
  (replying 2 1 (replying 3 1 (speaking 0 1 chamber))).modSeat 1 fun r => { r with binding := some ⟨1, 1, .delegate⟩ }

/-- What holds of every seat number of a trunk holds of every seat bound there. -/
theorem boundTo_all (s : State) (tr : TrunkNo) (p : Nat → Prop) [DecidablePred p]
    (h : (List.range' 1 480).all (fun n => !s.boundTo tr n || decide (p n)) = true) (n : Nat) (hn : s.boundTo tr n = true) : p n := by
  by_cases hm : n ∈ List.range' 1 480
  · simpa [hn] using List.all_eq_true.1 h n hm
  · have hs : seatIndex n = none := by
      unfold seatIndex; split
      · rename_i hr; exact absurd (List.mem_range'_1.2 (by omega)) hm
      · rfl
    simp [State.boundTo, State.seat, hs, SeatRecord.initial] at hn

/-- The floor of `trunkReplies` meets the laws of the floor. -/
theorem trunkReplies_laws : (holding .a 0x60 [0, 2] trunkReplies).FloorLaws where
  once := by decide +kernel
  requests := by decide +kernel
  replies := by decide +kernel
  entries := by decide +kernel
  shut := by decide +kernel
  bare := by decide +kernel
  held := by decide +kernel
  replySlot := ⟨by decide +kernel, by decide +kernel, by decide +kernel, by decide +kernel⟩
  priority := ⟨by decide +kernel, fun _ h => (by cases h), fun higher fr lower h => (by
    have hs : (holding .a 0x60 [0, 2] trunkReplies).floor.stack = [] := by decide +kernel
    cases higher <;> cases hs.symm.trans h)⟩
  targets := ⟨by decide +kernel, by decide +kernel, by decide +kernel, by decide +kernel, by decide +kernel, by decide +kernel⟩
  delegates := by decide +kernel
  chairs := by decide +kernel
  policy := ⟨by decide +kernel, by decide +kernel, by decide +kernel, by decide +kernel, by decide +kernel, by decide +kernel,
    by decide +kernel, by decide +kernel, by decide +kernel⟩

theorem witness_TrunkCommands :
    (∃ s l c, State.Takes s l c 0x60 true 2 ∧ 3 < u8 c.payload 0 ∧ u8 c.payload 1 = 3) ∧
    (∃ s l c, State.Takes s l c 0x60 true 2 ∧ u8 c.payload 0 = 3 ∧ u8 c.payload 1 = 3) ∧
    (∃ s l c, State.Takes s l c 0x60 true 2 ∧ u8 c.payload 0 = (0 : TrunkNo) ∧ u8 c.payload 1 = 1 ∧
      (s.trunk 0).state ≠ .down ∧ s.boundTo 0 1 = true ∧ s.floor.slotOf 1 = some 0 ∧ s.boundTo 0 5 = true ∧
      s.floor.chairOf 5 = some 0 ∧ s.floor.phase = .openFloor ∧ s.floor.policy.grantMode = .manual) ∧
    (∃ s l c, State.Takes s l c 0x60 true 2 ∧ u8 c.payload 0 = (0 : TrunkNo) ∧ u8 c.payload 1 = 2 ∧
      (s.trunk 0).state ≠ .down ∧ s.FloorLaws ∧ (∀ n, s.boundTo 0 n = true → s.floorState n = .idle ∨ s.floorState n = .replyWaiting) ∧
      s.floor.phase = .openFloor ∧ s.floor.policy.grantMode = .manual ∧
      (s.floor.replies.filter fun e => s.boundTo 0 e.seat).map (·.seat) = [3, 2]) ∧
    (∃ s l c, State.Takes s l c 0x60 true 2 ∧ u8 c.payload 0 = (0 : TrunkNo) ∧ u8 c.payload 1 = 0 ∧
      (s.trunk 0).state = .enumerating) ∧
    (∃ s l c, State.Takes s l c 0x60 true 2 ∧ u8 c.payload 0 = (0 : TrunkNo) ∧ u8 c.payload 1 = 0 ∧
      (s.trunk 0).state = .running) ∧
    (∃ s l c, State.Takes s l c 0x60 true 2 ∧ u8 c.payload 0 = (3 : TrunkNo) ∧ u8 c.payload 1 = 1 ∧
      (s.trunk 3).state = .down) ∧
    (∃ s l c, State.Takes s l c 0x60 true 2 ∧ u8 c.payload 0 = (3 : TrunkNo) ∧ u8 c.payload 1 = 2 ∧
      (s.trunk 3).state = .down) ∧
    (∃ s l c, State.Takes s l c 0x60 true 2 ∧ u8 c.payload 0 = (0 : TrunkNo) ∧ u8 c.payload 1 = 0 ∧
      (s.trunk 0).state = .down ∧ (s.seat 1).binding = some ⟨0, 1, .delegate⟩) ∧
    (∃ s l c, State.Takes s l c 0x60 true 2 ∧ u8 c.payload 0 = (0 : TrunkNo) ∧ u8 c.payload 1 = 1 ∧
      (s.trunk 0).state ≠ .down) ∧
    (∃ s l c, State.Takes s l c 0x60 true 2 ∧ u8 c.payload 0 = (0 : TrunkNo) ∧ u8 c.payload 1 = 2 ∧
      (s.trunk 0).state ≠ .down) ∧
    (∃ s l c, State.Takes s l c 0x61 true 5 ∧ 3 < u8 c.payload 0) ∧
    (∃ s l c, State.Takes s l c 0x61 true 5 ∧ u8 c.payload 0 = (3 : TrunkNo) ∧ u16 c.payload 1 < 10) ∧
    (∃ s l c, State.Takes s l c 0x61 true 5 ∧ u8 c.payload 0 = (3 : TrunkNo) ∧ u16 c.payload 1 = (s.trunk 3).periodSet ∧
      u16 c.payload 3 = (s.trunk 3).waitSet) ∧
    (∃ s l c, State.Takes s l c 0x61 true 5 ∧ u8 c.payload 0 = (3 : TrunkNo) ∧ u16 c.payload 1 = 250 ∧ u16 c.payload 3 = 2000) :=
  ⟨⟨_, _, _, takes_reset 0x60 true [4, 3], by decide⟩, ⟨_, _, _, takes_reset 0x60 true [3, 3], by decide⟩,
    ⟨_, _, _, takes_holding (speaking 0 1 (chairing 0 5 .mic chamber)) 0x60 true [0, 1] (by decide +kernel) (by decide +kernel),
      by decide +kernel⟩,
    ⟨_, _, _, takes_holding trunkReplies 0x60 true [0, 2] (by decide +kernel) (by decide +kernel), by decide +kernel,
      by decide +kernel, by decide +kernel, trunkReplies_laws, boundTo_all _ _ _ (by decide +kernel), by decide +kernel⟩,
    ⟨_, _, _, takes_holding (trunkIn .enumerating) 0x60 true [0, 0] (by decide +kernel) (by decide +kernel), by decide +kernel⟩,
    ⟨_, _, _, takes_chamber 0x60 true [0, 0], by decide +kernel⟩, ⟨_, _, _, takes_reset 0x60 true [3, 1], by decide⟩,
    ⟨_, _, _, takes_reset 0x60 true [3, 2], by decide⟩,
    ⟨_, _, _, takes_holding (trunkIn .down) 0x60 true [0, 0] (by decide +kernel) (by decide +kernel), by decide +kernel⟩,
    ⟨_, _, _, takes_chamber 0x60 true [0, 1], by decide +kernel⟩, ⟨_, _, _, takes_chamber 0x60 true [0, 2], by decide +kernel⟩,
    ⟨_, _, _, takes_reset 0x61 true [4, 0, 40, 1, 44], by decide⟩, ⟨_, _, _, takes_reset 0x61 true [3, 0, 9, 1, 44], by decide⟩,
    ⟨_, _, _, takes_reset 0x61 true [3, 0, 40, 1, 44], by decide⟩, ⟨_, _, _, takes_reset 0x61 true [3, 0, 250, 7, 208], by decide⟩⟩

theorem witness_CountsClear :
    (∃ s l c, State.Takes s l c 0x63 true 1 ∧ u8 c.payload 0 = (3 : TrunkNo)) ∧
    ∃ s l c, State.Takes s l c 0x63 true 1 ∧ u8 c.payload 0 = 4 :=
  ⟨⟨_, _, _, takes_reset 0x63 true [3], by decide⟩, ⟨_, _, _, takes_reset 0x63 true [4], by decide⟩⟩

/-- Trunk 0 waits for a TALLY until moment 50060. -/
def tallying : State := State.reset.modTrunk 0 fun e => { e with state := .enumerating, plan := .tallyWait 50060 }

/-- The chamber with seat 1 in a slot, seat 2 on the request list and seat 3 on the reply list, trunk 0 waiting for a TALLY. -/
def tallyingSeats : State :=
  everyPlace.modTrunk 0 fun e => { e with state := .enumerating, plan := .tallyWait 50060 }

/-- Seats bound each at the position of its own number obey the position map (R2). -/
theorem bindings_of_all (s : State)
    (h : (List.range' 1 480).all (fun n => (s.seat n).binding.all fun b => decide (b.position = n ∧ n ≤ 120)) = true) :
    s.BindingsLaw := by
  have key : ∀ n b, (s.seat n).binding = some b → b.position = n ∧ 1 ≤ n ∧ n ≤ 120 := by
    intro n b hb
    by_cases hm : n ∈ List.range' 1 480
    · have hn := List.all_eq_true.1 h n hm
      simp [hb] at hn
      exact ⟨hn.1, (List.mem_range'_1.1 hm).1, hn.2⟩
    · have hs : seatIndex n = none := by
        unfold seatIndex; split
        · rename_i hr; exact absurd (List.mem_range'_1.2 (by omega)) hm
        · rfl
      simp [State.seat, hs, SeatRecord.initial] at hb
  exact ⟨fun n b hb => (key n b hb).1 ▸ (key n b hb).2, fun n m b d hb hd _ hp => by
    rw [← (key n b hb).1, ← (key m d hd).1, hp]⟩

theorem witness_TallyWait :
    ((tallyingSeats.trunk 0).plan = .tallyWait 50060 ∧ tallyingSeats.answerAt 0 50030 ≤ 50060 ∧
      (tallyingSeats.seat 1).binding = some ⟨0, 1, .delegate⟩ ∧ tallyingSeats.floorState 1 = .live ∧
      tallyingSeats.floorState 2 = .waiting) ∧
    tallyingSeats.BindingsLaw ∧ tallyingSeats.floor.oneSlot 1 ∧
    (tallying.trunk 0).plan = .tallyWait 50060 ∧ tallying.answerAt 0 50030 ≤ 50060 ∧
    classifyTally (withCheck [0xC5, 0, 1]) = .valid 1 ∧ classifyTally (withCheck [0xC5, 0, 120]) = .valid 120 ∧
    classifyTally (withCheck [0xC5, 0, 121]) = .valid 121 ∧ classifyTally (withCheck [0xC5, 0, 0]) = .valid 0 ∧
    classifyTally [0xC5, 0] = .checkFault ∧ classifyTally (withCheck [0xC6, 0, 1]) = .discarded :=
  ⟨by decide +kernel, bindings_of_all _ (by decide +kernel), oneSlot_of_any _ _ (by decide +kernel), by decide +kernel⟩

/-- Trunk 0 with 2 stations found, about to probe this position, with this transaction in flight. -/
def probing (next : Nat) (x : Option Transaction) : State :=
  State.reset.modTrunk 0 fun e => { e with state := .enumerating, found := 2, plan := .probing next, inFlight := x }

/-- A STATUS of a delegate station at a position, with toggle T, the microphone shut and its REQ count. -/
def status (position toggle req : Byte) : List Byte := withCheck [0xC6, position, toggle <<< 7, req <<< 4, 0]

theorem witness_Probes :
    ((probing 2 none).trunk 0).plan = .probing 2 ∧ ((probing 2 none).trunk 0).inFlight = none ∧
      2 ≤ ((probing 2 none).trunk 0).found ∧
    ((probing 2 (some ⟨true, 1, false, 350⟩)).trunk 0).inFlight = some ⟨true, 1, false, 350⟩ ∧
      (probing 2 (some ⟨true, 1, false, 350⟩)).answerAt 0 320 ≤ 350 ∧
      classifyAnswer 1 (status 1 1 0) = .valid ⟨true, false, .delegate 0 0⟩ ∧
      2 ≤ ((probing 2 (some ⟨true, 1, false, 350⟩)).trunk 0).found ∧
    classifyAnswer 2 (status 2 0 3) = .valid ⟨false, false, .delegate 3 0⟩ ∧
      ((probing 3 (some ⟨true, 2, false, 350⟩)).trunk 0).found < 3 := by decide +kernel

/-- Every fault row ends a probe of position 2, the last one and not the last one; one seat of the trunk has answered and
another has not. -/
theorem witness_ProbeFaults :
    (∃ row, (probing 3 (some ⟨true, 2, false, 350⟩)).FaultRow 0 ⟨true, 2, false, 350⟩ row 0 0 1) ∧
    (∃ row, (probing 3 (some ⟨true, 2, false, 350⟩)).FaultRow 0 ⟨true, 2, false, 350⟩ row 1 0 0) ∧
    (∃ row, (probing 3 (some ⟨true, 2, false, 350⟩)).FaultRow 0 ⟨true, 2, false, 350⟩ row 0 1 0) ∧
    (((probing 3 (some ⟨true, 2, false, 350⟩)).trunk 0).inFlight = some ⟨true, 2, false, 350⟩ ∧
      ((probing 3 (some ⟨true, 2, false, 350⟩)).trunk 0).plan = .probing 3 ∧
      1 ≤ ((probing 3 (some ⟨true, 2, false, 350⟩)).trunk 0).found ∧
      ((probing 3 (some ⟨true, 2, false, 350⟩)).trunk 0).found < 3 ∧
      2 ≤ ((probing 2 (some ⟨true, 2, false, 350⟩)).trunk 0).found ∧
      ((probing 3 (some ⟨true, 2, false, 350⟩)).trunk 0).crcErrors + 1 ≤ 65535 ∧
      ((probing 3 (some ⟨true, 2, false, 350⟩)).trunk 0).formatErrors + 1 ≤ 65535 ∧
      ((probing 3 (some ⟨true, 2, false, 350⟩)).trunk 0).misses + 1 ≤ 65535) ∧
    (∃ (s : State) (b d : Binding), (s.trunk 0).found = 2 ∧ (s.trunk 0).state = .enumerating ∧
      (s.seat 1).binding = some b ∧ b.trunk = 0 ∧ b.position ≤ 2 ∧ ((s.trunk 0).station b.position).miss = 0 ∧
      (s.seat 3).binding = some d ∧ d.trunk = 0 ∧ 2 < d.position ∧ s.floor.oneSlot 3) :=
  ⟨⟨.answerWaitExpiry 0, Or.inl (by decide)⟩,
    ⟨.answerFault 0 [0xC6, 2] 320, Or.inr ⟨[0xC6, 2], 320, rfl, by decide +kernel, Or.inl (by decide +kernel)⟩⟩,
    ⟨.answerFault 0 (status 1 0 0) 320, Or.inr ⟨status 1 0 0, 320, rfl, by decide +kernel, Or.inr (by decide +kernel)⟩⟩,
    by decide +kernel,
    ⟨(speaking 0 3 chamber).modTrunk 0 fun e => { e with state := .enumerating, found := 2, plan := .probing 3 },
      ⟨0, 1, .delegate⟩, ⟨0, 3, .delegate⟩, by decide +kernel, by decide +kernel, by decide +kernel, by decide +kernel,
      by decide +kernel, by decide +kernel, by decide +kernel, by decide +kernel, by decide +kernel,
      oneSlot_of_any _ _ (by decide +kernel)⟩⟩

/-- The chamber with trunk 0 sweeping, next at position 10, with these pending entries, waiting beat and transaction. -/
def sweeping (served : Nat) (pending : List PendingUpdate) (beat : Option (BitVec 2)) (x : Option Transaction) : State :=
  chamber.modTrunk 0 fun e =>
    { e with plan := .sweeping 10 served, pending := pending, waitingBeat := beat, inFlight := x }

theorem witness_Sweeps :
    ((chamber.trunk 0).plan = .waiting ∧ (chamber.trunk 0).inFlight = none) ∧
    (((sweeping 4 [⟨1, true⟩] none none).trunk 0).plan = .sweeping 10 4 ∧ 10 ≤ ((sweeping 4 [⟨1, true⟩] none none).trunk 0).found) ∧
    ((sweeping 0 [] none none).trunk 0).pending = [] ∧
    ((sweeping 0 [] (some 1) none).trunk 0).waitingBeat = some 1 ∧
    (((sweeping 3 [⟨1, true⟩] none none).trunk 0).plan = .sweeping 10 3 ∧
      ((sweeping 3 [⟨1, true⟩] none none).trunk 0).pending = ⟨1, true⟩ :: []) := by decide +kernel

/-- The chamber with a POLL to position 1 in flight, this many capture records in the FIFO and this miss count at the position. -/
def polled (records miss : Nat) : State :=
  (sweeping 0 [] none (some ⟨false, 1, false, 350⟩)).modTrunk 0 fun e =>
    { e.modStation 1 fun y => { y with miss := miss } with fifo := List.replicate records ⟨0, 2, 2, .delegate 1 0, 99⟩ }

theorem witness_StatusAnswer :
    ((polled 23 2).trunk 0).inFlight = some ⟨false, 1, false, 350⟩ ∧ (polled 23 2).answerAt 0 320 ≤ 350 ∧
    classifyAnswer 1 (status 1 0 1) = .valid ⟨false, false, .delegate 1 0⟩ ∧ ((polled 23 2).trunk 0).state = .running ∧
    ((polled 23 2).trunk 0).plan = .sweeping 10 0 ∧ 10 ≤ ((polled 23 2).trunk 0).found ∧ (polled 23 2).seatAt 0 1 = some 1 ∧
    ((polled 23 2).seat 1).presence = .present ∧ (((polled 23 2).trunk 0).station 1).miss < 3 ∧
    ((PressCounts.delegate 1 0).isZero = false ∧ false = (((polled 23 2).trunk 0).station 1).toggle ∧
      ((polled 23 2).trunk 0).fifo.length < 24) ∧
    24 ≤ ((polled 24 0).trunk 0).fifo.length ∧ (PressCounts.delegate 0 0).isZero = true ∧
    classifyAnswer 1 (status 1 1 1) = .valid ⟨true, false, .delegate 1 0⟩ := by decide +kernel

/-- A POLL to position 10, the last of a sweep, is in flight with the microphone as commanded shut, and this miss count there. -/
def polledLast (x : TrunkState) (miss : Nat) (heard : Bool) : State :=
  chamber.modTrunk 0 fun e => { e.modStation 10 fun y => { y with miss := miss } with
    state := x, plan := .sweeping 11 0, inFlight := some ⟨false, 10, false, 350⟩, sweepHeard := heard }

/-- The general clauses of StatusAnswer: the last position of a sweep, with no seat, on a trunk RUNNING and FAULT; a reconnected
station; a microphone not as commanded; and a seat that returns to PRESENT. -/
theorem witness_StatusReturns :
    (((polledLast .fault 3 false).trunk 0).state = .fault ∧ ((polledLast .fault 3 false).trunk 0).inFlight =
        some ⟨false, 10, false, 350⟩ ∧ (polledLast .fault 3 false).answerAt 0 320 ≤ 350 ∧
      (((polledLast .fault 3 false).trunk 0).station 10).miss = 3 ∧ (polledLast .fault 3 false).seatAt 0 10 = none ∧
      ((polledLast .fault 3 false).trunk 0).plan = .sweeping 11 0 ∧
      ((polledLast .fault 3 false).trunk 0).planAfter = .waiting ∧
      classifyAnswer 10 (status 10 0 0) = .valid ⟨false, false, .delegate 0 0⟩) ∧
    (((polledLast .running 2 false).trunk 0).state = .running ∧ (polledLast .running 2 false).seatAt 0 10 = none ∧
      classifyAnswer 10 (status 10 0 1) = .valid ⟨false, false, .delegate 1 0⟩ ∧
      classifyAnswer 10 (withCheck [0xC6, 10, 0x40, 0, 0]) = .valid ⟨false, true, .delegate 0 0⟩ ∧
      (((polledLast .running 2 false).trunk 0).station 10).mismatch = false) ∧
    (((polled 0 0).modSeat 1 fun r => { r with presence := .unconfirmed, label := some [1] }).seatAt 0 1 = some 1 ∧
      (((polled 0 0).modSeat 1 fun r => { r with presence := .unconfirmed, label := some [1] }).seat 1).presence = .unconfirmed ∧
      1 ≤ ((polled 0 0).trunk 0).found ∧ (polled 0 0).floor.phase = .openFloor ∧
      (polled 0 0).floor.policy.grantMode = .manual) ∧
    (classifyAnswer 1 (withCheck [0xC6, 1, 0x40, 0, 0]) = .valid ⟨false, true, .delegate 0 0⟩ ∧
      ((polled 0 0).seat 1).presence = .present ∧ (((polled 0 0).trunk 0).station 1).mismatch = false) := by decide +kernel

/-- A POLL to position 1 in flight, this miss count there, and its seat of this presence, on a floor changed so. -/
def missing (miss : Nat) (p : Presence) (f : State → State) : State :=
  f ((polled 0 miss).modSeat 1 fun r => { r with presence := p })

/-- The seat clauses of AnswerFaults: a seat of each presence below the third miss, a seat ABSENT at it, and at the third miss a
seat in a slot, on the reply list, on the request list and IDLE, with the notices of the first; a count at 65535. -/
theorem witness_AnswerFaultSeats :
    (((missing 1 .fading id).seat 1).presence = .fading ∧ ((missing 1 .unconfirmed id).seat 1).presence = .unconfirmed ∧
      ((missing 1 .absent id).seat 1).presence = .absent ∧ (((missing 1 .fading id).trunk 0).station 1).miss < 2 ∧
      ((missing 2 .absent id).seat 1).presence = .absent ∧ (missing 1 .fading id).seatAt 0 1 = some 1) ∧
    (2 ≤ (((missing 2 .fading (speaking 0 1)).trunk 0).station 1).miss ∧
      (missing 2 .fading (speaking 0 1)).floor.slotOf 1 ≠ none) ∧ (missing 2 .fading (speaking 0 1)).floor.oneSlot 1 ∧
    ((missing 2 .fading fun s => replying 1 2 (speaking 0 2 s)).floor.slotOf 1 = none ∧
      (missing 2 .fading fun s => replying 1 2 (speaking 0 2 s)).floor.replyOf 1 ≠ none) ∧
    ((missing 2 .unconfirmed (waiting 1)).floor.slotOf 1 = none ∧ (missing 2 .unconfirmed (waiting 1)).floor.replyOf 1 = none ∧
      (missing 2 .unconfirmed (waiting 1)).floor.requestOf 1 ≠ none) ∧
    (missing 2 .present id).floorState 1 = .idle ∧
    (((((missing 2 .fading (speaking 0 1)).notify ⟨.presence, .seat 1, some 0, []⟩).raise .presence).seatRemoved 1 5).reportOf
      .a).queue.map (fun r => (r.notice.kind, r.notice.state)) = [(.presence, some 0), (.released, some 5)] ∧
    (((polled 0 0).modTrunk 0 fun e => { e with misses := 65535 }).trunk 0).misses = 65535 := by
  refine ⟨by decide +kernel, by decide +kernel, oneSlot_of_any _ _ (by decide +kernel), by decide +kernel, by decide +kernel,
    by decide +kernel, by decide +kernel, by decide +kernel⟩

theorem witness_AnswerFaults :
    ((polled 0 0).trunk 0).inFlight = some ⟨false, 1, false, 350⟩ ∧ ((polled 0 0).trunk 0).plan = .sweeping 10 0 ∧
    10 ≤ ((polled 0 0).trunk 0).found ∧ (polled 0 0).answerAt 0 320 ≤ 350 ∧ classifyAnswer 1 [0xC6, 1] = .checkFault ∧
    classifyAnswer 1 (status 2 0 1) = .formatFault ∧ ((polled 0 0).trunk 0).crcErrors ≤ 65535 ∧
    ((polled 0 0).trunk 0).formatErrors ≤ 65535 ∧ ((polled 0 0).trunk 0).misses ≤ 65535 ∧
    (polled 0 0).seatAt 0 1 = some 1 ∧ ((polled 0 0).seat 1).presence = .present ∧
    (((polled 0 1).trunk 0).station 1).miss < 2 ∧ 2 ≤ (((polled 0 2).trunk 0).station 1).miss ∧
    (((polledLast .running 0 false).trunk 0).planAfter ≠ ((polledLast .running 0 false).trunk 0).plan ∧
      ((polledLast .running 0 false).trunk 0).state = .running ∧ ((polledLast .running 0 false).trunk 0).sweepHeard = false) ∧
    ((polled 0 0).trunk 0).planAfter = ((polled 0 0).trunk 0).plan ∧ ((polledLast .fault 0 false).trunk 0).state ≠ .running ∧
    ((polledLast .running 0 true).trunk 0).sweepHeard = true := by decide +kernel

theorem witness_TakeEvents : ∃ s l c, State.Takes s l c 0x70 false 0 := ⟨_, _, _, takes_reset 0x70 false []⟩

theorem witness_ReportCommands :
    (∃ s l c, State.Takes s l c 0x71 false 1 ∧ 16 < u8 c.payload 0) ∧
    (∃ s l c, State.Takes s l c 0x71 false 1 ∧ u8 c.payload 0 = 16) ∧
    (∃ s l c, State.Takes s l c 0x72 false 2 ∧ BitVec.ofNat 16 (u16 c.payload 0) = (s.reportOf l).mask) ∧
    (∃ s l c, State.Takes s l c 0x72 false 2 ∧ BitVec.ofNat 16 (u16 c.payload 0) ≠ (s.reportOf l).mask) ∧
    (∃ s l c, State.Takes s l c 0x73 false 1 ∧ BitVec.ofNat 5 (u8 c.payload 0) = (s.reportOf l).filter) ∧
    (∃ s l c, State.Takes s l c 0x73 false 1 ∧ BitVec.ofNat 5 (u8 c.payload 0) ≠ (s.reportOf l).filter) ∧
    (∃ s l c, State.Takes s l c 0x74 true 3 ∧ 2 ≤ u8 c.payload 0) ∧
    (∃ s l c, State.Takes s l c 0x74 true 3 ∧ u8 c.payload 0 < 2 ∧ 12 ≤ u8 c.payload 1) ∧
    (∃ s l c, State.Takes s l c 0x74 true 3 ∧ u8 c.payload 0 = 0 ∧ statRow[u8 c.payload 1]? = some .aControl ∧
      u8 c.payload 2 = 1 ∧ s.report.stat0 ≠ ⟨.aControl, true⟩) ∧
    (∃ s l c, State.Takes s l c 0x74 true 3 ∧ u8 c.payload 0 = 1 ∧ statRow[u8 c.payload 1]? = some .high ∧
      u8 c.payload 2 = 0 ∧ s.report.stat1 ≠ ⟨.high, false⟩) ∧
    (∃ s l c, State.Takes s l c 0x74 true 3 ∧ u8 c.payload 0 = 0 ∧ statRow[u8 c.payload 1]? = some .low ∧
      u8 c.payload 2 = 0 ∧ s.report.stat0 = ⟨.low, false⟩) ∧
    (State.reset.pins.rstnLow = false ∧ State.reset.attention .a = true ∧
      (State.reset.modReport .a fun r => { r with mask := 0 }).attention .a = false ∧
      State.reset.statHigh .aControl ∧ ¬ State.reset.statHigh .low) ∧
    (∃ s : State, s.pins.rstnLow = true ∧ s.ports.control = .a) ∧
    (∃ (s : State) (n : Notice), (s.reportOf .a).filter.getLsbD n.kind.category.bit = false) ∧
    (∃ (s : State) (n : Notice), (s.reportOf .a).filter.getLsbD n.kind.category.bit = true ∧ (s.reportOf .a).queue.length = 31) ∧
    ∃ (s : State) (n : Notice), (s.reportOf .a).filter.getLsbD n.kind.category.bit = true ∧ (s.reportOf .a).queue.length = 32 :=
  ⟨⟨_, _, _, takes_reset 0x71 false [17], by decide⟩, ⟨_, _, _, takes_reset 0x71 false [16], by decide⟩,
    ⟨_, _, _, takes_reset 0x72 false [0xFF, 0xFF], by decide⟩, ⟨_, _, _, takes_reset 0x72 false [0, 0], by decide⟩,
    ⟨_, _, _, takes_reset 0x73 false [0x1F], by decide⟩, ⟨_, _, _, takes_reset 0x73 false [0], by decide⟩,
    ⟨_, _, _, takes_reset 0x74 true [2, 0, 0], by decide⟩, ⟨_, _, _, takes_reset 0x74 true [1, 12, 0], by decide⟩,
    ⟨_, _, _, takes_reset 0x74 true [0, 11, 1], by decide⟩, ⟨_, _, _, takes_reset 0x74 true [1, 1, 0], by decide⟩,
    ⟨_, _, _, takes_reset 0x74 true [0, 0, 0], by decide⟩,
    ⟨by decide, by decide, by decide, rfl, id⟩, ⟨{ State.reset with pins := ⟨true, false, false, false⟩ }, rfl, rfl⟩,
    ⟨State.reset.modReport .a fun r => { r with filter := 0x1D }, ⟨.queued, .none, none, []⟩, by decide⟩,
    ⟨State.reset.modReport .a fun r => { r with queue := List.replicate 31 ⟨0, ⟨.queued, .none, none, []⟩⟩ },
      ⟨.queued, .none, none, []⟩, by decide⟩,
    ⟨State.reset.modReport .a fun r => { r with queue := List.replicate 32 ⟨0, ⟨.queued, .none, none, []⟩⟩ },
      ⟨.queued, .none, none, []⟩, by decide⟩⟩

/-- The reset state meets every invariant, and a step from it answers a next state. -/
theorem witness_invariants : ∃ t, State.reset.reportsWf ∧ State.reset.floor.stackWf ∧ State.reset.floor.drawWf ∧
    State.reset.portsWf ∧ State.reset.trunksWf ∧ State.reset.BindingsLaw ∧ State.reset.FloorLaws ∧ State.reset.ImageLaw ∧
    step State.reset = .next t := by
  have hseat : ∀ n, State.reset.seat n = SeatRecord.initial := fun n => by
    unfold State.seat; split <;> simp [State.reset]
  refine ⟨_, ⟨Nat.zero_le _, Nat.zero_le _⟩, ⟨Nat.zero_le _, by decide, trivial⟩,
    (by decide : State.reset.floor.draw ≠ 0), ⟨⟨rfl, Nat.zero_le _⟩, ⟨rfl, Nat.zero_le _⟩⟩, fun t => ?_,
    ⟨fun n b h => ?_, fun n m b d h _ _ _ => ?_⟩, ?_,
    ⟨fun n => ?_, fun n _ => by rw [hseat]; rfl, fun n h => ?_, fun n h => ?_, fun n h => ?_⟩, rfl⟩
  · have h : State.reset.trunk t = TrunkEngine.initial := by simp [State.trunk, State.reset]
    rw [h]
    refine ⟨by decide, by decide, fun p => ?_, by decide, by decide, by decide, Nat.zero_le _, List.nodup_nil, by
      simp [TrunkEngine.initial]⟩
    unfold TrunkEngine.station
    split <;> simp [TrunkEngine.initial]
  · rw [hseat] at h; cases h
  · rw [hseat] at h; cases h
  · have hs : State.reset.floor.seatsFound = [] := by decide +kernel
    have hd : State.reset.floor.delegatesFound = [] := by decide +kernel
    have hc : State.reset.floor.openChairs = [] := by decide +kernel
    refine ⟨hs ▸ List.nodup_nil, Nat.zero_le _, Nat.zero_le _, fun fr h => (by cases h), fun _ => ⟨rfl, rfl⟩,
      fun fr h => (by cases h), fun fr h => (by cases h),
      ⟨by decide +kernel, by decide +kernel, fun fr h => (by cases h), fun fr h => (by cases h)⟩,
      ⟨fun x h => (by rw [hc] at h; cases h), fun fr h => (by cases h), fun higher fr lower h => (by cases higher <;> cases h)⟩,
      ⟨fun _ e h => (by cases h), fun _ e h => (by cases h), by decide,
        fun fr h => (by cases h), fun fr h => (by cases h), fun fr h => (by cases h)⟩, fun n h => ?_, fun x h => ?_,
      ⟨by decide, by decide, by decide, by decide, by decide, by decide, by decide, by decide, by decide⟩⟩
    · rw [hd] at h; cases h
    · rw [hc] at h; cases h
  · simp [hseat, SeatRecord.initial]
  · rw [hseat] at h; exact absurd rfl h
  · rw [hseat] at h; exact absurd rfl h
  · rw [hseat] at h; exact absurd rfl h

end Sys2Proof.Tests
end

section
/-! SUPPORT. The checks of a seat range (R7), one change over a range of seats, what a seat's image rests on (R16), and with these
MARKS CLEAR (R11). -/

namespace Sys2Proof.Machine

/-! ### The checks of a seat range (R7) -/

/-- The checks of R7 in the words of the statements. -/
theorem seatRange_eq (p : List Byte) : seatRange p =
    if 1 ≤ u16 p 0 ∧ u16 p 0 ≤ 480 ∧ 1 ≤ u8 p 2 ∧ u8 p 2 ≤ 32 ∧ u16 p 0 + u8 p 2 ≤ 481 then
      some (List.range' (u16 p 0) (u8 p 2)) else none := by
  simp [seatRange, seatOk, Config.seats, and_assoc]

/-- A base and count that pass the checks of R7 give their seats, ascending. -/
theorem seatRange_of_checks {p : List Byte} {base count : Nat} (hbase : u16 p 0 = base) (hcount : u8 p 2 = count)
    (hb : 1 ≤ base) (hc : 1 ≤ count) (hm : count ≤ 32) (he : base + count ≤ 481) :
    seatRange p = some (List.range' base count) := by
  rw [seatRange_eq, hbase, hcount, if_pos ⟨hb, by omega, hc, hm, he⟩]

/-- A base and count that fail a check of R7 give no range. -/
theorem seatRange_of_failed {p : List Byte} {base count : Nat} (hbase : u16 p 0 = base) (hcount : u8 p 2 = count)
    (h : base < 1 ∨ 480 < base ∨ count < 1 ∨ 32 < count ∨ 481 < base + count) : seatRange p = none := by
  rw [seatRange_eq, hbase, hcount, if_neg (by omega)]

theorem seatIndex_isSome {n : Nat} (h1 : 1 ≤ n) (h2 : n ≤ 480) : (seatIndex n).isSome := by
  simp [seatIndex, h1, h2]

namespace State

/-! ### One change over a list of seats -/

/-- Make the same change at each seat of a list, in its order. -/
def modSeats (s : State) (ns : List Nat) (f : SeatRecord → SeatRecord) : State := ns.foldl (fun s n => s.modSeat n f) s

@[simp] theorem modSeats_nil (s : State) (f : SeatRecord → SeatRecord) : s.modSeats [] f = s := rfl

@[simp] theorem modSeats_cons (s : State) (n : Nat) (ns : List Nat) (f : SeatRecord → SeatRecord) :
    s.modSeats (n :: ns) f = (s.modSeat n f).modSeats ns f := rfl

/-- A change of one seat concerns the seat table alone. -/
theorem modSeat_frame (s : State) (n : Nat) (f : SeatRecord → SeatRecord) :
    s.modSeat n f = { s with seats := (s.modSeat n f).seats } := by
  unfold modSeat
  split <;> rfl

/-- A change over a list of seats concerns the seat table alone. -/
theorem modSeats_frame (s : State) (ns : List Nat) (f : SeatRecord → SeatRecord) :
    s.modSeats ns f = { s with seats := (s.modSeats ns f).seats } := by
  induction ns generalizing s with
  | nil => rfl
  | cons n ns ih =>
    calc (s.modSeat n f).modSeats ns f
        = { s.modSeat n f with seats := ((s.modSeat n f).modSeats ns f).seats } := ih _
      _ = { s with seats := ((s.modSeat n f).modSeats ns f).seats } := by rw [modSeat_frame s n f]

@[simp] theorem modSeats_floor (s : State) (ns : List Nat) (f : SeatRecord → SeatRecord) : (s.modSeats ns f).floor = s.floor := by
  rw [modSeats_frame]
@[simp] theorem modSeats_timeBase (s : State) (ns : List Nat) (f : SeatRecord → SeatRecord) : (s.modSeats ns f).timeBase = s.timeBase := by
  rw [modSeats_frame]
@[simp] theorem modSeats_trunks (s : State) (ns : List Nat) (f : SeatRecord → SeatRecord) : (s.modSeats ns f).trunks = s.trunks := by
  rw [modSeats_frame]
@[simp] theorem modSeats_ports (s : State) (ns : List Nat) (f : SeatRecord → SeatRecord) : (s.modSeats ns f).ports = s.ports := by
  rw [modSeats_frame]
@[simp] theorem modSeats_report (s : State) (ns : List Nat) (f : SeatRecord → SeatRecord) : (s.modSeats ns f).report = s.report := by
  rw [modSeats_frame]

/-- A seat outside the list keeps its record. -/
theorem seat_modSeats_of_notMem (s : State) {ns : List Nat} {m : Nat} (h : m ∉ ns) (f : SeatRecord → SeatRecord) :
    (s.modSeats ns f).seat m = s.seat m := by
  induction ns generalizing s with
  | nil => rfl
  | cons n ns ih =>
    obtain ⟨hn, hns⟩ := List.ne_and_not_mem_of_not_mem_cons h
    rw [modSeats_cons, ih _ hns, seat_modSeat_ne s hn]

/-- A seat that stands in the list once has the change once. -/
theorem seat_modSeats_of_mem (s : State) {ns : List Nat} {m : Nat} (hd : ns.Nodup) (h : m ∈ ns) (hi : (seatIndex m).isSome)
    (f : SeatRecord → SeatRecord) : (s.modSeats ns f).seat m = f (s.seat m) := by
  induction ns generalizing s with
  | nil => cases h
  | cons n ns ih =>
    obtain ⟨hn, hd'⟩ := List.nodup_cons.mp hd
    rw [modSeats_cons]
    rcases List.mem_cons.mp h with rfl | hm
    · rw [seat_modSeats_of_notMem _ hn, seat_modSeat_self s hi]
    · rw [ih _ hd' hm, seat_modSeat_ne s (ne_of_mem_of_not_mem hm hn)]

/-- What the change keeps of every record is kept at every seat. -/
theorem seat_modSeats_keeps {α : Type} (s : State) (ns : List Nat) (f : SeatRecord → SeatRecord) (field : SeatRecord → α)
    (hf : ∀ r, field (f r) = field r) (m : Nat) : field ((s.modSeats ns f).seat m) = field (s.seat m) := by
  induction ns generalizing s with
  | nil => rfl
  | cons n ns ih =>
    have keptOnce : field ((s.modSeat n f).seat m) = field (s.seat m) := by
      by_cases e : m = n
      · subst e
        cases hi : seatIndex m with
        | none => simp [modSeat, hi]
        | some i => rw [seat_modSeat_self s (by simp [hi]), hf]
      · rw [seat_modSeat_ne s e]
    rw [modSeats_cons, ih, keptOnce]

/-! ### What an image rests on (R16) -/

/-- The first present entry rests on the request list and the presence of the seats (R21). -/
theorem firstPresent_congr {s t : State} (hf : t.floor = s.floor) (hp : ∀ m, (t.seat m).presence = (s.seat m).presence) :
    t.firstPresent = s.firstPresent := by
  simp only [firstPresent, isHere, hf, hp]

/-- An image rests on the floor, chamber time, the seat's binding and refusal time, and the presence of the seats: on no
sticky mark and no grant count (R16). -/
theorem image_congr {s t : State} (hf : t.floor = s.floor) (ht : t.timeBase = s.timeBase)
    (hp : ∀ m, (t.seat m).presence = (s.seat m).presence) {n : Nat} (hb : (t.seat n).binding = (s.seat n).binding)
    (hr : (t.seat n).refusalUntil = (s.seat n).refusalUntil) : t.image n = s.image n := by
  have now : t.time = s.time := congrArg TimeBase.chamberTime ht
  unfold image
  dsimp only
  rw [hb, hr, firstPresent_congr hf hp, now, hf]

end State

/-! ### MARKS CLEAR (R11) -/

/-- A record as MARKS CLEAR leaves it: both sticky marks clear and the grant count 0. -/
def SeatRecord.clearMarks (r : SeatRecord) : SeatRecord :=
  { r with overtimeMark := false, micFaultMark := false, grantCount := 0 }

/-- A range that fails its checks: RANGE, and nothing changes (R11). -/
theorem marksClearAction_of_none {p : List Byte} (h : seatRange p = none) (s : State) :
    marksClearAction p s = (s, .of .range) := by
  simp [marksClearAction, h, refuseWith]

/-- A range that passes its checks: its records are cleared, and DONE (R11). -/
theorem marksClearAction_of_some {p : List Byte} {ns : List Nat} (h : seatRange p = some ns) (s : State) :
    marksClearAction p s = (s.modSeats ns SeatRecord.clearMarks, .of .done) := by
  simp only [marksClearAction, h]
  rfl

/-- Clearing marks and grant counts changes no image (R11). -/
theorem State.image_modSeats_clearMarks (s : State) (ns : List Nat) (n : Nat) :
    (s.modSeats ns SeatRecord.clearMarks).image n = s.image n :=
  State.image_congr (s.modSeats_floor ns _) (s.modSeats_timeBase ns _)
    (s.seat_modSeats_keeps ns SeatRecord.clearMarks SeatRecord.presence fun _ => rfl)
    (s.seat_modSeats_keeps ns SeatRecord.clearMarks SeatRecord.binding (fun _ => rfl) n)
    (s.seat_modSeats_keeps ns SeatRecord.clearMarks SeatRecord.refusalUntil (fun _ => rfl) n)

/-- The row of MARKS CLEAR takes a command of kind 15h with CONTROL and 3 bytes (11.4). -/
theorem exec_marksClear (l : Link) (s : State) :
    exec (.marksClear l) s = .next (s.take l (ofKind 0x15) true (exactly 3) marksClearAction) := rfl

/-- Settles O27: the answers by the checks of R165 and R7, and the range by the rule of one change over a list of seats. -/
theorem marksClear : Obligations.MarksClear := by
  unfold Obligations.MarksClear
  intro s l c held kind length base count hbase hcount
  have ofRow : ofKind 0x15 c = true := by simp [ofKind, kind]
  have ofLength : exactly 3 c.payload.length = true := by simp [exactly, length]
  refine ⟨fun hc => ?_, fun hc hfail => ?_, fun hc hb hk hm he => ?_⟩
  · rw [exec_marksClear, State.take_denied held ofRow hc]
  · rw [exec_marksClear, State.take_acts held ofRow (.inr hc) ofLength,
      marksClearAction_of_none (seatRange_of_failed hbase hcount hfail)]
  · refine ⟨s.modSeats (List.range' base count) SeatRecord.clearMarks, ?_, s.modSeats_frame _ _, fun n h1 h2 => ?_,
      fun n hn => ?_, s.image_modSeats_clearMarks _, ?_⟩
    · rw [exec_marksClear, State.take_acts held ofRow (.inr hc) ofLength,
        marksClearAction_of_some (seatRange_of_checks hbase hcount hb hk hm he)]
    · exact s.seat_modSeats_of_mem List.nodup_range' (List.mem_range'_1.mpr ⟨h1, h2⟩)
        (seatIndex_isSome (by omega) (by omega)) _
    · have outside : n ∉ List.range' base count := fun h => by
        obtain ⟨h1, h2⟩ := List.mem_range'_1.mp h
        omega
      exact s.seat_modSeats_of_notMem outside _
    · exact ⟨s.modSeats_floor _ _, s.modSeats_report _ _, s.modSeats_trunks _ _, s.modSeats_timeBase _ _, s.modSeats_ports _ _⟩

end Sys2Proof.Machine
end

section
/-! SUPPORT. The action of a command that passes the checks of R165, the codes of the list gate (11.3), and with these
LIST GATE (R42). -/

namespace Sys2Proof.Machine

/-- A command that its row takes is acted on, and the action's reply is its answer (R165). -/
theorem State.Takes.acts {s : State} {l : Link} {c : HeldCommand} {kind : Byte} {needsControl : Bool} {length : Nat}
    (h : s.Takes l c kind needsControl length) (action : Action) :
    s.take l (ofKind kind) needsControl (exactly length) action = (action c.payload s).1.answer l c (action c.payload s).2 := by
  have ofRow : ofKind kind c = true := by simp [ofKind, h.kind]
  have ofLength : exactly length c.payload.length = true := by simp [exactly, h.length]
  have control : needsControl = false ∨ s.hasControl l = true := by
    cases needsControl with
    | false => exact .inl rfl
    | true => exact .inr (h.control rfl)
  exact State.take_acts h.held ofRow control ofLength

/-! ### The codes of the gate (11.3) -/

/-- A code from 2 on names no gate. -/
theorem ofCode_gateRow_of_two_le {v : Nat} (h : 2 ≤ v) : ofCode gateRow v = none := List.getElem?_eq_none h

/-- 0 names OPEN and 1 CLOSED. -/
theorem ofCode_gateRow (g : Gate) : ofCode gateRow (if g = .closed then 1 else 0) = some g := by
  cases g <;> rfl

/-! ### LIST GATE (R42) -/

/-- The state with another gate, the LIST flag set on both links for it (R42). -/
def State.setGate (s : State) (g : Gate) : State := (s.modFloor fun f => { f with gate := g }).raise .list

/-- A new gate concerns the gate and the reports alone. -/
theorem State.setGate_frame (s : State) (g : Gate) :
    s.setGate g = { s with floor := { s.floor with gate := g }, report := (s.setGate g).report } := rfl

/-- Of the reports a new gate concerns the flags of the two links alone. -/
theorem State.setGate_report (s : State) (g : Gate) : (s.setGate g).report =
    { s.report with linkA := s.report.linkA.raise .list, linkB := s.report.linkB.raise .list } := rfl

/-- On each link a new gate sets the LIST flag. -/
theorem State.setGate_reportOf (s : State) (g : Gate) (l : Link) :
    (s.setGate g).reportOf l = (s.reportOf l).raise .list := by
  cases l <;> rfl

/-- A value that is no gate: BAD_ARG, and nothing changes. -/
theorem listGateAction_of_none {p : List Byte} (h : ofCode gateRow (u8 p 0) = none) (s : State) :
    listGateAction p s = (s, .of .badArg) := by
  simp [listGateAction, h, refuseWith]

/-- The present gate: UNCHANGED, and nothing changes. -/
theorem listGateAction_of_present {p : List Byte} {s : State} (h : ofCode gateRow (u8 p 0) = some s.floor.gate) :
    listGateAction p s = (s, .of .unchanged) := by
  simp [listGateAction, h, refuseWith]

/-- The other gate: it is taken, and DONE. -/
theorem listGateAction_of_ne {p : List Byte} {g : Gate} {s : State} (h : ofCode gateRow (u8 p 0) = some g)
    (hne : g ≠ s.floor.gate) : listGateAction p s = (s.setGate g, .of .done) := by
  simp [listGateAction, h, hne, State.setGate]

/-- The row of LIST GATE takes a command of kind 25h with CONTROL and 1 byte (11.4). -/
theorem exec_listGate (l : Link) (s : State) :
    exec (.listGate l) s = .next (s.take l (ofKind 0x25) true (exactly 1) listGateAction) := rfl

/-- Settles O32: the command passes the checks of R165, and then its value is no gate, the present gate, or the other one. -/
theorem listGate : Obligations.ListGate := by
  unfold Obligations.ListGate
  intro s l c held
  refine ⟨fun beyond => ?_, fun g code => ?_⟩
  · rw [exec_listGate, held.acts, listGateAction_of_none (ofCode_gateRow_of_two_le beyond)]
  have named : ofCode gateRow (u8 c.payload 0) = some g := code ▸ ofCode_gateRow g
  refine ⟨fun present => ?_, fun other => ⟨s.setGate g, ?_, s.setGate_frame g, ?_, ?_, s.setGate_reportOf g⟩⟩
  · rw [exec_listGate, held.acts, listGateAction_of_present (present ▸ named)]
  · rw [exec_listGate, held.acts, listGateAction_of_ne named other]
  · rw [State.setGate_report]
  · rw [State.setGate_report]

end Sys2Proof.Machine
end

section
/-! SUPPORT. What ALARM CLEAR's action does for each number of an alarm, and with it ALARM CLEAR (R133). -/

namespace Sys2Proof.Machine

/-- The state with one alarm disarmed, its target and action kept (R133). -/
def State.disarm (s : State) (i : Fin 3) : State :=
  s.modTime fun t => { t with alarms := t.alarms.set i { t.alarms[i] with armed := false } }

/-- Disarming concerns that one alarm alone. -/
theorem State.disarm_frame (s : State) (i : Fin 3) :
    s.disarm i = { s with timeBase := { s.timeBase with
      alarms := s.timeBase.alarms.set i { s.timeBase.alarms[i] with armed := false } } } := rfl

/-- A number above 2: RANGE, and nothing changes. -/
theorem alarmClearAction_of_beyond {p : List Byte} (h : 2 < u8 p 0) (s : State) :
    alarmClearAction p s = (s, .of .range) :=
  dif_neg (by omega)

/-- A number of an alarm: what happens rests on whether that alarm is armed. -/
theorem alarmClearAction_of_number {p : List Byte} {i : Fin 3} (h : u8 p 0 = i) (s : State) :
    alarmClearAction p s = if s.timeBase.alarms[i].armed then (s.disarm i, .of .done) else (s, .of .unchanged) := by
  have inRange : u8 p 0 < 3 := h ▸ i.isLt
  obtain rfl : i = ⟨u8 p 0, inRange⟩ := Fin.ext h.symm
  exact dif_pos inRange

/-- A disarmed alarm: UNCHANGED, and nothing changes. -/
theorem alarmClearAction_of_disarmed {p : List Byte} {i : Fin 3} {s : State} (h : u8 p 0 = i)
    (disarmed : s.timeBase.alarms[i].armed = false) : alarmClearAction p s = (s, .of .unchanged) := by
  rw [alarmClearAction_of_number h, disarmed, if_neg Bool.false_ne_true]

/-- An armed alarm: it is disarmed, and DONE. -/
theorem alarmClearAction_of_armed {p : List Byte} {i : Fin 3} {s : State} (h : u8 p 0 = i)
    (armed : s.timeBase.alarms[i].armed = true) : alarmClearAction p s = (s.disarm i, .of .done) := by
  rw [alarmClearAction_of_number h, if_pos armed]

/-- The row of ALARM CLEAR takes a command of kind 54h with CONTROL and 1 byte (11.4). -/
theorem exec_alarmClear (l : Link) (s : State) :
    exec (.alarmClear l) s = .next (s.take l (ofKind 0x54) true (exactly 1) alarmClearAction) := rfl

/-- Settles O13: a link without CONTROL fails the checks of R165; else the number is above 2, or it is that of a disarmed alarm or
of an armed one. -/
theorem alarmClear : Obligations.AlarmClear := by
  unfold Obligations.AlarmClear
  intro s l c held kind length
  have ofRow : ofKind 0x54 c = true := by simp [ofKind, kind]
  refine ⟨fun observe => ?_, fun control => ?_⟩
  · rw [exec_alarmClear, State.take_denied held ofRow observe]
  have takes : s.Takes l c 0x54 true 1 := ⟨held, kind, fun _ => control, length⟩
  refine ⟨fun beyond => ?_, fun i number => ⟨fun disarmed => ?_, fun armed => ?_⟩⟩
  · rw [exec_alarmClear, takes.acts, alarmClearAction_of_beyond beyond]
  · rw [exec_alarmClear, takes.acts, alarmClearAction_of_disarmed number disarmed]
  · rw [exec_alarmClear, takes.acts, alarmClearAction_of_armed number armed, State.disarm_frame]

end Sys2Proof.Machine
end

section
/-! SUPPORT. What a command of one trunk does for each number of a trunk, the frame of a change of one engine, and with these
COUNTS CLEAR (R157). -/

namespace Sys2Proof.Machine

/-! ### The trunk that a command names (8.9) -/

/-- A number above 3: RANGE, and nothing changes. -/
theorem onTrunk_of_beyond {p : List Byte} (h : 3 < u8 p 0) (f : TrunkNo → Action) (s : State) :
    onTrunk f p s = (s, .of .range) :=
  dif_neg (by omega)

/-- A number of a trunk: the command's action on that trunk. -/
theorem onTrunk_of_number {p : List Byte} {tr : TrunkNo} (h : u8 p 0 = tr) (f : TrunkNo → Action) (s : State) :
    onTrunk f p s = f tr p s := by
  have inRange : u8 p 0 < 4 := h ▸ tr.isLt
  obtain rfl : tr = ⟨u8 p 0, inRange⟩ := Fin.ext h.symm
  exact dif_pos inRange

/-- A change of one engine concerns the engines alone. -/
theorem State.modTrunk_frame (s : State) (tr : TrunkNo) (f : TrunkEngine → TrunkEngine) :
    s.modTrunk tr f = { s with trunks := (s.modTrunk tr f).trunks } := rfl

/-! ### COUNTS CLEAR (R157) -/

/-- An engine as COUNTS CLEAR leaves it: its three error counts 0. -/
def TrunkEngine.clearCounts (e : TrunkEngine) : TrunkEngine := { e with crcErrors := 0, formatErrors := 0, misses := 0 }

/-- A number above 3: RANGE, and nothing changes. -/
theorem countsClearAction_of_beyond {p : List Byte} (h : 3 < u8 p 0) (s : State) : countsClearAction p s = (s, .of .range) :=
  onTrunk_of_beyond h _ s

/-- A number of a trunk: its counts are cleared in whatever state the trunk is, and DONE. -/
theorem countsClearAction_of_number {p : List Byte} {tr : TrunkNo} (h : u8 p 0 = tr) (s : State) :
    countsClearAction p s = (s.modTrunk tr TrunkEngine.clearCounts, .of .done) :=
  onTrunk_of_number h _ s

/-- The row of COUNTS CLEAR takes a command of kind 63h with CONTROL and 1 byte (11.4). -/
theorem exec_countsClear (l : Link) (s : State) :
    exec (.countsClear l) s = .next (s.take l (ofKind 0x63) true (exactly 1) countsClearAction) := rfl

/-- Settles O47: the command passes the checks of R165, and its number is above 3 or that of a trunk, where the rules of a change of
one engine say what is seen at each trunk. -/
theorem countsClear : Obligations.CountsClear := by
  unfold Obligations.CountsClear
  intro s l c takes
  refine ⟨fun beyond => ?_, fun tr number => ⟨s.modTrunk tr TrunkEngine.clearCounts, ?_, s.modTrunk_frame tr _,
    s.trunk_modTrunk_self tr _, fun i other => s.trunk_modTrunk_ne other _⟩⟩
  · rw [exec_countsClear, takes.acts, countsClearAction_of_beyond beyond]
  · rw [exec_countsClear, takes.acts, countsClearAction_of_number number]

end Sys2Proof.Machine
end

section
/-! SUPPORT. The frame of a change of one link's reports, the taking of a link's event flags (R175), and with these
TAKE EVENTS. -/

namespace Sys2Proof.Machine

/-! ### A change of one link's reports -/

/-- A change of one link's reports concerns the Report Unit alone. -/
theorem State.modReport_frame (s : State) (l : Link) (f : LinkReport → LinkReport) :
    s.modReport l f = { s with report := (s.modReport l f).report } := by
  cases l <;> rfl

/-- A change of one link's reports leaves the setting of STAT0. -/
@[simp] theorem State.modReport_stat0 (s : State) (l : Link) (f : LinkReport → LinkReport) :
    (s.modReport l f).report.stat0 = s.report.stat0 := by
  cases l <;> rfl

/-- A change of one link's reports leaves the setting of STAT1. -/
@[simp] theorem State.modReport_stat1 (s : State) (l : Link) (f : LinkReport → LinkReport) :
    (s.modReport l f).report.stat1 = s.report.stat1 := by
  cases l <;> rfl

/-! ### TAKE EVENTS (R175) -/

/-- One link's reports with every event flag removed; mask, filter and queue stay (R175). -/
def LinkReport.clearFlags (r : LinkReport) : LinkReport := { r with flags := 0 }

/-- The link's flags are removed, and DONE answers them as they stood before. -/
theorem takeEventsAction_eq (l : Link) (p : List Byte) (s : State) : takeEventsAction l p s =
    (s.modReport l LinkReport.clearFlags, .of .done (be16 (s.reportOf l).flags.toNat)) := rfl

/-- The row of TAKE EVENTS takes a command of kind 70h from either link, with no byte (11.4). -/
theorem exec_takeEvents (l : Link) (s : State) :
    exec (.takeEvents l) s = .next (s.take l (ofKind 0x70) false (exactly 0) (takeEventsAction l)) := rfl

/-- Settles O53: the command passes the checks of R165 and its action removes the link's flags, and the rules of a change of one
link's reports say what is seen at that link, at the other one, at the STAT lines and in the rest of the part. -/
theorem takeEvents : Obligations.TakeEvents := by
  unfold Obligations.TakeEvents
  intro s l c takes
  refine ⟨s.modReport l LinkReport.clearFlags, ?_, s.modReport_frame l _, s.reportOf_modReport_self l _,
    s.reportOf_modReport_other l _, s.modReport_stat0 l _, s.modReport_stat1 l _⟩
  rw [exec_takeEvents, takes.acts, takeEventsAction_eq]

end Sys2Proof.Machine
end

section
/-! SUPPORT. What every row leaves of the capacities: a command's action and an event of the block carry the reports, the engines
and the position map over, and with these the invariants of R2, R134, R162, R163 and R179 (StepKeepsReports, StepKeepsPorts,
StepKeepsTrunks) and the totality of exec (EveryEventNext). -/

namespace Sys2Proof.Machine

/-! ### The seat table as a list (R2) -/

/-- The table listed holds exactly the records of the seats 1 to 480, each with its number. -/
theorem State.mem_seatList {s : State} {x : SeatRecord × Nat} :
    x ∈ s.seatList ↔ 1 ≤ x.2 ∧ x.2 ≤ 480 ∧ x.1 = s.seat x.2 := by
  obtain ⟨r, n⟩ := x
  simp only [seatList, List.mk_mem_zipIdx_iff_le_and_getElem?_sub]
  constructor
  · rintro ⟨low, found⟩
    obtain ⟨bound, same⟩ := List.getElem?_eq_some_iff.mp found
    have high : n ≤ 480 := by simp at bound; omega
    refine ⟨low, high, ?_⟩
    simp [seat, seatIndex, low, high, ← same]
  · rintro ⟨low, high, same⟩
    refine ⟨low, List.getElem?_eq_some_iff.mpr ⟨by simp; omega, ?_⟩⟩
    simp [same, seat, seatIndex, low, high]

/-- A bound seat has a number from 1 to 480. -/
theorem State.bound_range {s : State} {n : Nat} {b : Binding} (h : (s.seat n).binding = some b) : 1 ≤ n ∧ n ≤ 480 := by
  by_contra outside
  simp [seat, seatIndex, outside, SeatRecord.initial] at h

/-- The position map leads to a seat bound there (R2). -/
theorem State.binding_of_seatAt {s : State} {t : TrunkNo} {p n : Nat} (h : s.seatAt t p = some n) :
    ∃ b, (s.seat n).binding = some b ∧ b.trunk = t ∧ b.position = p := by
  obtain ⟨⟨r, m⟩, found, rfl⟩ := Option.map_eq_some_iff.mp h
  obtain ⟨-, -, record⟩ := State.mem_seatList.mp (List.mem_of_find?_eq_some found)
  have bound := List.find?_some found
  dsimp only at record bound ⊢
  rw [record] at bound
  cases hb : (s.seat m).binding with
  | none => simp [hb] at bound
  | some b => exact ⟨b, rfl, by simpa [hb] using bound⟩

/-- A pair to which no seat is bound: the position map leads nowhere, and only then (R2). -/
theorem State.seatAt_eq_none {s : State} {t : TrunkNo} {p : Nat} : s.seatAt t p = none ↔
    ∀ n b, (s.seat n).binding = some b → ¬ (b.trunk = t ∧ b.position = p) := by
  simp only [seatAt, Option.map_eq_none_iff, List.find?_eq_none]
  constructor
  · intro h n b hb pair
    obtain ⟨low, high⟩ := bound_range hb
    exact h (s.seat n, n) (mem_seatList.mpr ⟨low, high, rfl⟩) (by simp [hb, pair])
  · rintro h ⟨r, n⟩ member
    obtain ⟨-, -, record⟩ := mem_seatList.mp member
    dsimp only at record ⊢
    rw [record]
    cases hb : (s.seat n).binding with
    | none => simp
    | some b => simpa using h n b hb

/-- Under the law of the position map, the seat bound at a pair is the one the map leads to (R2). -/
theorem State.BindingsLaw.seatAt {s : State} (law : s.BindingsLaw) {n : Nat} {b : Binding} (h : (s.seat n).binding = some b) :
    s.seatAt b.trunk b.position = some n := by
  cases found : s.seatAt b.trunk b.position with
  | none => exact absurd ⟨rfl, rfl⟩ (State.seatAt_eq_none.mp found n b h)
  | some m =>
    obtain ⟨d, hd, trunk, position⟩ := State.binding_of_seatAt found
    rw [law.onePair m n d b hd h trunk position]

/-! ### Bindings kept -/

/-- Every seat is bound as before. -/
def State.SameBindings (s t : State) : Prop := ∀ n, (t.seat n).binding = (s.seat n).binding

namespace State.SameBindings

theorem refl (s : State) : s.SameBindings s := fun _ => rfl

theorem trans {s t u : State} (h : s.SameBindings t) (g : t.SameBindings u) : s.SameBindings u :=
  fun n => (g n).trans (h n)

theorem ofSeats {s t : State} (h : t.seats = s.seats) : s.SameBindings t := fun n => by rw [State.seat_congr h]

theorem ofFloor {s t : State} (h : s.FloorFrame t) : s.SameBindings t := fun n => (h.binding n).1

/-- A change of one seat's record keeps the bindings when it keeps that record's. -/
theorem modSeat (s : State) (n : Nat) (f : SeatRecord → SeatRecord) (hf : ∀ r, (f r).binding = r.binding) :
    s.SameBindings (s.modSeat n f) := fun m => by
  simpa using State.seat_modSeats_keeps s [n] f SeatRecord.binding hf m

/-- The position map rests on the bindings alone (R2). -/
theorem seatAt {s t : State} (h : s.SameBindings t) (tr : TrunkNo) (p : Nat) : t.seatAt tr p = s.seatAt tr p := by
  have paired : ∀ i (hi : i < 480), (t.seats[i]).binding = (s.seats[i]).binding := fun i hi => by
    have := h (i + 1)
    simpa [State.seat, seatIndex, show i + 1 ≤ 480 by omega] using this
  have walk : ∀ (l m : List SeatRecord) (k : Nat), l.map (·.binding) = m.map (·.binding) →
      ((l.zipIdx k).find? fun x => x.1.binding.any fun b => b.trunk = tr ∧ b.position = p).map (·.2) =
        ((m.zipIdx k).find? fun x => x.1.binding.any fun b => b.trunk = tr ∧ b.position = p).map (·.2) := by
    intro l
    induction l with
    | nil => intro m k e; cases m with
      | nil => rfl
      | cons _ _ => simp at e
    | cons x xs ih => intro m k e; cases m with
      | nil => simp at e
      | cons y ys =>
        obtain ⟨head, tail⟩ := List.cons.inj e
        simp only [List.zipIdx_cons, List.find?_cons, head]
        split
        · rfl
        · exact ih ys (k + 1) tail
  refine walk _ _ 1 (List.ext_getElem (by simp) fun i hi _ => ?_)
  have bound : i < 480 := by simpa using hi
  simpa using paired i bound

/-- The law of the position map rests on the bindings alone (R1, R2). -/
theorem law {s t : State} (h : s.SameBindings t) (w : s.BindingsLaw) : t.BindingsLaw :=
  ⟨fun n b hb => w.position n b ((h n).symm.trans hb),
    fun n m b d hb hd => w.onePair n m b d ((h n).symm.trans hb) ((h m).symm.trans hd)⟩

end State.SameBindings

/-! ### The draw generator (R29) -/

theorem eq_zero_of_xor_shiftLeft {w : Word} {k : Nat} (hk : 0 < k) (h : w ^^^ (w <<< k) = 0) : w = 0 := by
  have fixed : w = w <<< k := BitVec.xor_eq_zero_iff.mp h
  have shifted : ∀ n, w = w <<< (k * n) := fun n => by
    induction n with
    | zero => simp
    | succ n ih => rw [Nat.mul_succ, BitVec.shiftLeft_add, ← ih]; exact fixed
  rw [shifted 32]
  exact BitVec.shiftLeft_eq_zero (Nat.le_mul_of_pos_left 32 hk)

theorem eq_zero_of_xor_ushiftRight {w : Word} {k : Nat} (hk : 0 < k) (h : w ^^^ (w >>> k) = 0) : w = 0 := by
  have fixed : w = w >>> k := BitVec.xor_eq_zero_iff.mp h
  have shifted : ∀ n, w = w >>> (k * n) := fun n => by
    induction n with
    | zero => simp
    | succ n ih => rw [Nat.mul_succ, BitVec.shiftRight_add, ← ih]; exact fixed
  rw [shifted 32]
  exact BitVec.ushiftRight_eq_zero (Nat.le_mul_of_pos_left 32 hk)

/-- A step of the generator reaches zero from zero alone (R29). -/
theorem drawStep_ne_zero {w : Word} (h : w ≠ 0) : drawStep w ≠ 0 := fun zero =>
  h (eq_zero_of_xor_shiftLeft (by decide) (eq_zero_of_xor_ushiftRight (by decide)
    (eq_zero_of_xor_shiftLeft (by decide) zero)))

theorem drawFrom_ne_zero {α : Type} (i : Nat) {w : Word} (h : w ≠ 0) (items : List α) : (drawFrom i w items).2 ≠ 0 := by
  induction i generalizing w items with
  | zero => exact h
  | succ i ih => exact ih (drawStep_ne_zero h) _

theorem drawGroup_ne_zero {w : Word} (h : w ≠ 0) (group : List CaptureRecord) : (drawGroup w group).2 ≠ 0 := by
  unfold drawGroup drawOrder
  exact drawFrom_ne_zero _ h _

theorem drawBatch_ne_zero {w : Word} (h : w ≠ 0) (batch : List CaptureRecord) : (drawBatch w batch).2 ≠ 0 := by
  have walk : ∀ (stamps : List ChamberTime) (x : List CaptureRecord × Word), x.2 ≠ 0 →
      (stamps.foldl (fun (done, w) t =>
        let (group, w') := drawGroup w (batch.filter (·.stamp = t))
        (done ++ group, w')) x).2 ≠ 0 := by
    intro stamps
    induction stamps with
    | nil => exact fun x hx => hx
    | cons t ts ih => exact fun x hx => ih _ (drawGroup_ne_zero hx _)
  exact walk _ _ h

/-- The order of a batch leaves a draw state other than zero one other than zero (R28, R29). -/
theorem orderBatch_ne_zero (now : ChamberTime) (p : Policy) {w : Word} (h : w ≠ 0) (batch : List CaptureRecord) :
    (orderBatch now p w batch).2 ≠ 0 := by
  unfold orderBatch
  split
  · exact h
  · exact drawBatch_ne_zero h _

/-! ### Relations that the claims of the seats, the alarms, the trunks and the intake carry over -/

/-- A relation of states that every operation of the Floor Engine used by those claims carries over, and every edit of what lies
outside the floor and the bindings. -/
structure State.Carries (R : State → State → Prop) : Prop where
  refl : ∀ s, R s s
  trans : ∀ {s t u}, R s t → R t u → R s u
  rest : ∀ {s t : State}, t.seats = s.seats → t.floor = s.floor → R s t
  seat : ∀ (s : State) (n : Nat) (f : SeatRecord → SeatRecord), (∀ r, (f r).binding = r.binding) → R s (s.modSeat n f)
  draw : ∀ (s : State) (w : Word), (s.floor.draw ≠ 0 → w ≠ 0) → R s (s.modFloor fun f => { f with draw := w })
  closeSlot : ∀ (c : Claim) (i : Fin 6) (why : Reason), R c.st (c.closeSlot i why).st
  closeChair : ∀ (c : Claim) (i : Fin 2) (why : Reason), R c.st (c.closeChair i why).st
  dropReply : ∀ (c : Claim) (n : Nat) (why : Reason), R c.st (c.dropReply n why).st
  removeSeat : ∀ (c : Claim) (n : Nat) (why : Reason), R c.st (c.removeSeat n why).st
  haltFloor : ∀ c : Claim, R c.st c.haltFloor.st
  closeGate : ∀ c : Claim, R c.st c.closeGate.st
  applyRecord : ∀ (c : Claim) (r : CaptureRecord), R c.st (c.applyRecord r).st
  settle : ∀ (before : List RequestEntry) (c : Claim), R c.st (Claim.close before c.settleFloor)

/-- Notices leave the floor as it is. -/
theorem Claim.foldl_notify_floor (ns : List Notice) (c : Claim) : (ns.foldl Claim.notify c).floor = c.floor := by
  induction ns generalizing c with
  | nil => rfl
  | cons n ns ih => exact (ih _).trans rfl

namespace State.Carries

variable {R : State → State → Prop} {s : State} {c : Claim}

theorem foldl {α : Type} (k : Carries R) (f : Claim → α → Claim) (hf : ∀ (c : Claim) (x : α), R c.st (f c x).st) (l : List α)
    (h : R s c.st) : R s (l.foldl f c).st := by
  induction l generalizing c with
  | nil => exact h
  | cons x xs ih => exact ih (k.trans h (hf c x))

/-- One event carries the relation over when its body does. -/
theorem event (k : Carries R) {body : Claim → Claim} (h : R s (body (.start s)).st) : R s (s.event body) :=
  k.trans h (k.settle _ _)

theorem outside (k : Carries R) {t : State} (h : R s c.st) (hs : t.seats = c.st.seats) (hf : t.floor = c.st.floor) : R s t :=
  k.trans h (k.rest hs hf)

theorem raise (k : Carries R) (h : R s c.st) (e : EventFlag) : R s (c.raise e).st := k.outside h rfl rfl

theorem notify (k : Carries R) (h : R s c.st) (n : Notice) : R s (c.notify n).st := k.outside h rfl rfl

theorem modTrunk (k : Carries R) (h : R s c.st) (t : TrunkNo) (f : TrunkEngine → TrunkEngine) : R s (c.modTrunk t f).st :=
  k.outside h rfl rfl

theorem modSeat (k : Carries R) (h : R s c.st) (n : Nat) (f : SeatRecord → SeatRecord) (hf : ∀ r, (f r).binding = r.binding) :
    R s (c.modSeat n f).st := k.trans h (k.seat _ _ _ hf)

theorem setPresence (k : Carries R) (h : R s c.st) (n : Nat) (p : Presence) : R s (c.setPresence n p).st := by
  rw [Claim.setPresence, Claim.trackHead_st]
  exact k.modSeat h _ _ fun _ => rfl

theorem reportPresence (k : Carries R) (h : R s c.st) (n : Nat) (p : Presence) : R s (c.reportPresence n p).st :=
  k.outside h rfl rfl

theorem markReturn (k : Carries R) (h : R s c.st) (n : Nat) : R s (c.markReturn n).st :=
  k.outside h (State.markSeat_seats _ _ _) (State.markSeat_floor _ _ _)

theorem leave (k : Carries R) (h : R s c.st) (n : Nat) : R s (c.leave n).st := by
  have removed := k.trans h (k.removeSeat c n .absent)
  unfold Claim.leave
  generalize c.removeSeat n .absent = d at removed
  dsimp only
  split
  · exact k.outside removed rfl rfl
  · exact removed

theorem becomeAbsent (k : Carries R) (h : R s c.st) (n : Nat) : R s (c.becomeAbsent n).st :=
  k.leave (k.reportPresence (k.setPresence h n .absent) n .absent) n

theorem becomePresent (k : Carries R) (h : R s c.st) (n : Nat) : R s (c.becomePresent n).st := by
  have returned := k.markReturn (k.reportPresence (k.setPresence h n .present) n .present) n
  unfold Claim.becomePresent
  split
  · exact h
  · exact k.setPresence h _ _
  · exact returned
  · dsimp only
    repeat' split
    all_goals exact returned

theorem fireAlarm (k : Carries R) (h : R s c.st) (i : Fin 3) : R s (c.fireAlarm i).st := by
  have fired (f : Alarm → Alarm) (e : EventFlag) (n : Notice) : R s (((c.modAlarm i f).raise e).notify n).st :=
    k.outside h rfl rfl
  unfold Claim.fireAlarm
  dsimp only
  split
  · exact fired _ _ _
  · exact k.trans (fired _ _ _) (k.haltFloor _)
  · exact k.trans (fired _ _ _) (k.closeGate _)

theorem checkAlarms (k : Carries R) (h : R s c.st) : R s c.checkAlarms.st :=
  k.foldl _ (fun c i => by split; exacts [k.fireAlarm (k.refl c.st) i, k.refl c.st]) _ h

theorem setEnabled (k : Carries R) (h : R s c.st) (v : Bool) (n : Nat) : R s (c.setEnabled v n).st := by
  have written := k.modSeat h n (fun r => { r with enabled := v }) fun _ => rfl
  unfold Claim.setEnabled
  dsimp only
  repeat' split
  · exact h
  · exact written
  · rw [Claim.fillPoint_st]
    exact k.trans written (k.removeSeat _ n .disable)

theorem setPresences (k : Carries R) (h : R s c.st) (ns : List Nat) (p : Presence) : R s (c.setPresences ns p).st := by
  rw [Claim.setPresences, Claim.trackHead_st]
  refine k.foldl _ (fun c n => ?_) ns h
  exact k.modSeat (k.refl _) n _ fun _ => rfl

theorem closeTrunkSlots (k : Carries R) (h : R s c.st) (t : TrunkNo) : R s (c.closeTrunkSlots t).st := by
  unfold Claim.closeTrunkSlots
  refine k.foldl _ (fun c i => k.closeChair c i .trunk) _ (k.foldl _ (fun c x => ?_) _ h)
  exact k.closeSlot c x.1 .trunk

theorem dropReplies (k : Carries R) (h : R s c.st) (ns : List Nat) (why : Reason) : R s (c.dropReplies ns why).st :=
  k.foldl _ (fun c n => k.dropReply c n why) _ h

theorem removeSeats (k : Carries R) (h : R s c.st) (ns : List Nat) (why : Reason) : R s (c.removeSeats ns why).st :=
  k.foldl _ (fun c n => k.removeSeat c n why) _ (k.dropReplies h ns why)

theorem setTrunkState (k : Carries R) (h : R s c.st) (t : TrunkNo) (x : TrunkState) : R s (c.setTrunkState t x).st :=
  k.outside h rfl rfl

theorem startEnumeration (k : Carries R) (h : R s c.st) (t : TrunkNo) : R s (c.startEnumeration t).st := by
  unfold Claim.startEnumeration
  dsimp only
  rw [Claim.fillPoint_st]
  refine k.setTrunkState (k.modTrunk (k.raise (k.setPresences (k.closeTrunkSlots ?_ t) _ _) _) t _) t _
  exact k.modTrunk h t _

theorem disableTrunk (k : Carries R) (h : R s c.st) (t : TrunkNo) : R s (c.disableTrunk t).st := by
  unfold Claim.disableTrunk
  dsimp only
  rw [Claim.fillPoint_st]
  refine k.setTrunkState (k.modTrunk (k.removeSeats (k.raise (k.setPresences (k.closeTrunkSlots ?_ t) _ _) _) _ _) t _) t _
  exact k.modTrunk h t _

theorem completeEnumeration (k : Carries R) (h : R s c.st) (t : TrunkNo) : R s (c.completeEnumeration t).st := by
  unfold Claim.completeEnumeration
  dsimp only
  rw [Claim.fillPoint_st]
  refine k.setTrunkState (k.raise (k.modTrunk ?_ t _) _) t _
  refine k.foldl _ (fun c n => k.leave (k.refl _) n) _ (k.dropReplies ?_ _ _)
  exact k.foldl _ (fun c n => k.markReturn (k.refl _) n) _ (k.setPresences (k.setPresences h _ _) _ _)

theorem recordKind (k : Carries R) (h : R s c.st) (t : TrunkNo) (p : Nat) (r : StatusReport) : R s (c.recordKind t p r).st := by
  unfold Claim.recordKind
  split
  · exact k.modSeat h _ _ fun _ => rfl
  · exact h

theorem checkMic (k : Carries R) (h : R s c.st) (t : TrunkNo) (p : Nat) (x y : Bool) : R s (c.checkMic t p x y).st := by
  unfold Claim.checkMic
  dsimp only
  split
  · exact k.modTrunk h _ _
  · split
    · exact h
    · split
      · exact k.modSeat (k.notify (k.modTrunk h _ _) _) _ _ fun _ => rfl
      · exact k.notify (k.modTrunk h _ _) _

theorem takeReport (k : Carries R) (h : R s c.st) (t : TrunkNo) (p : Nat) (r : StatusReport) : R s (c.takeReport t p r).st := by
  unfold Claim.takeReport
  dsimp only
  repeat' split
  · exact h
  · exact k.outside h rfl rfl
  · exact h
  · exact k.outside h rfl rfl

theorem takeStatus (k : Carries R) (h : R s c.st) (t : TrunkNo) (x : Transaction) (r : StatusReport) :
    R s (c.takeStatus t x r).st := by
  have running : R s (if (c.st.trunk t).state = .fault then c.setTrunkState t .running else c).st := by
    split
    · exact k.setTrunkState h _ _
    · exact h
  have heard := k.modTrunk running t
    fun e => { e.modStation x.position fun y => { y with miss := 0 } with sweepHeard := true }
  unfold Claim.takeStatus
  dsimp only
  split
  · refine k.modTrunk (k.checkMic (k.recordKind ?_ _ _ _) _ _ _ _) _ _
    split
    · exact k.becomePresent heard _
    · exact heard
  · refine k.takeReport (k.checkMic (k.recordKind ?_ _ _ _) _ _ _ _) _ _ _
    split
    · exact k.becomePresent heard _
    · exact heard

theorem takeProbe (k : Carries R) (h : R s c.st) (t : TrunkNo) (p : Nat) (r : StatusReport) : R s (c.takeProbe t p r).st :=
  k.recordKind (k.modTrunk h t _) t p r

theorem takeMiss (k : Carries R) (h : R s c.st) (t : TrunkNo) (p : Nat) : R s (c.takeMiss t p).st := by
  have counted := k.modTrunk h t
    (·.modStation p fun y => { y with miss := min 3 (((c.st.trunk t).station p).miss + 1) })
  unfold Claim.takeMiss
  dsimp only
  split
  · exact counted
  · split
    · exact counted
    · split
      · exact k.becomeAbsent counted _
      · exact counted
    all_goals
      split
      · exact k.becomeAbsent counted _
      · exact k.setPresence counted _ _

theorem intake (k : Carries R) (h : R s c.st) : R s c.intake.st := by
  have told (ns : List Notice) : R s (ns.foldl Claim.notify (c.lift fun s => { s with trunks := s.trunks.map fun e =>
      { e with fifo := e.fifo.filter fun r => !r.qualifies c.time } })).st :=
    k.foldl Claim.notify (fun c n => k.notify (k.refl _) n) ns (k.outside h rfl rfl)
  have kept (ns : List Notice) : (ns.foldl Claim.notify (c.lift fun s => { s with trunks := s.trunks.map fun e =>
      { e with fifo := e.fifo.filter fun r => !r.qualifies c.time } })).floor = c.floor :=
    Claim.foldl_notify_floor ns _
  have applied (ns : List Notice) (l : List CaptureRecord) (w : Word) (hw : c.floor.draw ≠ 0 → w ≠ 0) : R s
      (l.foldl Claim.applyRecord ((ns.foldl Claim.notify (c.lift fun s => { s with trunks := s.trunks.map fun e =>
        { e with fifo := e.fifo.filter fun r => !r.qualifies c.time } })).modFloor fun f => { f with draw := w })).st :=
    k.foldl _ k.applyRecord _ (k.trans (told ns) (k.draw _ w fun d => hw (kept ns ▸ d)))
  unfold Claim.intake
  dsimp only
  split <;> exact applied _ _ _ fun h => orderBatch_ne_zero _ _ h _

end State.Carries

/-- The bindings are carried over. -/
theorem State.SameBindings.carries : State.Carries State.SameBindings where
  refl := .refl
  trans := .trans
  rest hs _ := .ofSeats hs
  seat := .modSeat
  draw _ _ _ := .ofSeats rfl
  closeSlot _ i why := .ofFloor (Claim.closeSlot_frame (.refl _) i why)
  closeChair _ i why := .ofFloor (Claim.closeChair_frame (.refl _) i why)
  dropReply _ n why := .ofFloor (Claim.dropReply_frame (.refl _) n why)
  removeSeat _ n why := .ofFloor (Claim.removeSeat_frame (.refl _) n why)
  haltFloor _ := .ofFloor (Claim.haltFloor_frame (.refl _))
  closeGate _ := .ofFloor (Claim.closeGate_frame (.refl _))
  applyRecord _ r := .ofFloor (Claim.applyRecord_frame (.refl _) r)
  settle before _ := .ofFloor ((Claim.settleFloor_frame (.refl _)).trans (Claim.close_frame before _))

end Sys2Proof.Machine
end

section
/-! SUPPORT. What each row leaves: the frames of the floor's actions (R1, R19), what every action and event carries over, and with
these StepKeepsReports, StepKeepsPorts, StepKeepsTrunks and EveryEventNext. -/

namespace Sys2Proof.Machine

/-! ### The floor's actions: each keeps the floor's frame -/

section FloorActions

open Claim

theorem listInsertAction_frame (p : List Byte) (s : State) : s.FloorFrame (listInsertAction p s).1 := by
  unfold listInsertAction
  dsimp only
  repeat' split
  all_goals dsimp only [refuseWith]
  · exact .refl s
  · exact .refl s
  · exact .refl s
  · exact .refl s
  · exact .refl s
  · refine State.event_frame s _ ?_
    exact fillPoint_frame (enqueue_frame (c := start s) (.refl s) _ _)

theorem listRemoveAction_frame (p : List Byte) (s : State) : s.FloorFrame (listRemoveAction p s).1 := by
  unfold listRemoveAction
  dsimp only
  repeat' split
  all_goals dsimp only [refuseWith]
  · exact .refl _
  · exact .refl _
  · refine State.event_frame s _ ?_
    exact dequeue_frame (c := start s) (.refl s) _ _

theorem listMoveAction_frame (p : List Byte) (s : State) : s.FloorFrame (listMoveAction p s).1 := by
  unfold listMoveAction
  dsimp only
  repeat' split
  all_goals dsimp only [refuseWith]
  · exact .refl s
  · exact .refl s
  · exact .refl s
  · exact .refl s
  · exact .refl s
  · refine State.event_frame s _ ?_
    exact fillPoint_frame (reorder_frame (c := start s) (.refl s) _)

theorem listClearAction_frame (p : List Byte) (s : State) : s.FloorFrame (listClearAction p s).1 := by
  unfold listClearAction
  split
  all_goals dsimp only [refuseWith]
  · exact .refl _
  · refine State.event_frame s _ ?_
    exact clearRequests_frame (c := start s) (.refl s) _

theorem listShuffleAction_frame (p : List Byte) (s : State) : s.FloorFrame (listShuffleAction p s).1 := by
  unfold listShuffleAction
  dsimp only
  split
  all_goals dsimp only [refuseWith]
  · exact .refl _
  · refine State.event_frame s _ ?_
    exact fillPoint_frame (modFloor_frame (reorder_frame (c := start s) (.refl s) _) _)

theorem listGateAction_frame (p : List Byte) (s : State) : s.FloorFrame (listGateAction p s).1 := by
  unfold listGateAction
  repeat' split
  all_goals dsimp only [refuseWith]
  · exact .refl _
  · exact .refl _
  · exact State.FloorFrame.trans (.modFloor s _) (.raise _ _)

theorem intakeHoldAction_frame (p : List Byte) (s : State) : s.FloorFrame (intakeHoldAction p s).1 := by
  unfold intakeHoldAction
  repeat' split
  all_goals dsimp only [refuseWith]
  · exact .refl _
  · exact .refl _
  · exact .modFloor s _

theorem seedAction_frame (p : List Byte) (s : State) : s.FloorFrame (seedAction p s).1 := by
  unfold seedAction
  split
  all_goals dsimp only [refuseWith]
  · exact .refl _
  · exact .modFloor s _

theorem listReadAction_fst (p : List Byte) (s : State) : (listReadAction p s).1 = s := by
  unfold listReadAction
  dsimp only
  split <;> rfl

theorem stackReadAction_fst (p : List Byte) (s : State) : (stackReadAction p s).1 = s := by
  unfold stackReadAction
  dsimp only
  repeat' split
  all_goals rfl

theorem floorOpenAction_frame (p : List Byte) (s : State) : s.FloorFrame (floorOpenAction p s).1 := by
  unfold floorOpenAction
  dsimp only
  split
  all_goals dsimp only [refuseWith]
  · exact .refl _
  · exact .refl _
  · exact .refl _
  · refine State.event_frame s _ ?_
    exact fillPoint_frame (setPhase_frame (c := start s) (.refl s) _)

theorem floorHaltAction_frame (p : List Byte) (s : State) : s.FloorFrame (floorHaltAction p s).1 := by
  unfold floorHaltAction
  split
  all_goals dsimp only [refuseWith]
  · exact .refl _
  · refine State.event_frame s _ ?_
    exact haltFloor_frame (c := start s) (.refl s)

theorem floorClearAction_frame (p : List Byte) (s : State) : s.FloorFrame (floorClearAction p s).1 := by
  unfold floorClearAction
  split
  all_goals dsimp only [refuseWith]
  · exact .refl _
  · refine State.event_frame s _ ?_
    exact clearAll_frame (c := start s) (.refl s)

theorem grantAction_frame (p : List Byte) (s : State) : s.FloorFrame (grantAction p s).1 := by
  unfold grantAction
  dsimp only
  repeat' split
  all_goals dsimp only [refuseWith]
  · exact .refl s
  · exact .refl s
  · exact .refl s
  · exact .refl s
  · refine State.event_frame s _ ?_
    exact grantHost_frame (c := start s) (.refl s) _ _ _

theorem closeSeatAction_frame (n : Nat) (s : State) : s.FloorFrame (closeSeatAction n s).1 := by
  unfold closeSeatAction
  repeat' split
  all_goals dsimp only [refuseWith]
  · exact .refl _
  · refine State.event_frame s _ ?_
    exact closeSlot_frame (c := start s) (.refl s) _ _
  · exact .refl _
  · refine State.event_frame s _ ?_
    exact closeChair_frame (c := start s) (.refl s) _ _
  · exact .refl _

theorem closeAllAction_frame (s : State) : s.FloorFrame (closeAllAction s).1 := by
  have closed : s.FloorFrame (if s.floor.openCount = 0 ∧ s.floor.replies = [] then (s, Reply.of .unchanged [0])
      else (s.event closeAllSlots, .of .done [be8 s.floor.openCount]) : State × Reply).1 := by
    split
    all_goals dsimp only
    · exact .refl s
    · refine State.event_frame s _ ?_
      exact closeAllSlots_frame (c := start s) (.refl s)
  unfold closeAllAction
  dsimp only
  split
  · exact .refl s
  · exact .refl s
  · exact closed
  · exact closed

theorem closeAction_frame (p : List Byte) (s : State) : s.FloorFrame (closeAction p s).1 := by
  unfold closeAction
  split
  · exact closeSeatAction_frame _ _
  · exact closeAllAction_frame _
  · exact .refl _

theorem policySetAction_frame (p : List Byte) (s : State) : s.FloorFrame (policySetAction p s).1 := by
  unfold policySetAction
  repeat' split
  all_goals dsimp only [refuseWith]
  · exact .refl _
  · exact .refl _
  · refine State.event_frame s _ ?_
    exact fillPoint_frame (raise_frame (modFloor_frame (c := start s) (.refl s) _) _)

theorem extendSlot_frame (s : State) (n : Nat) (i : Fin 6) (d : DelegateSlot) : s.FloorFrame (extendSlot s n i d).1 := by
  unfold extendSlot
  dsimp only
  repeat' split
  all_goals dsimp only [refuseWith]
  · exact .refl _
  · exact .refl _
  · refine State.event_frame s _ ?_
    exact touch_frame (raise_frame (modFloor_frame (c := start s) (.refl s) _) _) _

theorem extendHeld_frame (s : State) (n : Nat) (h : HeldSlot) : s.FloorFrame (extendHeld s n h).1 := by
  unfold extendHeld
  dsimp only
  repeat' split
  all_goals dsimp only [refuseWith]
  · exact .refl _
  · exact .refl _
  · exact State.FloorFrame.trans (.modFloor s _) (.raise _ _)

theorem extendAction_frame (p : List Byte) (s : State) : s.FloorFrame (extendAction p s).1 := by
  unfold extendAction
  dsimp only
  repeat' split
  · exact .refl _
  · exact extendSlot_frame _ _ _ _
  · exact extendHeld_frame _ _ _
  · exact .refl _

theorem replyRemoveAction_frame (p : List Byte) (s : State) : s.FloorFrame (replyRemoveAction p s).1 := by
  unfold replyRemoveAction
  dsimp only
  repeat' split
  all_goals dsimp only [refuseWith]
  · exact .refl _
  · exact .refl _
  · refine State.event_frame s _ ?_
    exact dropReply_frame (c := start s) (.refl s) _ _

theorem replyEndAction_frame (p : List Byte) (s : State) : s.FloorFrame (replyEndAction p s).1 := by
  unfold replyEndAction
  split
  all_goals dsimp only [refuseWith]
  · exact .refl _
  · refine State.event_frame s _ ?_
    exact clearReplies_frame (c := start s) (.refl s) _

theorem suspendAction_frame (l : Link) (p : List Byte) (s : State) : s.FloorFrame (suspendAction l p s).1 := by
  unfold suspendAction
  dsimp only
  refine State.event_frame s _ ?_
  exact pushLink_frame (c := start s) (.refl s) l

theorem resumeAction_frame (p : List Byte) (s : State) : s.FloorFrame (resumeAction p s).1 := by
  unfold resumeAction
  split
  all_goals dsimp only [refuseWith]
  · exact .refl _
  · refine State.event_frame s _ ?_
    exact pop_frame (c := start s) (.refl s) .host

end FloorActions

/-- The law of the position map rests on the seats alone. -/
theorem State.BindingsLaw.ofSeats {s t : State} (seats : t.seats = s.seats) (w : s.BindingsLaw) : t.BindingsLaw :=
  (SameBindings.ofSeats seats).law w

/-! ### What every action and every event carries over -/

/-- What every action of a command carries over: the capacities of the reports and the engines, the position map, and the command
state and the transmit queue of both ports (R2, R134, R162, R163, R179). -/
structure State.Carried (s t : State) : Prop where
  reports : s.reportsWf → t.reportsWf
  trunks : s.trunksWf → t.trunksWf
  bindings : s.BindingsLaw → t.BindingsLaw
  command : ∀ l, (t.port l).command = (s.port l).command
  transmit : ∀ l, (t.port l).transmit = (s.port l).transmit

namespace State.Carried

variable {s t u : State}

theorem refl (s : State) : s.Carried s := ⟨id, id, id, fun _ => rfl, fun _ => rfl⟩

theorem trans (h : s.Carried t) (g : t.Carried u) : s.Carried u :=
  ⟨g.reports ∘ h.reports, g.trunks ∘ h.trunks, g.bindings ∘ h.bindings, fun l => (g.command l).trans (h.command l),
    fun l => (g.transmit l).trans (h.transmit l)⟩

theorem ofEq (h : t = s) : s.Carried t := h ▸ refl s

/-- A claim carries everything over when it keeps the position map. -/
theorem ofClaim (h : s.ClaimFrame t) (b : s.BindingsLaw → t.BindingsLaw) : s.Carried t where
  reports w := ⟨h.report.linkA.capacity w.1, h.report.linkB.capacity w.2⟩
  trunks w i := h.trunks i (w i)
  bindings := b
  command l := by cases l <;> simp [port, h.ports]
  transmit l := by cases l <;> simp [port, h.ports]

theorem ofFloor (h : s.FloorFrame t) : s.Carried t := ofClaim (.ofFloor h) (SameBindings.ofFloor h).law

/-- One event, of a body that keeps the bindings, carries everything over. -/
theorem event {body : Claim → Claim} (h : s.ClaimFrame (body (.start s)).st) (b : s.SameBindings (body (.start s)).st) :
    s.Carried (s.event body) :=
  ofClaim (event_claim s body h) (SameBindings.carries.event b).law

/-- An edit of what lies outside the seats, the engines, the reports and the two ports. -/
theorem ofRest (seats : t.seats = s.seats) (trunks : t.trunks = s.trunks) (report : t.report = s.report)
    (command : ∀ l, (t.port l).command = (s.port l).command) (transmit : ∀ l, (t.port l).transmit = (s.port l).transmit) :
    s.Carried t where
  reports w := by unfold reportsWf; rw [report]; exact w
  trunks w i := by unfold trunk; rw [trunks]; exact w i
  bindings := fun w => .ofSeats seats w
  command := command
  transmit := transmit

theorem modTime (s : State) (f : TimeBase → TimeBase) : s.Carried (s.modTime f) :=
  ofRest rfl rfl rfl (fun _ => rfl) (fun _ => rfl)

theorem reachMoment (s : State) (m : Nat) : s.Carried (s.reachMoment m) := ofRest rfl rfl rfl (fun _ => rfl) (fun _ => rfl)

theorem raise (s : State) (e : EventFlag) : s.Carried (s.raise e) := ofFloor (.raise s e)

theorem notify (s : State) (n : Notice) : s.Carried (s.notify n) := ofFloor (.notify s n)

theorem modTrunk (s : State) (tr : TrunkNo) (f : TrunkEngine → TrunkEngine) (h : ∀ e : TrunkEngine, e.wf → (f e).wf) :
    s.Carried (s.modTrunk tr f) := ofClaim (.modTrunk s tr f h) fun w => .ofSeats (s := s) rfl w

/-- An edit of one seat's record that keeps its binding. -/
theorem modSeat (s : State) (n : Nat) (f : SeatRecord → SeatRecord) (hf : ∀ r, (f r).binding = r.binding) :
    s.Carried (s.modSeat n f) := ofClaim (.modSeat s n f) (SameBindings.modSeat s n f hf).law

/-- An edit of one link's reports that lengthens no queue (R179). -/
theorem modReport (s : State) (l : Link) (f : LinkReport → LinkReport) (hf : ∀ r : LinkReport, r.wf → (f r).wf) :
    s.Carried (s.modReport l f) where
  reports w := by cases l; exacts [⟨hf _ w.1, w.2⟩, ⟨w.1, hf _ w.2⟩]
  trunks w i := by cases l <;> exact w i
  bindings := fun w => .ofSeats (s := s) (by cases l <;> rfl) w
  command l' := by cases l <;> cases l' <;> rfl
  transmit l' := by cases l <;> cases l' <;> rfl

end State.Carried

/-! #### The seats -/

/-- A pair that no other seat holds may be given to a seat (R1, R2, R4). -/
theorem State.BindingsLaw.bound {s t : State} (law : s.BindingsLaw) {n : Nat} {b : Binding} (hp : 1 ≤ b.position ∧ b.position ≤ 120)
    (free : ∀ m, s.seatAt b.trunk b.position = some m → m = n)
    (self : ∀ d, (t.seat n).binding = some d → d = b) (others : ∀ m, m ≠ n → (t.seat m).binding = (s.seat m).binding) :
    t.BindingsLaw := by
  have alone : ∀ m d, m ≠ n → (t.seat m).binding = some d → d.trunk = b.trunk → d.position = b.position → False := by
    intro m d other hd trunk position
    have held := law.seatAt ((others m other).symm.trans hd)
    rw [trunk, position] at held
    exact other (free m held)
  constructor
  · intro m d hd
    by_cases e : m = n
    · subst e
      rw [self d hd]
      exact hp
    · exact law.position m d ((others m e).symm.trans hd)
  · intro m k d d' hd hd' trunk position
    by_cases em : m = n
    · by_cases ek : k = n
      · rw [em, ek]
      · rw [em] at hd
        rw [self d hd] at trunk position
        exact (alone k d' ek hd' trunk.symm position.symm).elim
    · by_cases ek : k = n
      · rw [ek] at hd'
        rw [self d' hd'] at trunk position
        exact (alone m d em hd trunk position).elim
      · exact law.onePair m k d d' ((others m em).symm.trans hd) ((others k ek).symm.trans hd') trunk position

namespace Claim

/-- The release of a pair takes the seat's binding and no other (R6). -/
theorem releasePair_binding (c : Claim) (n m : Nat) :
    ((c.releasePair n).st.seat m).binding = if m = n then none else (c.st.seat m).binding := by
  unfold releasePair
  split
  · rename_i none_
    split
    · rename_i e; rw [e, none_]
    · rfl
  · rename_i b bound
    rw [modSeat_st]
    split
    · rename_i e
      have range := State.bound_range bound
      rw [e, State.seat_modSeat_self _ (by simp [seatIndex, range])]
    · rename_i e
      rw [State.seat_modSeat_ne _ e]
      rfl

theorem modSeat_binding_ne (c : Claim) {n m : Nat} (h : m ≠ n) (f : SeatRecord → SeatRecord) :
    (((c.modSeat n f).st.seat m).binding) = (c.st.seat m).binding := by
  rw [modSeat_st, State.seat_modSeat_ne _ h]

/-- A binding to another pair gives the seat this pair, and every other seat keeps its own (R5). -/
theorem bind_binding (c : Claim) (n : Nat) (b : Binding) :
    (∀ d, ((c.bind n b).st.seat n).binding = some d → d = b) ∧
      ∀ m, m ≠ n → ((c.bind n b).st.seat m).binding = (c.st.seat m).binding := by
  have written : ∀ f : SeatRecord → SeatRecord, (∀ r, (f r).binding = some b) →
      (∀ d, (((c.releasePair n).modSeat n f).st.seat n).binding = some d → d = b) ∧
        ∀ m, m ≠ n → (((c.releasePair n).modSeat n f).st.seat m).binding = (c.st.seat m).binding := by
    intro f hf
    refine ⟨fun d hd => ?_, fun m hm => ?_⟩
    · have range := State.bound_range hd
      rw [modSeat_st, State.seat_modSeat_self _ (by simp [seatIndex, range]), hf] at hd
      exact (Option.some.inj hd).symm
    · rw [modSeat_binding_ne _ hm, releasePair_binding, if_neg hm]
  unfold bind
  dsimp only
  rw [touch_st]
  split
  · exact written _ fun _ => rfl
  · exact written _ fun _ => rfl

/-- An unbinding takes the seat's binding and no other (R6). -/
theorem unbind_binding (c : Claim) (n m : Nat) :
    ((c.unbind n).st.seat m).binding = if m = n then none else (c.st.seat m).binding := by
  unfold unbind
  dsimp only
  rw [fillPoint_st, modSeat_st,
    State.SameBindings.modSeat _ n (fun r => { r with kind := none, presence := .absent, refusalUntil := none, image := .dark })
      (fun _ => rfl) m,
    releasePair_binding, State.SameBindings.ofFloor (removeSeat_frame (.refl c.st) n .unbind) m]

end Claim

/-- The end of an event keeps the bindings its body leaves. -/
theorem State.SameBindings.ofEvent (s : State) (body : Claim → Claim) :
    (body (.start s)).st.SameBindings (s.event body) := State.SameBindings.carries.settle _ _

/-- Another class for the pair a seat holds (R4). -/
theorem State.Carried.reclass {s : State} {n : Nat} {b : Binding} (hp : 1 ≤ b.position ∧ b.position ≤ 120)
    (free : ∀ m, s.seatAt b.trunk b.position = some m → m = n) :
    s.Carried (s.event fun c => (c.modSeat n fun r => { r with binding := some b }).touch n) := by
  refine .ofClaim (State.event_claim s _ ?_) fun law => ?_
  · rw [Claim.touch_st]
    exact Claim.modSeat_claim (c := .start s) (.refl s) _ _
  · refine (State.SameBindings.ofEvent s _).law (State.BindingsLaw.bound law (n := n) hp free ?_ ?_)
    · intro d hd
      rw [Claim.touch_st, Claim.modSeat_st] at hd
      have inTable := State.bound_range hd
      rw [State.seat_modSeat_self _ (by simp [seatIndex, inTable])] at hd
      exact (Option.some.inj hd).symm
    · intro m hm
      rw [Claim.touch_st, Claim.modSeat_binding_ne _ hm]

/-- The binding of a seat to a pair that no other seat holds (R5). -/
theorem State.Carried.bind {s : State} {n : Nat} {b : Binding} (hp : 1 ≤ b.position ∧ b.position ≤ 120)
    (free : ∀ m, s.seatAt b.trunk b.position = some m → m = n) : s.Carried (s.event (·.bind n b)) := by
  refine .ofClaim (State.event_claim s _ (Claim.bind_claim (c := .start s) (.refl s) _ _)) fun law => ?_
  obtain ⟨self, others⟩ := Claim.bind_binding (.start s) n b
  exact (State.SameBindings.ofEvent s _).law (State.BindingsLaw.bound law hp free self others)

/-- The unbinding of a seat (R6). -/
theorem State.Carried.unbind (s : State) (n : Nat) : s.Carried (s.event (·.unbind n)) := by
  refine .ofClaim (State.event_claim s _ (Claim.unbind_claim (c := .start s) (.refl s) _)) fun law => ?_
  have lost := Claim.unbind_binding (.start s) n
  refine (State.SameBindings.ofEvent s _).law ⟨fun m b hb => ?_, fun m k b d hb hd => ?_⟩
  · rw [lost] at hb
    split at hb
    · simp at hb
    · exact law.position m b hb
  · rw [lost] at hb hd
    split at hb
    · simp at hb
    · split at hd
      · simp at hd
      · exact law.onePair m k b d hb hd

theorem seatBindAction_carried (p : List Byte) (s : State) : s.Carried (seatBindAction p s).1 := by
  unfold seatBindAction
  dsimp only
  split
  · exact .refl s
  · rename_i range
    have position : 1 ≤ u8 p 3 ∧ u8 p 3 ≤ 120 := by simp [Config.positions] at range; omega
    split
    · split
      · exact .refl s
      · split
        · exact .refl s
        · split
          · exact .refl s
          · rename_i unheld
            split
            · exact .refl s
            · split
              · exact .reclass position fun m hm => by simpa [hm] using unheld
              · exact .bind position fun m hm => by simpa [hm] using unheld
    · exact .refl s

theorem seatUnbindAction_carried (p : List Byte) (s : State) : s.Carried (seatUnbindAction p s).1 := by
  unfold seatUnbindAction
  dsimp only
  repeat' split
  all_goals dsimp only [refuseWith]
  · exact .refl s
  · exact .refl s
  · exact .unbind s _

theorem seatEnableAction_carried (p : List Byte) (s : State) : s.Carried (seatEnableAction p s).1 := by
  unfold seatEnableAction
  repeat' split
  all_goals dsimp only [refuseWith]
  · exact .refl s
  · exact .refl s
  · exact .refl s
  · refine State.Carried.event ?_ ?_
    · exact Claim.foldl_claim _ (fun c n h => Claim.setEnabled_claim h _ n) _ (.refl s)
    · exact State.SameBindings.carries.foldl _
        (fun c n => State.SameBindings.carries.setEnabled (.refl _) _ n) _ (.refl s)

theorem seatLabelAction_carried (p : List Byte) (s : State) : s.Carried (seatLabelAction p s).1 := by
  have stored (n : Nat) (codes : List Byte) : s.Carried (s.storeLabel n codes) := by
    have labelled := State.Carried.modSeat s n (fun r => { r with label := if codes = [] then none else some codes }) fun _ => rfl
    unfold State.storeLabel
    dsimp only
    split
    · exact labelled
    · exact labelled.trans (.ofFloor (.markSeat _ _ _))
  unfold seatLabelAction
  dsimp only
  repeat' split
  · exact .refl _
  · exact .refl _
  · exact stored _ _
  · exact stored _ _

theorem seatReadAction_fst (p : List Byte) (s : State) : (seatReadAction p s).1 = s := by
  unfold seatReadAction
  split <;> rfl

theorem marksClearAction_carried (p : List Byte) (s : State) : s.Carried (marksClearAction p s).1 := by
  have cleared : ∀ (ns : List Nat) (t : State), t.Carried (t.modSeats ns SeatRecord.clearMarks) := by
    intro ns
    induction ns with
    | nil => exact fun t => .refl t
    | cons n ns ih => exact fun t => (State.Carried.modSeat t n SeatRecord.clearMarks fun _ => rfl).trans (ih _)
  cases range : seatRange p with
  | none => rw [marksClearAction_of_none range]; exact .refl _
  | some ns => rw [marksClearAction_of_some range]; exact cleared ns s

/-! #### The Time Base and the alarms -/

/-- A shift of the points moves the refusal time of a seat (R85). -/
theorem State.shiftPoints_seat (s : State) (x : ChamberTime) (n : Nat) :
    (s.shiftPoints x).seat n = { s.seat n with refusalUntil := (s.seat n).refusalUntil.map (· + x) } := by
  unfold seat shiftPoints
  cases seatIndex n with
  | none => rfl
  | some i => simp

/-- A shift of the points moves the stamps of an engine's capture records (R85). -/
theorem State.shiftPoints_trunk (s : State) (x : ChamberTime) (i : TrunkNo) :
    (s.shiftPoints x).trunk i = { s.trunk i with fifo := (s.trunk i).fifo.map fun r => { r with stamp := r.stamp + x } } := by
  simp [trunk, shiftPoints]

theorem State.shiftPoints_carried (s : State) (x : ChamberTime) : s.Carried (s.shiftPoints x) where
  reports := id
  trunks w i := by
    obtain ⟨found, room, rest⟩ := w i
    rw [shiftPoints_trunk]
    exact ⟨found, by simpa using room, rest⟩
  bindings := SameBindings.law fun n => by rw [shiftPoints_seat]
  command l := by cases l <;> rfl
  transmit l := by cases l <;> rfl

theorem State.checkAlarms_carried (s : State) : s.Carried (s.event Claim.checkAlarms) := by
  refine Carried.event ?_ ?_
  · exact Claim.checkAlarms_claim (c := .start s) (.refl s)
  · exact SameBindings.carries.checkAlarms (c := .start s) (.refl s)

theorem State.fireAlarm_carried (s : State) (i : Fin 3) : s.Carried (s.event (·.fireAlarm i)) := by
  refine Carried.event ?_ ?_
  · exact Claim.fireAlarm_claim (c := .start s) (.refl s) i
  · exact SameBindings.carries.fireAlarm (c := .start s) (.refl s) i

theorem timeSetAction_carried (p : List Byte) (s : State) : s.Carried (timeSetAction p s).1 := by
  unfold timeSetAction
  dsimp only
  split
  · exact .refl s
  · exact (((State.Carried.modTime s _).trans (State.shiftPoints_carried _ _)).trans (State.checkAlarms_carried _)).trans
      (.trans (.raise _ _) (.notify _ _))

theorem State.setSource_carried (s : State) (src : TickSource) (count : Nat) : s.Carried (s.setSource src count) := by
  unfold setSource
  dsimp only
  split
  · exact .modTime _ _
  · exact ((Carried.modTime _ _).trans (.raise _ _)).trans (.notify _ _)

theorem timebaseModeAction_carried (p : List Byte) (s : State) : s.Carried (timebaseModeAction p s).1 := by
  unfold timebaseModeAction
  dsimp only
  repeat' split
  all_goals dsimp only [refuseWith]
  · exact .refl s
  · exact .refl s
  · exact (State.Carried.modTime s _).trans (State.setSource_carried _ _ _)
  · exact .modTime s _

theorem alarmSetAction_carried (p : List Byte) (s : State) : s.Carried (alarmSetAction p s).1 := by
  unfold alarmSetAction
  dsimp only
  repeat' split
  all_goals dsimp only [refuseWith]
  · exact .refl s
  · exact (State.Carried.modTime s _).trans (State.fireAlarm_carried _ _)
  · exact .modTime s _
  · exact .refl s

theorem alarmClearAction_carried (p : List Byte) (s : State) : s.Carried (alarmClearAction p s).1 := by
  unfold alarmClearAction
  dsimp only
  repeat' split
  all_goals dsimp only [refuseWith]
  · exact .modTime s _
  · exact .refl s
  · exact .refl s

/-! #### The trunks -/

theorem State.enumerate_carried (s : State) (t : TrunkNo) : s.Carried (s.enumerate t) := by
  unfold enumerate sendAssign
  refine Carried.trans ?_ (.modTrunk _ t _ fun e w => w)
  refine Carried.event ?_ ?_
  · exact Claim.startEnumeration_claim (c := .start s) (.refl s) t
  · exact SameBindings.carries.startEnumeration (c := .start s) (.refl s) t

theorem State.disableTrunk_carried (s : State) (t : TrunkNo) : s.Carried ((s.event (·.disableTrunk t)).stopLine t) := by
  refine State.Carried.trans (t := s.event (·.disableTrunk t)) ?_ (.modTrunk _ t _ fun e w => w)
  refine Carried.event ?_ ?_
  · exact Claim.disableTrunk_claim (c := .start s) (.refl s) t
  · exact SameBindings.carries.disableTrunk (c := .start s) (.refl s) t

theorem onTrunk_carried {f : TrunkNo → Action} (h : ∀ t p s, State.Carried s (f t p s).1) (p : List Byte) (s : State) :
    s.Carried (onTrunk f p s).1 := by
  unfold onTrunk
  split
  · exact h _ _ _
  · exact .refl s

theorem trunkControlAction_carried (p : List Byte) (s : State) : s.Carried (trunkControlAction p s).1 := by
  refine onTrunk_carried (fun t p s => ?_) p s
  dsimp only
  split
  all_goals dsimp only [refuseWith]
  · exact State.enumerate_carried s t
  · exact .refl s
  · exact .refl s
  · exact .refl s
  · exact .refl s
  · exact State.enumerate_carried s t
  · exact State.enumerate_carried s t
  · exact State.enumerate_carried s t
  · exact .refl s
  · exact State.disableTrunk_carried s t
  · exact State.disableTrunk_carried s t
  · exact State.disableTrunk_carried s t
  · exact .refl s

theorem trunkConfigAction_carried (p : List Byte) (s : State) : s.Carried (trunkConfigAction p s).1 := by
  refine onTrunk_carried (fun t p s => ?_) p s
  dsimp only
  repeat' split
  all_goals dsimp only [refuseWith]
  · exact .refl s
  · exact .refl s
  · exact .modTrunk s t _ fun e w => w

theorem trunkReadAction_carried (p : List Byte) (s : State) : s.Carried (trunkReadAction p s).1 :=
  onTrunk_carried (fun _ _ s => .refl s) p s

theorem countsClearAction_carried (p : List Byte) (s : State) : s.Carried (countsClearAction p s).1 := by
  refine onTrunk_carried (fun t p s => ?_) p s
  dsimp only
  refine .modTrunk s t _ fun e w => ?_
  obtain ⟨found, room, miss, -, -, -, pending⟩ := w
  exact ⟨found, room, miss, Nat.zero_le _, Nat.zero_le _, Nat.zero_le _, pending⟩

/-! #### The reports and the links -/

theorem takeEventsAction_carried (l : Link) (p : List Byte) (s : State) : s.Carried (takeEventsAction l p s).1 := by
  rw [takeEventsAction_eq]
  dsimp only
  exact .modReport s l _ fun _ w => w

theorem takeNoticesAction_carried (l : Link) (p : List Byte) (s : State) : s.Carried (takeNoticesAction l p s).1 := by
  have room : s.reportsWf → (s.reportOf l).wf := fun w => by cases l; exacts [w.1, w.2]
  unfold takeNoticesAction
  dsimp only
  split
  · exact .refl s
  · constructor
    · intro w
      have shorter := Nat.le_trans (List.drop_sublist (u8 p 0) _).length_le (room w)
      cases l
      · exact ⟨shorter, w.2⟩
      · exact ⟨w.1, shorter⟩
    · intro w i; cases l <;> exact w i
    · exact fun w => .ofSeats (s := s) (by cases l <;> rfl) w
    · intro l'; cases l <;> cases l' <;> rfl
    · intro l'; cases l <;> cases l' <;> rfl

theorem attnMaskAction_carried (l : Link) (p : List Byte) (s : State) : s.Carried (attnMaskAction l p s).1 := by
  unfold attnMaskAction
  dsimp only
  split
  all_goals dsimp only
  · exact .refl s
  · exact .modReport s l _ fun _ w => w

theorem noticeFilterAction_carried (l : Link) (p : List Byte) (s : State) : s.Carried (noticeFilterAction l p s).1 := by
  unfold noticeFilterAction
  dsimp only
  split
  all_goals dsimp only
  · exact .refl s
  · exact .modReport s l _ fun _ w => w

theorem linesSetAction_carried (p : List Byte) (s : State) : s.Carried (linesSetAction p s).1 := by
  have set (i : Fin 2) (x : StatLine) : s.Carried (s.setLine i x) := by
    unfold State.setLine
    split <;> exact ⟨id, fun w i => w i, fun w => .ofSeats (s := s) rfl w, fun _ => rfl, fun _ => rfl⟩
  unfold linesSetAction
  dsimp only
  repeat' split
  all_goals dsimp only [refuseWith]
  · exact .refl s
  · exact set _ _
  · exact .refl s
  · exact .refl s

theorem State.moveAuthority_carried (s : State) (l : Link) (cause : Byte) : s.Carried (s.moveAuthority l cause) :=
  ((Carried.ofRest (s := s) (t := { s with ports := { s.ports with control := l, takeoverOpen := false } }) rfl rfl rfl
    (fun l => by cases l <;> rfl) (fun l => by cases l <;> rfl)).trans (.raise _ _)).trans (.notify _ _)

theorem claimAction_carried (l : Link) (p : List Byte) (s : State) : s.Carried (claimAction l p s).1 := by
  unfold claimAction
  repeat' split
  all_goals dsimp only [refuseWith]
  · exact .refl s
  · exact s.moveAuthority_carried l 1
  · exact .refl s

theorem linkConfigAction_carried (p : List Byte) (s : State) : s.Carried (linkConfigAction p s).1 := by
  unfold linkConfigAction
  dsimp only
  repeat' split
  all_goals dsimp only [refuseWith]
  · exact .refl s
  · exact .refl s
  · exact .ofRest rfl rfl rfl (fun l => by cases l <;> rfl) (fun l => by cases l <;> rfl)

/-! ### What every row keeps -/

/-- What every row keeps: the capacities of the reports, the ports and the engines, and the position map. -/
structure State.Kept (s t : State) : Prop where
  reports : s.reportsWf → t.reportsWf
  ports : s.portsWf → t.portsWf
  trunks : s.trunksWf → t.trunksWf
  bindings : s.BindingsLaw → t.BindingsLaw

namespace State.Kept

variable {s t u : State}

theorem refl (s : State) : s.Kept s := ⟨id, id, id, id⟩

theorem trans (h : s.Kept t) (g : t.Kept u) : s.Kept u :=
  ⟨g.reports ∘ h.reports, g.ports ∘ h.ports, g.trunks ∘ h.trunks, g.bindings ∘ h.bindings⟩

theorem ofCarried (h : s.Carried t) : s.Kept t :=
  ⟨h.reports, fun w => (portsWf_iff t).mpr fun l =>
    LinkPort.wf_congr ((portsWf_iff s).mp w l) (h.command l) (h.transmit l), h.trunks, h.bindings⟩

/-- An edit of the ports that keeps their laws. -/
theorem ofPorts (frame : t = { s with ports := t.ports, now := t.now, freeDraws := t.freeDraws })
    (ports : s.portsWf → t.portsWf) : s.Kept t where
  reports w := by rw [frame]; exact w
  ports := ports
  trunks w := by rw [frame]; exact w
  bindings := by rw [frame]; exact fun w => .ofSeats (s := s) rfl w

/-- The reply to a held command. -/
theorem answer {l : Link} {d : HeldCommand} (h : (s.port l).command = .holding d) (c : HeldCommand) (r : Reply) :
    s.Kept (s.answer l c r) := ofPorts (by rw [answer_frame]) fun w => answer_portsWf w h c r

/-- A command row keeps what its action carries over (R165, R166). -/
theorem take {l : Link} {takes : HeldCommand → Bool} {needsControl : Bool} {lengths : Nat → Bool} {action : Action}
    (h : ∀ p, s.Carried (action p s).1) : s.Kept (s.take l takes needsControl lengths action) := by
  unfold State.take
  split
  · exact refl s
  · rename_i c held
    have holds := takeable_holds held
    dsimp only
    repeat' split
    · exact answer holds _ _
    · exact (ofCarried (h _)).trans (answer (((h _).command l).trans holds) _ _)
    · exact answer holds _ _
    · exact refl s

end State.Kept

/-! #### The engines' events -/

namespace State

theorem completeTrunk_carried (s : State) (t : TrunkNo) : s.Carried (s.completeTrunk t) := by
  have completed : s.Carried (s.event (·.completeEnumeration t)) := by
    refine Carried.event ?_ ?_
    · exact Claim.completeEnumeration_claim (c := .start s) (.refl s) t
    · exact SameBindings.carries.completeEnumeration (c := .start s) (.refl s) t
  unfold completeTrunk
  dsimp only
  split
  · exact completed.trans (.modTrunk _ t _ fun e w => TrunkEngine.startSweep_wf w _)
  · exact completed

theorem foundCount_carried (s : State) (t : TrunkNo) {n : Nat} (h : n ≤ Config.positions) : s.Carried (s.foundCount t n) := by
  have found := Carried.modTrunk s t (fun e => { e with found := n, plan := .probing 1 }) fun e w => ⟨h, w.2⟩
  unfold foundCount
  dsimp only
  split
  · exact found.trans (completeTrunk_carried _ t)
  · exact found

theorem endSweep_carried (s : State) (t : TrunkNo) : s.Carried (s.endSweep t) := by
  have ended := Carried.modTrunk s t (fun e => { e with plan := .waiting }) fun e w => w
  unfold endSweep
  dsimp only
  split
  · refine ended.trans (.ofClaim (Claim.setTrunkState_claim (c := .start _) (.refl _) t .fault) ?_)
    exact (SameBindings.carries.setTrunkState (c := .start _) (.refl _) t .fault).law
  · exact ended

theorem afterTransaction_carried (s : State) (t : TrunkNo) : s.Carried (s.afterTransaction t) := by
  unfold afterTransaction
  dsimp only
  split
  · split
    · exact completeTrunk_carried s t
    · exact .refl s
  · split
    · exact endSweep_carried s t
    · exact .refl s
  · exact .refl s

theorem faultTransaction_carried (s : State) (t : TrunkNo) (x : Transaction) : s.Carried (s.faultTransaction t x) := by
  have ended := Carried.modTrunk s t (fun e => { e with inFlight := none }) fun e w => w
  unfold faultTransaction
  dsimp only
  refine Carried.trans ?_ (afterTransaction_carried _ t)
  split
  · exact ended.trans (.modTrunk _ t _ fun e w => TrunkEngine.modStation_wf w _ _ fun _ _ => Nat.le_refl 3)
  · refine ended.trans (Carried.event ?_ ?_)
    · exact Claim.takeMiss_claim (c := .start _) (.refl _) t x.position
    · exact SameBindings.carries.takeMiss (c := .start _) (.refl _) t x.position

theorem takeProbe_carried (s : State) (t : TrunkNo) (p : Nat) (r : StatusReport) :
    s.Carried ((Claim.start s).takeProbe t p r).st :=
  .ofClaim (Claim.takeProbe_claim (c := .start s) (.refl s) t p r)
    (SameBindings.carries.takeProbe (c := .start s) (.refl s) t p r).law

theorem takeStatus_carried (s : State) (t : TrunkNo) (x : Transaction) (r : StatusReport) :
    s.Carried (s.event (·.takeStatus t x r)) := by
  refine Carried.event ?_ ?_
  · exact Claim.takeStatus_claim (c := .start s) (.refl s) t x r
  · exact SameBindings.carries.takeStatus (c := .start s) (.refl s) t x r

/-- An error count goes up and stops at 65535 (R136). -/
theorem countErrors_carried (s : State) (t : TrunkNo) :
    s.Carried (s.modTrunk t fun e => { e with crcErrors := countUp e.crcErrors }) ∧
      s.Carried (s.modTrunk t fun e => { e with formatErrors := countUp e.formatErrors }) ∧
      s.Carried (s.modTrunk t fun e => { e with misses := countUp e.misses }) := by
  refine ⟨.modTrunk s t _ ?_, .modTrunk s t _ ?_, .modTrunk s t _ ?_⟩
  all_goals rintro e ⟨found, room, miss, crc, format, misses, pending⟩
  · exact ⟨found, room, miss, TrunkEngine.countUp_le _, format, misses, pending⟩
  · exact ⟨found, room, miss, crc, TrunkEngine.countUp_le _, misses, pending⟩
  · exact ⟨found, room, miss, crc, format, TrunkEngine.countUp_le _, pending⟩

end State

theorem tallyReceived_carried (tr : TrunkNo) (bytes : List Byte) (m : Nat) {s t : State}
    (h : exec (.tallyReceived tr bytes m) s = .next t) : s.Carried t := by
  obtain rfl := Host.Outcome.next.inj h
  split
  · split
    · have moved := State.Carried.reachMoment s (s.answerAt tr m)
      dsimp only
      split
      · exact moved
      · exact moved.trans (State.countErrors_carried _ tr).1
      · split
        · rename_i within
          exact moved.trans (State.foundCount_carried _ tr within)
        · exact (moved.trans (.notify _ _)).trans (State.foundCount_carried _ tr (Nat.le_refl _))
    · exact .refl s
  · exact .refl s

theorem tallyWaitExpiry_carried (tr : TrunkNo) {s t : State} (h : exec (.tallyWaitExpiry tr) s = .next t) : s.Carried t := by
  obtain rfl := Host.Outcome.next.inj h
  split
  · exact (State.Carried.reachMoment s _).trans (State.foundCount_carried _ tr (Nat.zero_le _))
  · exact .refl s

theorem probe_carried (tr : TrunkNo) {s t : State} (h : exec (.probe tr) s = .next t) : s.Carried t := by
  obtain rfl := Host.Outcome.next.inj h
  split
  · split
    · exact .modTrunk s tr _ fun e w => w
    · exact .refl s
  · exact .refl s

theorem probeAnswer_carried (tr : TrunkNo) (bytes : List Byte) (m : Nat) {s t : State}
    (h : exec (.probeAnswer tr bytes m) s = .next t) : s.Carried t := by
  obtain rfl := Host.Outcome.next.inj h
  split
  · exact .refl s
  · split
    · dsimp only
      refine State.Carried.trans ?_ (State.afterTransaction_carried _ tr)
      refine State.Carried.trans ?_ (State.takeProbe_carried _ tr _ _)
      exact (State.Carried.reachMoment s _).trans (.modTrunk _ tr _ fun e w => w)
    · exact .refl s

theorem sweepStart_carried (tr : TrunkNo) {s t : State} (h : exec (.sweepStart tr) s = .next t) : s.Carried t := by
  obtain rfl := Host.Outcome.next.inj h
  split
  · exact (State.Carried.reachMoment s _).trans (.modTrunk _ tr _ fun e w => w)
  · exact .refl s

theorem sweepPoll_carried (tr : TrunkNo) {s t : State} (h : exec (.sweepPoll tr) s = .next t) : s.Carried t := by
  obtain rfl := Host.Outcome.next.inj h
  split
  · split
    · exact .modTrunk s tr _ fun e w => w
    · exact .refl s
  · exact .refl s

theorem sendBeat_carried (tr : TrunkNo) {s t : State} (h : exec (.sendBeat tr) s = .next t) : s.Carried t := by
  obtain rfl := Host.Outcome.next.inj h
  split
  · exact .modTrunk s tr _ fun e w => w
  · exact .refl s

/-- The entry served is the oldest one, so that the rest keeps the law of the pending update list (R146, R147). -/
theorem servePending_carried (tr : TrunkNo) {s t : State} (h : exec (.servePending tr) s = .next t) : s.Carried t := by
  obtain rfl := Host.Outcome.next.inj h
  split
  · rename_i next served u rest _ _ _ waiting
    split
    · have served : ∀ f : TrunkEngine → TrunkEngine, ((s.trunk tr).wf → (f (s.trunk tr)).wf) → s.Carried (s.modTrunk tr f) :=
        fun f hf => ⟨id, fun w i => by
          by_cases e : i = tr
          · subst e; rw [State.trunk_modTrunk_self]; exact hf (w i)
          · rw [State.trunk_modTrunk_ne _ e]; exact w i,
          fun w => .ofSeats (s := s) rfl w, fun _ => rfl, fun _ => rfl⟩
      refine served _ fun w => ?_
      obtain ⟨found, room, miss, crc, format, misses, length, nodup, range⟩ := w
      rw [waiting] at length nodup range
      refine ⟨found, room, miss, crc, format, misses, ?_, ?_, fun x hx => range x (List.mem_cons_of_mem _ hx)⟩
      · exact Nat.le_of_succ_le length
      · exact (List.nodup_cons.mp nodup).2
    · exact .refl s
  · exact .refl s

theorem statusAnswer_carried (tr : TrunkNo) (bytes : List Byte) (m : Nat) {s t : State}
    (h : exec (.statusAnswer tr bytes m) s = .next t) : s.Carried t := by
  obtain rfl := Host.Outcome.next.inj h
  split
  · exact .refl s
  · split
    · dsimp only
      refine State.Carried.trans ?_ (State.afterTransaction_carried _ tr)
      refine State.Carried.trans ?_ (State.takeStatus_carried _ tr _ _)
      exact (State.Carried.reachMoment s _).trans (.modTrunk _ tr _ fun e w => w)
    · exact .refl s

theorem answerFault_carried (tr : TrunkNo) (bytes : List Byte) (m : Nat) {s t : State}
    (h : exec (.answerFault tr bytes m) s = .next t) : s.Carried t := by
  obtain rfl := Host.Outcome.next.inj h
  split
  · exact .refl s
  · dsimp only
    split
    · exact .refl s
    · exact ((State.Carried.reachMoment s _).trans (State.countErrors_carried _ tr).1).trans
        (State.faultTransaction_carried _ tr _)
    · exact ((State.Carried.reachMoment s _).trans (State.countErrors_carried _ tr).2.1).trans
        (State.faultTransaction_carried _ tr _)

theorem answerWaitExpiry_carried (tr : TrunkNo) {s t : State} (h : exec (.answerWaitExpiry tr) s = .next t) :
    s.Carried t := by
  obtain rfl := Host.Outcome.next.inj h
  split
  · exact .refl s
  · exact ((State.Carried.reachMoment s _).trans (State.countErrors_carried _ tr).2.2).trans
      (State.faultTransaction_carried _ tr _)

/-! #### The pins, the ticks and the advances -/

namespace State

theorem tick_carried (s : State) (m : Nat) : s.Carried (s.tick m) := .ofRest rfl rfl rfl (fun _ => rfl) (fun _ => rfl)

theorem fallback_carried (s : State) (m : Nat) (src : TickSource) (count : Nat) : s.Carried (s.tickWithSource m src count) := by
  have drawn : s.Carried { s with freeDraws := s.freeDraws + 1 } := .ofRest rfl rfl rfl (fun _ => rfl) (fun _ => rfl)
  unfold tickWithSource
  dsimp only
  split
  · exact drawn.trans ((setSource_carried _ _ _).trans (tick_carried _ _))
  · exact drawn.trans ((tick_carried _ _).trans (setSource_carried _ _ _))

theorem countPulse_carried (s : State) (m : Nat) (src : TickSource) (count : Nat) : s.Carried (s.countPulse m src count) :=
  (setSource_carried _ _ _).trans (.modTime _ _)

theorem takePulse_carried (s : State) : s.Carried s.takePulse := by
  unfold takePulse
  split
  · split
    · exact countPulse_carried _ _ _ _
    · exact .refl s
  · unfold qualifyingPulse
    dsimp only
    repeat' split
    · exact countPulse_carried _ _ _ _
    · exact countPulse_carried _ _ _ _
    · exact (Carried.modTime _ _).trans (fallback_carried _ _ _ _)
    · exact (Carried.modTime _ _).trans (setSource_carried _ _ _)
  · unfold externalPulse
    split
    · exact tick_carried _ _
    · exact setSource_carried _ _ _

theorem pulse_carried (s : State) (m : Nat) : s.Carried (s.pulse m) := by
  unfold pulse
  dsimp only
  split
  · exact (Carried.reachMoment s m).trans ((fallback_carried _ _ _ _).trans (takePulse_carried _))
  · exact (Carried.reachMoment s m).trans (takePulse_carried _)

/-- One advance is taken off what is due. -/
theorem due_carried (s : State) (d : AdvanceDue) : s.Carried { s with due := d } :=
  .ofRest rfl rfl rfl (fun _ => rfl) (fun _ => rfl)

theorem countBeat_carried (s : State) : s.Carried s.countBeat := by
  have handed (phase : BitVec 2) (time : TimeBase) : s.Carried { s with
      timeBase := time
      trunks := s.trunks.map fun e => if e.state = .running then { e with waitingBeat := some phase } else e } :=
    ⟨id, fun w i => by
      simp only [trunk, Fin.getElem_fin, Vector.getElem_map]
      split
      · exact w i
      · exact w i, fun w => .ofSeats (s := s) rfl w, fun _ => rfl, fun _ => rfl⟩
  unfold countBeat
  split
  · exact handed _ _
  · exact .modTime _ _

theorem measureSilence_carried (s : State) : s.Carried s.measureSilence := by
  unfold measureSilence
  dsimp only
  split
  · exact .ofRest rfl rfl rfl (fun l => by cases l <;> rfl) (fun l => by cases l <;> rfl)
  · exact .refl s

theorem floorEvent_carried (s : State) {body : Claim → Claim} (h : s.FloorFrame (body (.start s)).st) :
    s.Carried (s.event body) := .ofFloor (event_frame s body h)

/-- A device reset keeps every law, since the reset values meet them (R173). -/
theorem deviceReset_kept (s : State) : s.Kept s.deviceReset where
  reports _ := ⟨Nat.zero_le _, Nat.zero_le _⟩
  ports _ := ⟨LinkPort.initial_wf, LinkPort.initial_wf⟩
  trunks _ i := by
    have engine : s.deviceReset.trunk i = .initial := by simp [trunk, deviceReset, reset]
    rw [engine]
    exact TrunkEngine.initial_wf
  bindings _ := by
    have unbound : ∀ n, (s.deviceReset.seat n).binding = none := fun n => by
      unfold seat
      cases seatIndex n with
      | none => rfl
      | some i => simp [deviceReset, reset, SeatRecord.initial]
    exact ⟨fun n b hb => by simp [unbound] at hb, fun n m b d hb => by simp [unbound] at hb⟩

end State

theorem intake_carried {s t : State} (h : exec .intake s = .next t) : s.Carried t := by
  obtain rfl := Host.Outcome.next.inj h
  split
  · have taken := State.due_carried s { s.due with intake := s.due.intake - 1 }
    dsimp only
    split
    · exact taken
    · refine taken.trans (State.Carried.event ?_ ?_)
      · exact Claim.intake_claim (c := .start _) (.refl _)
      · exact State.SameBindings.carries.intake (c := .start _) (.refl _)
  · exact .refl s

theorem deadlinePass_carried {s t : State} (h : exec .deadlinePass s = .next t) : s.Carried t := by
  obtain rfl := Host.Outcome.next.inj h
  split
  · refine (State.due_carried s _).trans (State.floorEvent_carried _ ?_)
    exact Claim.deadlinePass_frame (c := .start _) (.refl _)
  · exact .refl s

theorem displacementCheck_carried {s t : State} (h : exec .displacementCheck s = .next t) : s.Carried t := by
  obtain rfl := Host.Outcome.next.inj h
  split
  · refine (State.due_carried s _).trans (State.floorEvent_carried _ ?_)
    dsimp only
    split <;> exact .refl _
  · exact .refl s

theorem refusalEnd_carried {s t : State} (h : exec .refusalEnd s = .next t) : s.Carried t := by
  obtain rfl := Host.Outcome.next.inj h
  split
  · refine (State.due_carried s _).trans (State.floorEvent_carried _ ?_)
    exact Claim.endRefusals_frame (c := .start _) (.refl _)
  · exact .refl s

theorem alarmCheck_carried {s t : State} (h : exec .alarmCheck s = .next t) : s.Carried t := by
  obtain rfl := Host.Outcome.next.inj h
  split
  · exact (State.due_carried s _).trans (State.checkAlarms_carried _)
  · exact .refl s

/-! #### The rows of the links -/

/-- The port after a byte, a frame or a REJECT: only the ports and the timer change (R160 to R163). -/
theorem State.modPort_kept (s : State) (l : Link) (f : LinkPort → LinkPort) (h : (s.port l).wf → (f (s.port l)).wf) :
    s.Kept (s.modPort l f) := .ofPorts (by cases l <;> rfl) fun w => State.modPort_portsWf w l f h

theorem State.completeFrame_kept (s : State) (l : Link) (frame : List Byte) : s.Kept (s.completeFrame l frame) := by
  refine .ofPorts ?_ fun w => State.completeFrame_portsWf w l frame
  unfold completeFrame
  dsimp only
  split
  · cases l <;> (split <;> rfl)
  · cases l <;> rfl

theorem State.receiveByte_kept (s : State) (l : Link) (b : Byte) (m : Nat) : s.Kept (s.receiveByte l b m) := by
  have settled : s.Kept (((s.reachMoment m).settleSilence l).modPort l fun p =>
      { p with lastByteAt := ((s.reachMoment m).settleSilence l).now }) :=
    ((State.Kept.ofCarried (.reachMoment s m)).trans (State.modPort_kept _ l _ fun w => by
      split; exacts [LinkPort.timeout_wf w, w])).trans (State.modPort_kept _ l _ fun w => LinkPort.wf_congr w rfl rfl)
  unfold receiveByte
  dsimp only
  split
  · split
    · exact settled.trans (State.modPort_kept _ l _ fun w => LinkPort.wf_congr w rfl rfl)
    · exact settled
  · split
    · exact settled.trans (State.modPort_kept _ l _ fun w => LinkPort.endFrame_wf (LinkPort.reject_wf w _ _))
    · split
      · exact settled.trans (State.completeFrame_kept _ l _)
      · exact settled.trans (State.modPort_kept _ l _ fun w => LinkPort.wf_congr w rfl rfl)

theorem linkFrameTimeout_kept (l : Link) {s t : State} (h : exec (.linkFrameTimeout l) s = .next t) : s.Kept t := by
  obtain rfl := Host.Outcome.next.inj h
  split
  · exact (State.Kept.ofCarried (.reachMoment s _)).trans (State.modPort_kept _ l _ LinkPort.timeout_wf)
  · exact .refl s

theorem replySent_kept (l : Link) {s t : State} (h : exec (.replySent l) s = .next t) : s.Kept t := by
  obtain rfl := Host.Outcome.next.inj h
  split
  · rename_i sending
    split
    · exact s.deviceReset_kept
    · exact s.modPort_kept l _ fun w => LinkPort.replySent_wf w sending
  · exact .refl s

theorem rejectSent_kept (l : Link) {s t : State} (h : exec (.rejectSent l) s = .next t) : s.Kept t := by
  obtain rfl := Host.Outcome.next.inj h
  split
  · rename_i sending
    exact s.modPort_kept l _ fun w => LinkPort.rejectSent_wf w sending
  · exact .refl s

/-! ### Every row -/

/-- A row that answers with this state keeps what the state keeps. -/
theorem State.Kept.next {s t u : State} (h : (Host.Outcome.next u : Host.Outcome State Fault Refusal) = .next t) (k : s.Kept u) :
    s.Kept t := Host.Outcome.next.inj h ▸ k

/-- Every row keeps the capacities and the position map. -/
theorem exec_kept (i : Instr) {s t : State} (h : exec i s = .next t) : s.Kept t := by
  cases i with
  | unknownCommand l => exact .next h (.take fun p => .refl _)
  | identify l => exact .next h (.take fun p => .refl _)
  | restart l => exact .next h (.take fun p => .refl _)
  | authorityHand l => exact .next h (.take fun p => State.moveAuthority_carried _ _ _)
  | authorityClaim l => exact .next h (.take fun p => claimAction_carried l p _)
  | linkConfig l => exact .next h (.take fun p => linkConfigAction_carried p _)
  | seatBind l => exact .next h (.take fun p => seatBindAction_carried p _)
  | seatUnbind l => exact .next h (.take fun p => seatUnbindAction_carried p _)
  | seatEnable l => exact .next h (.take fun p => seatEnableAction_carried p _)
  | seatLabel l => exact .next h (.take fun p => seatLabelAction_carried p _)
  | seatRead l => exact .next h (.take fun p => .ofEq (seatReadAction_fst p _))
  | marksClear l => exact .next h (.take fun p => marksClearAction_carried p _)
  | listInsert l => exact .next h (.take fun p => .ofFloor (listInsertAction_frame p _))
  | listRemove l => exact .next h (.take fun p => .ofFloor (listRemoveAction_frame p _))
  | listMove l => exact .next h (.take fun p => .ofFloor (listMoveAction_frame p _))
  | listClear l => exact .next h (.take fun p => .ofFloor (listClearAction_frame p _))
  | listShuffle l => exact .next h (.take fun p => .ofFloor (listShuffleAction_frame p _))
  | listGate l => exact .next h (.take fun p => .ofFloor (listGateAction_frame p _))
  | listRead l => exact .next h (.take fun p => .ofEq (listReadAction_fst p _))
  | intakeHold l => exact .next h (.take fun p => .ofFloor (intakeHoldAction_frame p _))
  | seed l => exact .next h (.take fun p => .ofFloor (seedAction_frame p _))
  | floorOpen l => exact .next h (.take fun p => .ofFloor (floorOpenAction_frame p _))
  | floorHalt l => exact .next h (.take fun p => .ofFloor (floorHaltAction_frame p _))
  | floorClear l => exact .next h (.take fun p => .ofFloor (floorClearAction_frame p _))
  | grantNext l => exact .next h (.take fun p => .ofFloor (grantAction_frame p _))
  | grantSeat l => exact .next h (.take fun p => .ofFloor (grantAction_frame p _))
  | closeSeat l => exact .next h (.take fun p => .ofFloor (closeAction_frame p _))
  | closeAll l => exact .next h (.take fun p => .ofFloor (closeAction_frame p _))
  | floorRead l => exact .next h (.take fun p => .refl _)
  | policySet l => exact .next h (.take fun p => .ofFloor (policySetAction_frame p _))
  | policyRead l => exact .next h (.take fun p => .refl _)
  | extend l => exact .next h (.take fun p => .ofFloor (extendAction_frame p _))
  | replyRead l => exact .next h (.take fun p => .refl _)
  | replyRemove l => exact .next h (.take fun p => .ofFloor (replyRemoveAction_frame p _))
  | replyEnd l => exact .next h (.take fun p => .ofFloor (replyEndAction_frame p _))
  | suspend l => exact .next h (.take fun p => .ofFloor (suspendAction_frame l p _))
  | resume l => exact .next h (.take fun p => .ofFloor (resumeAction_frame p _))
  | stackRead l => exact .next h (.take fun p => .ofEq (stackReadAction_fst p _))
  | timeSet l => exact .next h (.take fun p => timeSetAction_carried p _)
  | timeRead l => exact .next h (.take fun p => .refl _)
  | timebaseMode l => exact .next h (.take fun p => timebaseModeAction_carried p _)
  | alarmSet l => exact .next h (.take fun p => alarmSetAction_carried p _)
  | alarmClear l => exact .next h (.take fun p => alarmClearAction_carried p _)
  | trunkEnable l => exact .next h (.take fun p => trunkControlAction_carried p _)
  | trunkEnumerate l => exact .next h (.take fun p => trunkControlAction_carried p _)
  | trunkDisable l => exact .next h (.take fun p => trunkControlAction_carried p _)
  | trunkConfig l => exact .next h (.take fun p => trunkConfigAction_carried p _)
  | trunkRead l => exact .next h (.take fun p => trunkReadAction_carried p _)
  | countsClear l => exact .next h (.take fun p => countsClearAction_carried p _)
  | takeEvents l => exact .next h (.take fun p => takeEventsAction_carried l p _)
  | takeNotices l => exact .next h (.take fun p => takeNoticesAction_carried l p _)
  | attnMask l => exact .next h (.take fun p => attnMaskAction_carried l p _)
  | noticeFilter l => exact .next h (.take fun p => noticeFilterAction_carried l p _)
  | linesSet l => exact .next h (.take fun p => linesSetAction_carried p _)
  | deviceReset =>
    exact .next h (s.deviceReset_kept.trans (.ofCarried (.ofRest rfl rfl rfl (fun _ => rfl) fun _ => rfl)))
  | resetRelease b1 b0 m =>
    refine .next h ?_
    split
    · exact .ofCarried (.ofRest rfl rfl rfl (fun l => by cases l <;> rfl) fun l => by cases l <;> rfl)
    · exact .refl s
  | holdInputChange high => exact .next h (.ofCarried (.ofRest rfl rfl rfl (fun _ => rfl) fun _ => rfl))
  | internalTick =>
    refine .next h ?_
    split
    · exact .ofCarried ((State.Carried.reachMoment s _).trans (State.tick_carried _ _))
    · exact .refl s
  | trefPulse m =>
    refine .next h ?_
    split
    · exact .refl s
    · exact .ofCarried (s.pulse_carried m)
  | fallbackTick =>
    refine .next h ?_
    split
    · exact .ofCarried ((State.Carried.reachMoment s _).trans (State.fallback_carried _ _ _ _))
    · exact .refl s
  | intake => exact .ofCarried (intake_carried h)
  | deadlinePass => exact .ofCarried (deadlinePass_carried h)
  | displacementCheck => exact .ofCarried (displacementCheck_carried h)
  | refusalEnd => exact .ofCarried (refusalEnd_carried h)
  | alarmCheck => exact .ofCarried (alarmCheck_carried h)
  | beat =>
    refine .next h ?_
    split
    · exact .ofCarried ((s.due_carried _).trans (State.countBeat_carried _))
    · exact .refl s
  | silenceMeasure =>
    refine .next h ?_
    split
    · exact .ofCarried ((s.due_carried _).trans (State.measureSilence_carried _))
    · exact .refl s
  | linkByte l b m =>
    refine .next h ?_
    split
    · exact .refl s
    · exact s.receiveByte_kept l b m
  | linkFrameComplete l b m =>
    refine .next h ?_
    split
    · exact s.receiveByte_kept l b m
    · exact .refl s
  | lenReject l b m =>
    refine .next h ?_
    split
    · exact s.receiveByte_kept l b m
    · exact .refl s
  | linkFrameTimeout l => exact linkFrameTimeout_kept l h
  | replySent l => exact replySent_kept l h
  | rejectSent l => exact rejectSent_kept l h
  | tallyReceived tr bytes m => exact .ofCarried (tallyReceived_carried tr bytes m h)
  | tallyWaitExpiry tr => exact .ofCarried (tallyWaitExpiry_carried tr h)
  | probe tr => exact .ofCarried (probe_carried tr h)
  | probeAnswer tr bytes m => exact .ofCarried (probeAnswer_carried tr bytes m h)
  | sweepStart tr => exact .ofCarried (sweepStart_carried tr h)
  | sweepPoll tr => exact .ofCarried (sweepPoll_carried tr h)
  | sendBeat tr => exact .ofCarried (sendBeat_carried tr h)
  | servePending tr => exact .ofCarried (servePending_carried tr h)
  | statusAnswer tr bytes m => exact .ofCarried (statusAnswer_carried tr bytes m h)
  | answerFault tr bytes m => exact .ofCarried (answerFault_carried tr bytes m h)
  | answerWaitExpiry tr => exact .ofCarried (answerWaitExpiry_carried tr h)

/-- Every step keeps the capacities and the position map: the queue concerns none of them. -/
theorem step_kept {s t : State} (h : step s = .next t) : s.Kept t := by
  unfold step at h
  split at h
  · exact .next h (.refl s)
  · rename_i rest _
    have unqueued : s.Kept { s with pending := rest } := .ofCarried (.ofRest rfl rfl rfl (fun _ => rfl) fun _ => rfl)
    exact unqueued.trans (exec_kept _ h)

/-- Settles O56: every row keeps the capacity of the notice queues. -/
theorem stepKeepsReports : Obligations.StepKeepsReports := fun _ _ w h => (step_kept h).reports w

/-- Settles O57: every row keeps the laws of the ports. -/
theorem stepKeepsPorts : Obligations.StepKeepsPorts := fun _ _ w h => (step_kept h).ports w

/-- Settles O58: every row keeps the capacities of the engines, and the law of the position map. -/
theorem stepKeepsTrunks : Obligations.StepKeepsTrunks :=
  ⟨fun _ _ w h => (step_kept h).trunks w, fun _ _ w h => (step_kept h).bindings w⟩

/-- Settles O55: every row's meaning answers a next state, whatever it finds (logs 2 and 26). -/
theorem everyEventNext : Obligations.EveryEventNext := by
  intro i s
  cases i <;> exact ⟨_, rfl⟩

end Sys2Proof.Machine
end

section
/-! SUPPORT. The queue, the device reset, the pins and the Time Base: what their events and commands leave (R29, R121 to R133, R173). -/

namespace Sys2Proof.Machine

/-! ### A set of flags (R174) -/

/-- A flag's set holds its own bit. -/
theorem EventFlag.getLsbD_set_bit (e : EventFlag) : e.set.getLsbD e.bit = true := by cases e <;> rfl

/-- A raised flag is in the set of both links. -/
theorem State.flagged_raise (s : State) (l : Link) (e : EventFlag) : (s.raise e).flagged l e := by
  cases l <;> simp [State.flagged, State.reportOf, LinkReport.raise, EventFlag.getLsbD_set_bit]

/-- A flag stays in a set of flags that has grown. -/
theorem LinkReport.Grown.flag {r q : LinkReport} (h : r.Grown q) {i : Nat} (hi : r.flags.getLsbD i = true) :
    q.flags.getLsbD i = true := by
  have both : (q.flags &&& r.flags).getLsbD i = true := by rw [h.flags]; exact hi
  rw [BitVec.getLsbD_and, Bool.and_eq_true] at both
  exact both.1

/-- What is flagged stays flagged while the reports grow. -/
theorem State.flagged_of_grown {s t : State} (h : s.report.Grown t.report) {l : Link} {e : EventFlag} (hf : s.flagged l e) :
    t.flagged l e := by
  cases l with
  | a => exact h.linkA.flag hf
  | b => exact h.linkB.flag hf

/-- Flags lie in the Report Unit alone. -/
theorem State.flagged_congr {s t : State} (h : t.report = s.report) (l : Link) (e : EventFlag) :
    t.flagged l e ↔ s.flagged l e := by
  cases l <;> simp [State.flagged, State.reportOf, h]

/-- A notice keeps the flags. -/
theorem State.flagged_notify {s : State} {l : Link} {e : EventFlag} (h : s.flagged l e) (n : Notice) :
    (s.notify n).flagged l e :=
  flagged_of_grown (Claim.notify_frame (c := .start s) (.refl s) n).report h

/-- A raised flag is in the set, also behind the notice that goes with it. -/
theorem State.flagged_raise_notify (s : State) (l : Link) (e : EventFlag) (n : Notice) : ((s.raise e).notify n).flagged l e :=
  flagged_notify (flagged_raise s l e) n

/-! ### Codes beyond a row (11.3) -/

/-- A code beyond its row names nothing. -/
theorem ofCode_beyond {α : Type} {row : List α} {v : Nat} (h : row.length ≤ v) : ofCode row v = none := List.getElem?_eq_none h

/-! ### The queue, reset and pins -/

/-- Settles O1, by the definition of a step. -/
theorem stepRunsFront : Obligations.StepRunsFront := by
  unfold Obligations.StepRunsFront
  intro i rest s h
  rw [step, h]

/-- Every seat has its initial record at reset. -/
theorem State.reset_seat (n : Nat) : State.reset.seat n = SeatRecord.initial := by
  unfold State.seat
  split
  · exact Vector.getElem_replicate _
  · rfl

/-- Every trunk has its initial engine at reset. -/
theorem State.reset_trunk (t : TrunkNo) : State.reset.trunk t = TrunkEngine.initial := Vector.getElem_replicate _

/-- No delegate slot is open at reset. -/
theorem Floor.initial_slot (i : Fin 6) : Floor.initial.slots[i] = none := Vector.getElem_replicate _

/-- No chair slot is open at reset. -/
theorem Floor.initial_chair (i : Fin 2) : Floor.initial.chairs[i] = none := Vector.getElem_replicate _

/-- Every alarm is disarmed at reset. -/
theorem TimeBase.initial_alarm (m : Nat) (i : Fin 3) : (TimeBase.initial m).alarms[i] = ⟨false, 0, .none⟩ :=
  Vector.getElem_replicate _

/-- Every position of an engine has its initial state at reset. -/
theorem TrunkEngine.initial_station (p : Nat) : TrunkEngine.initial.station p = ⟨false, 0, false⟩ := by
  unfold TrunkEngine.station
  split
  · exact Vector.getElem_replicate _
  · rfl

/-- Settles O2: the reset state is the values of its definition. -/
theorem resetState : Obligations.ResetState := by
  unfold Obligations.ResetState
  refine ⟨State.reset_seat, ⟨rfl, rfl, Floor.initial_slot, Floor.initial_chair, rfl, rfl, rfl, rfl, rfl, rfl, rfl⟩, rfl,
    ⟨rfl, rfl, rfl, rfl, rfl, rfl, rfl, TimeBase.initial_alarm 0⟩, fun t => ?_, fun l => ?_, ⟨rfl, rfl, rfl⟩, fun l => ?_, rfl, rfl⟩
  · rw [State.reset_trunk]
    exact ⟨rfl, rfl, rfl, rfl, rfl, rfl, rfl, rfl, rfl, rfl, rfl, rfl, rfl, TrunkEngine.initial_station⟩
  · cases l <;> exact ⟨rfl, rfl, rfl, rfl⟩
  · cases l <;> exact ⟨rfl, rfl, rfl, rfl⟩

/-- Settles O3: with RSTN low every line is released. -/
theorem deviceReset : Obligations.DeviceReset := by
  unfold Obligations.DeviceReset
  refine ⟨fun s => ⟨_, rfl, rfl, rfl, rfl, rfl, rfl, rfl, rfl, fun l => ?_, fun x => ?_⟩, fun b1 b0 m s h => ⟨_, rfl, ?_⟩⟩
  · simp [State.attention]
  · simp [State.statLevel]
  · rw [if_pos h]
    exact ⟨rfl, rfl, rfl, rfl, rfl, rfl, rfl⟩

/-- A hold state's code names it. -/
theorem ofCode_holdRow {v : Nat} {h : Hold} (e : v = if h = .held then 1 else 0) : ofCode holdRow v = some h := by
  subst e
  cases h <;> rfl

/-- Settles O4: the checks of each action in their order. -/
theorem holdAndSeed : Obligations.HoldAndSeed := by
  unfold Obligations.HoldAndSeed
  refine ⟨fun h s => rfl, fun s l c hc => ⟨fun beyond => ?_, fun h value => ⟨fun same => ?_, fun other => ?_⟩⟩,
    fun s l c hc => ⟨fun zero => ?_, fun nonzero => ?_⟩⟩
  · have row : ofCode holdRow (u8 c.payload 0) = none := ofCode_beyond beyond
    simp only [exec, execIntakeHold, hc.acts, intakeHoldAction, row, refuseWith]
  · simp only [exec, execIntakeHold, hc.acts, intakeHoldAction, ofCode_holdRow value, if_pos same, refuseWith]
  · simp only [exec, execIntakeHold, hc.acts, intakeHoldAction, ofCode_holdRow value, if_neg other, State.modFloor]
  · simp only [exec, execSeed, hc.acts, seedAction, if_pos zero, refuseWith]
  · simp only [exec, execSeed, hc.acts, seedAction, if_neg nonzero, State.modFloor]

/-! ### The invariants at reset -/

/-- No delegate slot is open on the floor of reset. -/
theorem Floor.initial_openSlots : Floor.initial.openSlots = [] := by
  simp [Floor.openSlots, Floor.initial]

/-- No chair slot is open on the floor of reset. -/
theorem Floor.initial_openChairs : Floor.initial.openChairs = [] := by
  simp [Floor.openChairs, Floor.initial]

/-- No seat is found on the floor of reset. -/
theorem Floor.initial_seatsFound : Floor.initial.seatsFound = [] := by
  unfold Floor.seatsFound
  rw [Floor.initial_openSlots, Floor.initial_openChairs]
  rfl

/-- No seat is found among the delegates on the floor of reset. -/
theorem Floor.initial_delegatesFound : Floor.initial.delegatesFound = [] := by
  unfold Floor.delegatesFound
  rw [Floor.initial_openSlots]
  rfl

/-- The policy of reset lies in its ranges (R68). -/
theorem Policy.initial_wf : Policy.initial.wf := by
  constructor <;> decide

/-- The laws of the floor hold at reset. -/
theorem State.reset_floorLaws : State.reset.FloorLaws where
  once := by simp [State.reset, Floor.initial_seatsFound]
  requests := Nat.zero_le _
  replies := Nat.zero_le _
  entries := by simp [State.reset, Floor.initial]
  shut := fun _ => ⟨rfl, rfl⟩
  bare := by simp [State.reset, Floor.initial]
  held := by simp [State.reset, Floor.initial]
  replySlot := by
    constructor <;> simp [State.reset, Floor.initial_openSlots]
    all_goals simp [Floor.initial]
  priority := by
    constructor <;> simp [State.reset, Floor.initial_openChairs]
    all_goals simp [Floor.initial]
  targets := by constructor <;> simp [State.reset, Floor.initial]
  delegates := by simp [State.reset, Floor.initial_delegatesFound]
  chairs := by simp [State.reset, Floor.initial_openChairs]
  policy := Policy.initial_wf

/-- No seat is bound at reset, and every image is SHUT and OFF. -/
theorem State.reset_imageLaw : State.reset.ImageLaw := by
  constructor <;> simp [State.reset_seat, SeatRecord.initial]

/-- Settles O60, by the values of reset. -/
theorem invariantsAtReset : Obligations.InvariantsAtReset := by
  unfold Obligations.InvariantsAtReset
  refine ⟨⟨Nat.zero_le _, Nat.zero_le _⟩, ⟨LinkPort.initial_wf, LinkPort.initial_wf⟩, fun t => ?_,
    ⟨Nat.zero_le _, by simp [State.reset, Floor.initial], trivial⟩, ?_, ⟨?_, ?_⟩, State.reset_floorLaws, State.reset_imageLaw⟩
  · rw [State.reset_trunk]
    exact TrunkEngine.initial_wf
  · simp [Floor.drawWf, State.reset, Floor.initial]
  · simp [State.reset_seat, SeatRecord.initial]
  · simp [State.reset_seat, SeatRecord.initial]

/-! ### The Time Base -/

/-- Settles O5, by the definitions of the tick. -/
theorem internalTick : Obligations.InternalTick := by
  unfold Obligations.InternalTick
  intro s high source
  have runs : !s.pins.rstnLow ∧ s.timeBase.source ≠ .external := ⟨by simp [high], source⟩
  simp only [exec, execInternalTick, if_pos runs]
  rfl

/-- A pulse in INTERNAL or QUALIFYING is taken at its own moment, as no fallback can be due. -/
theorem State.pulse_of_notExternal {s : State} (m : Nat) (h : s.timeBase.source ≠ .external) :
    s.pulse m = (s.reachMoment m).takePulse := by
  unfold State.pulse
  exact if_neg fun due => h due.1

/-- The internal timer reaches a moment that lies ahead. -/
theorem State.reachMoment_ahead {s : State} {m : Nat} (h : s.now ≤ m) : s.reachMoment m = { s with now := m } := by
  unfold State.reachMoment
  rw [Nat.max_eq_right h]

/-- A pulse no later than the fallback tick is taken at its own moment. -/
theorem State.pulse_of_within {s : State} {m : Nat} (ahead : s.now ≤ m) (h : m ≤ s.timeBase.lastTick + 150000) :
    s.pulse m = ({ s with now := m } : State).takePulse := by
  unfold State.pulse
  rw [State.reachMoment_ahead ahead]
  exact if_neg fun due => absurd due.2 (Nat.not_lt.2 h)

/-- A TREF pulse while RSTN is high. -/
theorem exec_trefPulse {s : State} (m : Nat) (h : s.pins.rstnLow = false) : exec (.trefPulse m) s = .next (s.pulse m) := by
  simp [exec, execTrefPulse, h]

/-- A change of source concerns the Time Base and the reports. -/
theorem State.setSource_rest (s : State) (src : TickSource) (count : Nat) : s.setSource src count =
    { s with timeBase := (s.setSource src count).timeBase, report := (s.setSource src count).report } := by
  unfold State.setSource
  dsimp only
  split <;> rfl

/-- A change of source leaves the advances due. -/
@[simp] theorem State.setSource_due (s : State) (src : TickSource) (count : Nat) : (s.setSource src count).due = s.due := by
  rw [State.setSource_rest]

/-- A change of source is flagged, and changes the source and the count alone of the Time Base. -/
theorem State.setSource_changes (s : State) {src : TickSource} (count : Nat) (h : s.timeBase.source ≠ src) :
    (s.setSource src count).timeBase = { s.timeBase with source := src, count := count } ∧
      ∀ l, (s.setSource src count).flagged l .timebase := by
  unfold State.setSource
  dsimp only
  rw [if_neg h]
  exact ⟨rfl, fun l => flagged_raise_notify _ l _ _⟩

/-- A source that stays is told by nothing. -/
theorem State.setSource_same (s : State) {src : TickSource} (count : Nat) (h : s.timeBase.source = src) :
    s.setSource src count = s.modTime fun t => { t with source := src, count := count } := by
  unfold State.setSource
  exact if_pos h

/-- A change of source with a tick tells the change, and ticks, in either order. -/
theorem State.tickWithSource_changes (s : State) (m : Nat) {src : TickSource} (count : Nat) (h : s.timeBase.source ≠ src) :
    (s.tickWithSource m src count).timeBase =
        { s.timeBase with chamberTime := s.timeBase.chamberTime + 1, source := src, count := count, lastTick := m } ∧
      (s.tickWithSource m src count).due = s.due.add ∧ ∀ l, (s.tickWithSource m src count).flagged l .timebase := by
  unfold State.tickWithSource
  dsimp only
  split
  · obtain ⟨time, flag⟩ := State.setSource_changes { s with freeDraws := s.freeDraws + 1 } count h
    exact ⟨by simp only [State.tick, time], by simp [State.tick], fun l => flag l⟩
  · obtain ⟨time, flag⟩ := State.setSource_changes (State.tick { s with freeDraws := s.freeDraws + 1 } m) count h
    exact ⟨time, by simp [State.tick], flag⟩


/-- A pulse counted on a change of source. -/
theorem State.countPulse_changes (s : State) (m : Nat) {src : TickSource} (count : Nat) (h : s.timeBase.source ≠ src) :
    (s.countPulse m src count).timeBase = { s.timeBase with source := src, count := count, lastPulse := some m } ∧
      (s.countPulse m src count).due = s.due ∧ ∀ l, (s.countPulse m src count).flagged l .timebase := by
  obtain ⟨time, flag⟩ := State.setSource_changes s count h
  exact ⟨by simp only [State.countPulse, State.modTime_timeBase, time], by simp [State.countPulse], flag⟩

/-- A pulse counted while the source stays. -/
theorem State.countPulse_same (s : State) (m : Nat) {src : TickSource} (count : Nat) (h : s.timeBase.source = src) :
    s.countPulse m src count = { s with timeBase := { s.timeBase with count := count, lastPulse := some m } } := by
  subst h
  unfold State.countPulse
  rw [State.setSource_same s count rfl]
  rfl

/-- The interval of a pulse qualifies (R124). -/
def State.goodPulse (s : State) (m : Nat) : Prop :=
  ∃ p, s.timeBase.lastPulse = some p ∧ p + 95000 ≤ m ∧ m ≤ p + 105000

/-- The check of a pulse's interval in QUALIFYING. -/
theorem State.goodPulse_iff (s : State) (m : Nat) :
    s.timeBase.lastPulse.any (fun p => p + Config.pulseLow ≤ m ∧ m ≤ p + Config.pulseHigh) = true ↔ s.goodPulse m := by
  cases h : s.timeBase.lastPulse <;> simp [State.goodPulse, h, Config.pulseLow, Config.pulseHigh, Config.ms]

/-- A bad interval starts the count again. -/
theorem State.qualifyingPulse_bad {s : State} {m : Nat} (h : ¬ s.goodPulse m) :
    s.qualifyingPulse m = s.countPulse m .qualifying 1 := by
  unfold State.qualifyingPulse
  dsimp only
  refine if_pos ?_
  rw [Bool.eq_false_iff.2 (mt (s.goodPulse_iff m).1 h)]
  rfl

/-- A good interval before the twentieth pulse counts. -/
theorem State.qualifyingPulse_counts {s : State} {m : Nat} (h : s.goodPulse m) (hc : s.timeBase.count < 19) :
    s.qualifyingPulse m = s.countPulse m .qualifying (s.timeBase.count + 1) := by
  unfold State.qualifyingPulse
  dsimp only
  rw [(s.goodPulse_iff m).2 h]
  exact if_pos (show s.timeBase.count + 1 < 20 by omega)

/-- The twentieth good pulse takes the source, with a tick where the last one is far enough back. -/
theorem State.qualifyingPulse_joins {s : State} {m : Nat} (h : s.goodPulse m) (hc : s.timeBase.count = 19) :
    s.qualifyingPulse m =
      if s.timeBase.lastTick + 45000 ≤ m then
        (s.modTime fun t => { t with lastPulse := some m }).tickWithSource m .external 20
      else (s.modTime fun t => { t with lastPulse := some m }).setSource .external 20 := by
  unfold State.qualifyingPulse
  dsimp only
  rw [(s.goodPulse_iff m).2 h]
  exact if_neg (show ¬ s.timeBase.count + 1 < 20 by omega)

/-- Settles O6, by the source state and the interval of the pulse. -/
theorem trefQualifies : Obligations.TrefQualifies := by
  unfold Obligations.TrefQualifies
  intro m s high ahead
  have taken : s.timeBase.source ≠ .external → exec (.trefPulse m) s = .next ({ s with now := m } : State).takePulse := by
    intro h
    rw [exec_trefPulse m high, State.pulse_of_notExternal m h, State.reachMoment_ahead ahead]
  refine ⟨fun source mode => ?_, fun source mode => ⟨_, taken (by simp [source]), ?_⟩, fun source => ?_⟩
  · rw [taken (by simp [source])]
    simp [State.takePulse, source, mode]
  · have counts : ({ s with now := m } : State).takePulse = State.countPulse { s with now := m } m .qualifying 1 := by
      simp [State.takePulse, source, mode]
    rw [counts]
    exact State.countPulse_changes { s with now := m } m 1 (by simp [source])
  · have qualifies : exec (.trefPulse m) s = .next (State.qualifyingPulse { s with now := m } m) := by
      rw [taken (by simp [source])]
      simp [State.takePulse, source]
    rw [qualifies]
    refine ⟨fun bad => ?_, fun p last low up => ?_⟩
    · rw [State.qualifyingPulse_bad (s := { s with now := m }) bad, State.countPulse_same { s with now := m } m 1 source]
    · have good : ({ s with now := m } : State).goodPulse m := ⟨p, last, low, up⟩
      refine ⟨fun few => ?_, fun all late => ⟨_, rfl, ?_⟩, fun all early => ⟨_, rfl, ?_⟩⟩
      · rw [State.qualifyingPulse_counts good few, State.countPulse_same { s with now := m } m _ source]
      · rw [State.qualifyingPulse_joins good all, if_pos late]
        exact State.tickWithSource_changes _ m 20 (by simp [source])
      · rw [State.qualifyingPulse_joins good all, if_neg (Nat.not_le.2 early)]
        obtain ⟨time, flag⟩ := State.setSource_changes
          (({ s with now := m } : State).modTime fun t => { t with lastPulse := some m }) (src := .external) 20 (by simp [source])
        exact ⟨time, by simp, flag⟩

/-- Settles O7, by the moment of the pulse against the last tick. -/
theorem trefExternal : Obligations.TrefExternal := by
  unfold Obligations.TrefExternal
  intro s high source
  have fallback : exec .fallbackTick s = .next (State.tickWithSource (s.reachMoment (s.timeBase.lastTick + 150000))
      (max s.now (s.timeBase.lastTick + 150000)) .internal 0) := by
    simp [exec, execFallbackTick, high, source, State.fallback, Config.fallbackSpan, Config.ms]
  refine ⟨fun m ahead within => ?_, _, fallback, State.tickWithSource_changes _ _ 0 (by simp [source])⟩
  have taken : exec (.trefPulse m) s = .next (State.externalPulse { s with now := m } m) := by
    rw [exec_trefPulse m high, State.pulse_of_within ahead within]
    simp only [State.takePulse, source]
  rw [taken]
  refine ⟨fun late => ?_, fun early => ⟨_, rfl, ?_⟩⟩
  · exact congrArg _ (if_pos late)
  · have drops : State.externalPulse { s with now := m } m = State.setSource { s with now := m } .internal 0 :=
      if_neg (Nat.not_le.2 early)
    obtain ⟨time, flag⟩ := State.setSource_changes ({ s with now := m } : State) (src := .internal) 0 (by simp [source])
    rw [drops]
    exact ⟨time, by simp, flag⟩

/-- A trunk after a beat: a RUNNING one is handed the phase. -/
theorem State.issueBeat_trunk (s : State) (i : TrunkNo) : s.issueBeat.trunk i =
    if (s.trunk i).state = .running then { s.trunk i with waitingBeat := some (s.timeBase.beatPhase + 1) } else s.trunk i :=
  Vector.getElem_map _ _

/-- Settles O8, by whether the count is at its fifth beat. -/
theorem beatCount : Obligations.BeatCount := by
  unfold Obligations.BeatCount
  intro k s due
  have runs : exec .beat s = .next (State.countBeat { s with due := { s.due with beat := k } }) := by
    simp [exec, execBeat, due]
  rw [runs]
  refine ⟨fun more => ?_, fun fifth => ⟨_, rfl, ?_⟩⟩
  · exact congrArg _ (if_neg more)
  · have issues : State.countBeat { s with due := { s.due with beat := k } } =
        State.issueBeat { s with due := { s.due with beat := k } } := if_pos fifth
    rw [issues]
    refine ⟨rfl, rfl, fun i running => ?_, fun i idle => ?_, rfl, rfl, rfl, rfl⟩
    · rw [State.issueBeat_trunk]
      exact if_pos running
    · rw [State.issueBeat_trunk]
      exact if_neg idle

/-- A time base mode's code names it. -/
theorem ofCode_timeModeRow {v : Nat} {m : TimeMode} (e : v = if m = .auto then 1 else 0) : ofCode timeModeRow v = some m := by
  subst e
  cases m <;> rfl

/-- TIMEBASE MODE with the code of the other mode. -/
theorem timebaseModeAction_other {p : List Byte} {s : State} {m : TimeMode} (hc : ofCode timeModeRow (u8 p 0) = some m)
    (hm : m ≠ s.timeBase.mode) : timebaseModeAction p s =
      let s1 := s.modTime fun t => { t with mode := m }
      let s2 := if m = .internal ∧ s.timeBase.source ≠ .internal then s1.setSource .internal 0 else s1
      (s2, .of .done [codeIn sourceRow s2.timeBase.source]) := by
  simp only [timebaseModeAction, hc, if_neg hm]

/-- Settles O11: the checks of the action in their order, then the mode and the source. -/
theorem timebaseMode : Obligations.TimebaseMode := by
  unfold Obligations.TimebaseMode
  intro s l c hc
  have acts : exec (.timebaseMode l) s =
      .next ((timebaseModeAction c.payload s).1.answer l c (timebaseModeAction c.payload s).2) :=
    congrArg _ (hc.acts timebaseModeAction)
  rw [acts]
  refine ⟨fun beyond => ?_, fun m value same => ?_, fun value mode => ?_, fun value mode source => ?_,
    fun value mode source => ?_⟩
  · have row : ofCode timeModeRow (u8 c.payload 0) = none := ofCode_beyond beyond
    simp only [timebaseModeAction, row, refuseWith]
  · simp only [timebaseModeAction, ofCode_timeModeRow value, if_pos same]
  · rw [timebaseModeAction_other (m := .auto) (ofCode_timeModeRow value) (by simp [mode])]
    simp [State.modTime]
  · rw [timebaseModeAction_other (m := .internal) (ofCode_timeModeRow value) (by simp [mode])]
    simp [State.modTime, source, codeIn, sourceRow, be8]
  · rw [timebaseModeAction_other (m := .internal) (ofCode_timeModeRow value) (by simp [mode])]
    have moved := State.setSource_changes (s.modTime fun t => { t with mode := .internal }) (src := .internal) 0 source
    obtain ⟨time, flag⟩ := moved
    refine ⟨(s.modTime fun t => { t with mode := .internal }).setSource .internal 0, ?_, time, flag, ?_⟩
    · simp only [if_pos (And.intro trivial source), time]
      rfl
    · have rest := State.setSource_rest (s.modTime fun t => { t with mode := .internal }) .internal 0
      rw [rest]
      exact ⟨rfl, rfl, rfl, rfl⟩

end Sys2Proof.Machine
end

section
/-! SUPPORT. The Link Ports and the Report Unit: receiving and sending frames, the checks before a command, authority, and the
report commands (R159 to R183). -/

namespace Sys2Proof.Machine

/-! ### Reception (R160, R161) -/

/-- Two changes of a port are one. -/
theorem State.modPort_modPort (s : State) (l : Link) (f g : LinkPort → LinkPort) :
    (s.modPort l f).modPort l g = s.modPort l fun p => g (f p) := by
  cases l <;> rfl

/-- Two changes of a port that agree on it leave the same state. -/
theorem State.modPort_congr {s : State} {l : Link} {f g : LinkPort → LinkPort} (h : f (s.port l) = g (s.port l)) :
    s.modPort l f = s.modPort l g := by
  cases l with
  | a => exact congrArg (fun p => ({ s with ports := { s.ports with portA := p } } : State)) h
  | b => exact congrArg (fun p => ({ s with ports := { s.ports with portB := p } } : State)) h

/-- A port changed to itself. -/
theorem State.modPort_id {s : State} {l : Link} {f : LinkPort → LinkPort} (h : f (s.port l) = s.port l) : s.modPort l f = s := by
  rw [State.modPort_congr (g := fun p => p) h]
  cases l <;> rfl

/-- A port is not silent in HUNT. -/
theorem LinkPort.silent_hunt {p : LinkPort} (m : Nat) (h : p.buffer = []) : p.silent m = false := by simp [LinkPort.silent, h]

/-- A port is not silent within 20 ms of its last byte. -/
theorem LinkPort.silent_within {p : LinkPort} {m : Nat} (h : m ≤ p.lastByteAt + 20000) : p.silent m = false := by
  simp only [LinkPort.silent, decide_eq_false_iff_not]
  exact fun silent => absurd silent.2 (Nat.not_lt.2 h)

/-- A byte on a port that is not silent: the receiver acts on the buffer as it stands. -/
theorem State.receiveByte_quiet {s : State} {l : Link} (b : Byte) {m : Nat} (ahead : s.now ≤ m) (h : (s.port l).silent m = false) :
    s.receiveByte l b m =
      let s1 := ({ s with now := m } : State).modPort l fun p => { p with lastByteAt := m }
      if (s.port l).buffer = [] then if b = sync then s1.modPort l fun p => { p with buffer := [sync] } else s1
      else if (s.port l).awaitsLen ∧ badLen b then s1.modPort l fun p => (p.reject 0 .length).endFrame
      else if (s.port l).completesWith then s1.completeFrame l ((s.port l).buffer ++ [b])
      else s1.modPort l fun p => { p with buffer := p.buffer ++ [b] } := by
  have port : ({ s with now := m } : State).port l = s.port l := by cases l <;> rfl
  have settled : ({ s with now := m } : State).settleSilence l = { s with now := m } := by
    refine State.modPort_id (s := { s with now := m }) ?_
    rw [port]
    exact if_neg (by simp [h])
  unfold State.receiveByte
  rw [State.reachMoment_ahead ahead, settled]
  dsimp only
  rw [port]

/-- A byte while RSTN is high. -/
theorem exec_linkByte {s : State} (l : Link) (b : Byte) (m : Nat) (h : s.pins.rstnLow = false) :
    exec (.linkByte l b m) s = .next (s.receiveByte l b m) := by
  simp [exec, execLinkByte, h]

/-- Settles O14, by what the buffer holds. -/
theorem linkByte : Obligations.LinkByte := by
  unfold Obligations.LinkByte
  intro l b m s high ahead
  rw [exec_linkByte l b m high]
  refine ⟨fun hunt other => ?_, fun hunt sync => ?_, fun within => ⟨fun one low up => ?_, fun two more => ?_⟩⟩
  · rw [State.receiveByte_quiet b ahead (LinkPort.silent_hunt m hunt)]
    exact congrArg _ ((if_pos hunt).trans (if_neg other))
  · rw [State.receiveByte_quiet b ahead (LinkPort.silent_hunt m hunt)]
    simp [hunt, sync, State.modPort_modPort]
  · rw [State.receiveByte_quiet b ahead (LinkPort.silent_within within)]
    have inside : (s.port l).buffer ≠ [] := by rintro e; simp [e] at one
    have inRange : badLen b = false := by simp [badLen]; omega
    have notWhole : (s.port l).completesWith = false := by simp [LinkPort.completesWith, one]
    simp [inside, inRange, notWhole, State.modPort_modPort]
  · rw [State.receiveByte_quiet b ahead (LinkPort.silent_within within)]
    have inside : (s.port l).buffer ≠ [] := by rintro e; simp [e] at two
    have beyondLen : (s.port l).awaitsLen = false := by simp [LinkPort.awaitsLen]; omega
    have notWhole : (s.port l).completesWith = false := by simpa [LinkPort.completesWith] using fun _ => more
    simp [inside, beyondLen, notWhole, State.modPort_modPort]

/-- A frame whose check passes: the port's link is heard, which closes the takeover on the CONTROL link, and an IDLE port holds the
command that another rejects BUSY (R160, R163). -/
def LinkPort.takeFrame (p : LinkPort) (t : ChamberTime) (frame : List Byte) (now : Nat) : LinkPort :=
  let q := { p.endFrame with lastValid := t }
  if p.command = .idle then
    { q with command := .holding ⟨frame.getD 2 0, frame.getD 3 0, (frame.drop 4).take (u8 frame 1 - 2), now⟩ }
  else q.reject (frame.getD 3 0) .busy

/-- A frame whose check passes. -/
theorem State.completeFrame_passes {s : State} {l : Link} {frame : List Byte} (h : checkPasses frame.tail = true) :
    s.completeFrame l frame =
      { s with ports := { (s.modPort l fun p => p.takeFrame s.time frame s.now).ports with
        takeoverOpen := s.ports.takeoverOpen && !s.hasControl l } } := by
  unfold State.completeFrame
  dsimp only
  rw [if_pos h]
  cases hc : s.hasControl l <;> cases l <;>
    simp [State.modPort, LinkPort.takeFrame, LinkPort.endFrame]

/-- A frame whose check fails. -/
theorem State.completeFrame_fails {s : State} {l : Link} {frame : List Byte} (h : checkPasses frame.tail = false) :
    s.completeFrame l frame = s.modPort l fun p => (p.reject (frame.getD 3 0) .check).endFrame := by
  unfold State.completeFrame
  exact if_neg (by simp [h])

/-- The transmit queue after a REJECT. -/
theorem LinkPort.reject_eq (p : LinkPort) (tag : Byte) (r : RejectReason) : p.reject tag r =
    { p with transmit := if p.waitingRejects < 4 then p.transmit ++ [.reject (rejectFrame tag r)] else p.transmit } := by
  unfold LinkPort.reject
  split <;> simp_all

/-- What the completion of a frame leaves outside the ports. -/
theorem State.completeFrame_rest (s : State) (l : Link) (frame : List Byte) : s.completeFrame l frame =
    { s with ports := (s.completeFrame l frame).ports } := by
  cases h : checkPasses frame.tail with
  | true => rw [completeFrame_passes h]
  | false =>
    rw [completeFrame_fails h]
    cases l <;> rfl

/-- A change of a port concerns the ports alone. -/
theorem State.modPort_rest (s : State) (l : Link) (f : LinkPort → LinkPort) : s.modPort l f = { s with ports := (s.modPort l f).ports } := by
  cases l <;> rfl

/-- The part a frame leaves of its own port, when its check passes. -/
theorem LinkPort.takeFrame_eq (p : LinkPort) (t : ChamberTime) (frame : List Byte) (now : Nat) :
    (p.takeFrame t frame now).buffer = [] ∧ (p.takeFrame t frame now).lastByteAt = p.lastByteAt ∧
      (p.takeFrame t frame now).lastValid = t ∧
      (p.command = .idle → (p.takeFrame t frame now).transmit = p.transmit ∧ (p.takeFrame t frame now).command =
        .holding ⟨frame.getD 2 0, frame.getD 3 0, (frame.drop 4).take (u8 frame 1 - 2), now⟩) ∧
      (p.command ≠ .idle → (p.takeFrame t frame now).command = p.command ∧ (p.takeFrame t frame now).transmit =
        if p.waitingRejects < 4 then p.transmit ++ [.reject (rejectFrame (frame.getD 3 0) .busy)] else p.transmit) := by
  unfold LinkPort.takeFrame
  by_cases h : p.command = .idle
  · dsimp only
    rw [if_pos h]
    exact ⟨rfl, rfl, rfl, fun _ => ⟨rfl, rfl⟩, fun other => (other h).elim⟩
  · dsimp only
    rw [if_neg h, LinkPort.reject_eq]
    exact ⟨rfl, rfl, rfl, fun idle => (h idle).elim, fun _ => ⟨rfl, rfl⟩⟩

/-- A whole frame's byte, received within 20 ms: the frame is completed. -/
theorem State.receiveByte_completes {s : State} {l : Link} (b : Byte) {m : Nat} (ahead : s.now ≤ m)
    (within : m ≤ (s.port l).lastByteAt + 20000) (two : 2 ≤ (s.port l).buffer.length)
    (whole : (s.port l).buffer.length + 1 = u8 (s.port l).buffer 1 + 4) :
    s.receiveByte l b m =
      (({ s with now := m } : State).modPort l fun p => { p with lastByteAt := m }).completeFrame l ((s.port l).buffer ++ [b]) := by
  have inside : (s.port l).buffer ≠ [] := by rintro e; simp [e] at two
  have beyondLen : (s.port l).awaitsLen = false := by simp [LinkPort.awaitsLen]; omega
  have completes : (s.port l).completesWith = true := by simp [LinkPort.completesWith, two, whole]
  rw [State.receiveByte_quiet b ahead (LinkPort.silent_within within)]
  simp [inside, beyondLen, completes]

/-- The prefix of a frame keeps its LEN. -/
theorem u8_append {p q : List Byte} {i : Nat} (h : i < p.length) : u8 (p ++ q) i = u8 p i := by
  simp [u8, List.getD, List.getElem?_append_left h]

/-- Settles O15: the byte completes its frame, whose check decides. -/
theorem frameComplete : Obligations.FrameComplete := by
  unfold Obligations.FrameComplete
  intro l b m s high ahead within two whole
  have received := State.receiveByte_completes b ahead within two whole
  have rowTaken : exec (.linkFrameComplete l b m) s = .next (s.receiveByte l b m) := by
    have quiet : (s.port l).silent (max s.now m) = false := by
      rw [Nat.max_eq_right ahead]
      exact LinkPort.silent_within within
    have completes : (s.port l).completesWith = true := by simp [LinkPort.completesWith, two, whole]
    simp [exec, execLinkFrameComplete, high, quiet, completes]
  refine ⟨_, rowTaken, exec_linkByte l b m high, ?_⟩
  rw [received, ← u8_append (q := [b]) (show 1 < (s.port l).buffer.length from two)]
  generalize (s.port l).buffer ++ [b] = frame
  cases check : checkPasses frame.tail with
  | true =>
    rw [State.completeFrame_passes check]
    obtain ⟨buffer, at_, valid, idle, busy⟩ := LinkPort.takeFrame_eq { s.port l with lastByteAt := m } s.time frame m
    cases l <;>
      exact ⟨buffer, at_, rfl, rfl, rfl, rfl, rfl, rfl, rfl, rfl, fun _ => ⟨valid, rfl, idle, busy⟩, fun h => nomatch h⟩
  | false =>
    rw [State.completeFrame_fails check]
    cases l <;> simp only [LinkPort.reject_eq] <;>
      exact ⟨rfl, rfl, rfl, rfl, rfl, rfl, rfl, rfl, rfl, rfl, fun h => (nomatch h), fun _ => ⟨rfl, rfl, rfl, rfl⟩⟩

/-- Settles O16, by the byte and by the silence. -/
theorem frameRejects : Obligations.FrameRejects := by
  unfold Obligations.FrameRejects
  refine ⟨fun l b m s high ahead within one outside => ?_, fun l s inside => ?_⟩
  · have awaits : (s.port l).awaitsLen = true := by simp [LinkPort.awaitsLen, one]
    have bad : badLen b = true := by simpa [badLen] using outside
    have quiet := LinkPort.silent_within within
    have inside : (s.port l).buffer ≠ [] := by rintro e; simp [e] at one
    have rowTaken : exec (.lenReject l b m) s = .next (s.receiveByte l b m) := by
      simp [exec, execLenReject, high, awaits, bad, Nat.max_eq_right ahead, quiet]
    rw [rowTaken, State.receiveByte_quiet b ahead quiet]
    simp only [if_neg inside, if_pos (And.intro awaits bad), State.modPort_modPort, LinkPort.reject_eq, LinkPort.endFrame]
    rfl
  · have rowTaken : exec (.linkFrameTimeout l) s =
        .next ((s.reachMoment ((s.port l).lastByteAt + Config.silenceSpan + 1)).modPort l LinkPort.timeout) := by
      simp [exec, execLinkFrameTimeout, inside]
    rw [rowTaken]
    refine congrArg _ (State.modPort_congr ?_)
    rw [LinkPort.timeout, LinkPort.reject_eq]
    rfl

/-- Settles O17, by the frame at the head of the transmit queue. -/
theorem frameSent : Obligations.FrameSent := by
  unfold Obligations.FrameSent
  refine ⟨fun l bytes rest s head => ?_, fun l bytes rest s head => ⟨s.deviceReset, ?_, rfl, rfl, rfl, rfl, rfl, rfl, rfl⟩,
    fun l bytes rest s head => ?_⟩
  · simp [exec, execReplySent, head]
  · simp [exec, execReplySent, head]
  · simp [exec, execRejectSent, head]

/-- Settles O18: a reply concerns its port and the count of free values. -/
theorem replyFrame : Obligations.ReplyFrame := by
  unfold Obligations.ReplyFrame
  intro s l c r
  cases l <;> exact ⟨rfl, rfl, rfl, rfl, rfl, rfl, rfl, rfl, rfl, rfl, rfl, rfl, rfl, rfl⟩

/-! ### Taking a command (R165) -/

/-- Every row takes a command by the checks of R165 and acts on nothing else before them. -/
def CommandRow.actsBy (r : CommandRow) : Prop :=
  ∀ l : Link, ∃ action : Action, ∀ s : State, exec (r.row l) s = .next (s.take l r.takes r.needsControl r.lengths action)

/-- The rows of the commands take their commands so. -/
theorem commandRows_actsBy : ∀ r ∈ commandRows, r.actsBy := by
  simp only [commandRows, List.forall_mem_cons]
  refine ⟨?_, ?_, ?_, ?_, ?_, ?_, ?_, ?_, ?_, ?_, ?_, ?_, ?_, ?_, ?_, ?_, ?_, ?_, ?_, ?_, ?_, ?_, ?_, ?_, ?_, ?_, ?_, ?_, ?_, ?_,
    ?_, ?_, ?_, ?_, ?_, ?_, ?_, ?_, ?_, ?_, ?_, ?_, ?_, ?_, ?_, ?_, ?_, ?_, ?_, ?_, ?_, ?_, ?_, fun r h => nomatch h⟩
  all_goals exact fun l => ⟨_, fun s => rfl⟩

/-- Settles O19: each row takes its command by the checks, and a kind that names no row is BAD_KIND. -/
theorem commandChecks : Obligations.CommandChecks := by
  unfold Obligations.CommandChecks
  refine ⟨fun s l c held unknown => ?_, fun r row s l c held takes => ?_⟩
  · have taken : (fun d : HeldCommand => !commandKinds.contains d.kind) c = true := by simpa using unknown
    exact congrArg _ (State.take_acts (takes := fun d => !commandKinds.contains d.kind) (lengths := fun _ => true) held taken
      (.inl rfl) rfl)
  · obtain ⟨action, acts⟩ := commandRows_actsBy r row l
    rw [acts]
    refine ⟨fun needs observes => ?_, fun control length => ?_⟩
    · rw [needs, State.take_denied held takes observes]
    · rw [State.take_badLength held takes control length]

/-- Settles O20: the answers of the two actions. -/
theorem identifyRestart : Obligations.IdentifyRestart := by
  unfold Obligations.IdentifyRestart
  refine ⟨fun s l c hc => ?_, fun s l c hc => congrArg _ (hc.acts _)⟩
  exact congrArg _ (hc.acts (identifyAction l))

/-! ### Authority and takeover (R167 to R171) -/

/-- A move of authority. -/
theorem State.moveAuthority_moves (s : State) (target : Link) (cause : Byte) :
    (s.moveAuthority target cause).ports = { s.ports with control := target, takeoverOpen := false } ∧
      (∀ l, (s.moveAuthority target cause).flagged l .authority) ∧ (s.moveAuthority target cause).floor = s.floor ∧
      (s.moveAuthority target cause).seats = s.seats ∧ (s.moveAuthority target cause).timeBase = s.timeBase ∧
      (s.moveAuthority target cause).trunks = s.trunks :=
  ⟨rfl, fun l => flagged_raise_notify _ l _ _, rfl, rfl, rfl, rfl⟩

/-- Settles O21: the action of each command. -/
theorem authority : Obligations.Authority := by
  unfold Obligations.Authority
  refine ⟨fun s l c hc => ⟨s.moveAuthority l.other 0, ?_, State.moveAuthority_moves s _ _⟩, fun s l c hc => ?_⟩
  · have other : (s.moveAuthority l.other 0).classCode l = 1 := by cases l <;> rfl
    have acts := hc.acts (handAction l)
    simp only [handAction, other] at acts
    exact congrArg _ acts
  · have acts : exec (.authorityClaim l) s = .next ((claimAction l c.payload s).1.answer l c (claimAction l c.payload s).2) :=
      congrArg _ (hc.acts (claimAction l))
    rw [acts]
    refine ⟨fun control => ?_, fun observes shut => ?_, fun observes isOpen => ⟨s.moveAuthority l 1, ?_, State.moveAuthority_moves s _ _⟩⟩
    · simp [claimAction, control, State.classCode]
    · simp [claimAction, observes, shut, refuseWith]
    · have own : (s.moveAuthority l 1).classCode l = 0 := by cases l <;> rfl
      simp only [claimAction, observes, isOpen, own, if_true, Bool.false_eq_true, if_false]

/-- The condition under which the silence measure finds the takeover OPEN: it was, or an interval is set and passed. -/
theorem State.measureSilence_eq (s : State) : s.measureSilence =
    { s with ports := { s.ports with takeoverOpen := s.ports.takeoverOpen || (decide (s.ports.takeoverInterval ≠ 0) &&
      reached s.time (after (s.port s.ports.control).lastValid (10 * s.ports.takeoverInterval))) } } := by
  unfold State.measureSilence
  dsimp only
  split
  · next silent =>
    obtain ⟨interval, -, passed⟩ := silent
    simp [interval, passed]
  · next still =>
    cases isOpen : s.ports.takeoverOpen with
    | true => rw [Bool.true_or, ← isOpen]
    | false =>
      have unchanged : (decide (s.ports.takeoverInterval ≠ 0) &&
          reached s.time (after (s.port s.ports.control).lastValid (10 * s.ports.takeoverInterval))) = false := by
        rw [Bool.eq_false_iff]
        intro both
        obtain ⟨interval, passed⟩ := (Bool.and_eq_true _ _).mp both
        exact still ⟨of_decide_eq_true interval, by simp [isOpen], passed⟩
      rw [unchanged, Bool.or_false, ← isOpen]

/-- Settles O22, by the checks of LINK CONFIG and the condition of the silence measure. -/
theorem takeover : Obligations.Takeover := by
  unfold Obligations.Takeover
  refine ⟨fun s l c hc => ?_, fun k s due => ?_⟩
  · have acts : exec (.linkConfig l) s = .next ((linkConfigAction c.payload s).1.answer l c (linkConfigAction c.payload s).2) :=
      congrArg _ (hc.acts linkConfigAction)
    rw [acts]
    refine ⟨fun beyond => ?_, fun inRange same => ?_, fun inRange other => ?_⟩
    · simp only [linkConfigAction, if_pos beyond, refuseWith]
    · simp only [linkConfigAction, if_neg (Nat.not_lt.2 inRange), if_pos same]
    · simp only [linkConfigAction, if_neg (Nat.not_lt.2 inRange), if_neg other]
      rfl
  · have runs : exec .silenceMeasure s = .next (State.measureSilence { s with due := { s.due with silence := k } }) := by
      simp [exec, execSilenceMeasure, due]
    rw [runs, State.measureSilence_eq]
    rfl

/-! ### The Report Unit (R174 to R183) -/

/-- Every bit of a set of flags is a flag's (11.3). -/
theorem EventFlag.exists_bit {i : Nat} (h : i < 16) : ∃ e : EventFlag, e.bit = i := by
  have all : ∀ j : Fin 16, ∃ e : EventFlag, e.bit = j.val := fun j =>
    ⟨[EventFlag.restarted, .floor, .list, .reply, .overtime, .interrupt, .stack, .presence, .trunk, .alarm0, .alarm1, .alarm2,
      .timebase, .authority, .notice, .overrun].get j, by revert j; decide⟩
  exact all ⟨i, h⟩

/-- A set of flags is not empty exactly when it holds a flag. -/
theorem flags_ne_zero_iff (w : Half) : w ≠ 0 ↔ ∃ e : EventFlag, w.getLsbD e.bit = true := by
  constructor
  · intro h
    by_contra none
    refine h (BitVec.eq_of_getLsbD_eq fun i hi => ?_)
    obtain ⟨e, rfl⟩ := EventFlag.exists_bit hi
    simpa using fun held => none ⟨e, held⟩
  · rintro ⟨e, he⟩ rfl
    simp at he

/-- The attention line is asserted exactly while a flag of the link's set is in its mask and RSTN is high (R176). -/
theorem State.attention_iff (s : State) (l : Link) : s.attention l = true ↔ s.pins.rstnLow = false ∧ ∃ e : EventFlag,
    (s.reportOf l).flags.getLsbD e.bit = true ∧ (s.reportOf l).mask.getLsbD e.bit = true := by
  have common := flags_ne_zero_iff ((s.reportOf l).flags &&& (s.reportOf l).mask)
  simp only [BitVec.getLsbD_and, Bool.and_eq_true] at common
  rw [← common]
  simp [State.attention]

/-- A slot is open exactly when some place holds one. -/
theorem any_slot_iff (v : Vector (Option DelegateSlot) 6) (p : Option DelegateSlot → Bool) :
    v.toList.any p = true ↔ ∃ i : Fin 6, p v[i] = true := by
  rw [List.any_eq_true]
  constructor
  · rintro ⟨x, hx, hp⟩
    obtain ⟨i, hi, rfl⟩ := Vector.mem_iff_getElem.mp (Vector.mem_toList_iff.mp hx)
    exact ⟨⟨i, hi⟩, hp⟩
  · rintro ⟨i, hp⟩
    exact ⟨v[i], Vector.mem_toList_iff.mpr (Vector.getElem_mem i.isLt), hp⟩

/-- Some trunk's engine has a property. -/
theorem any_trunk_iff (s : State) (p : TrunkEngine → Bool) : s.trunks.toList.any p = true ↔ ∃ i, p (s.trunk i) = true := by
  rw [List.any_eq_true]
  constructor
  · rintro ⟨x, hx, hp⟩
    obtain ⟨i, hi, rfl⟩ := Vector.mem_iff_getElem.mp (Vector.mem_toList_iff.mp hx)
    exact ⟨⟨i, hi⟩, hp⟩
  · rintro ⟨i, hp⟩
    exact ⟨s.trunk i, Vector.mem_toList_iff.mpr (Vector.getElem_mem i.isLt), hp⟩

/-- A selection's condition holds (R182). -/
theorem State.condition_iff (s : State) (x : StatSelection) : s.condition x = true ↔ s.statHigh x := by
  cases x with
  | floorLive => simp only [State.condition, any_slot_iff, State.statHigh, Option.isSome_iff_ne_none]
  | overtimeAny =>
    simp only [State.condition, any_slot_iff, State.statHigh]
    exact exists_congr fun i => Option.any_eq_true _ _
  | trunkFaultAny => simp only [State.condition, any_trunk_iff, State.statHigh, decide_eq_true_eq]
  | _ => simp [State.condition, State.statHigh, State.hasControl]

/-- The level of a line while RSTN is high. -/
theorem State.statLevel_iff {s : State} (h : s.pins.rstnLow = false) (x : StatSelection) (v : Bool) :
    s.statLevel ⟨x, v⟩ = true ↔ if v then ¬ s.statHigh x else s.statHigh x := by
  rw [← State.condition_iff]
  cases v <;> simp [State.statLevel, h]

/-- A notice offered to one link (R178, R179). -/
theorem LinkReport.offer_cases (r : LinkReport) (t : ChamberTime) (n : Notice) :
    (r.filter.getLsbD n.kind.category.bit = false → r.offer t n = r) ∧
      (r.filter.getLsbD n.kind.category.bit = true →
        (r.queue.length < 32 → r.offer t n =
          { r with queue := r.queue ++ [⟨t, n⟩], flags := r.flags ||| EventFlag.notice.set }) ∧
        (32 ≤ r.queue.length → r.offer t n = { r with flags := r.flags ||| EventFlag.overrun.set })) := by
  unfold LinkReport.offer
  refine ⟨fun passed => if_neg (by simp [passed]), fun taken => ⟨fun room => ?_, fun full => ?_⟩⟩
  · rw [if_pos taken, if_pos room]
    rfl
  · rw [if_pos taken, if_neg (Nat.not_lt.2 full)]
    rfl

/-- A yes or no code. -/
theorem ofCode_noYesRow {v : Bool} {k : Nat} (h : k = if v then 1 else 0) : ofCode noYesRow k = some v := by
  subst h
  cases v <;> rfl

/-- LINES SET on a line and codes in range. -/
theorem linesSetAction_eq {p : List Byte} {s : State} {i : Fin 2} {x : StatSelection} {v : Bool} (hi : u8 p 0 = i)
    (hx : statRow[u8 p 1]? = some x) (hv : u8 p 2 = if v then 1 else 0) : linesSetAction p s =
      if s.line i = ⟨x, v⟩ then (s, .of .unchanged s.linesResult)
      else (s.setLine i ⟨x, v⟩, .of .done (s.setLine i ⟨x, v⟩).linesResult) := by
  have inRange : u8 p 0 < 2 := hi ▸ i.isLt
  have place : (⟨u8 p 0, inRange⟩ : Fin 2) = i := Fin.ext hi
  have selection : ofCode statRow (u8 p 1) = some x := hx
  unfold linesSetAction
  rw [dif_pos inRange, selection, ofCode_noYesRow hv, place]

/-- Settles O54: each command's action, then what each function of the Report Unit does. -/
theorem reportCommands : Obligations.ReportCommands := by
  unfold Obligations.ReportCommands
  refine ⟨fun s l c hc => ?_, fun s l c hc v hv => ?_, fun s l c hc v hv => ?_, fun s l c hc => ?_, fun s => rfl,
    State.attention_iff, fun s x v => ⟨fun low => by simp [State.statLevel, low], fun high => State.statLevel_iff high x v⟩,
    ⟨by decide, by intro k; cases k <;> decide⟩, fun s n e => ⟨⟨rfl, rfl, rfl⟩, ⟨rfl, rfl, rfl⟩, fun l => ⟨?_, ?_⟩⟩⟩
  · have acts : exec (.takeNotices l) s =
        .next ((takeNoticesAction l c.payload s).1.answer l c (takeNoticesAction l c.payload s).2) :=
      congrArg _ (hc.acts (takeNoticesAction l))
    rw [acts]
    refine ⟨fun outside => ?_, fun low up => ?_⟩
    · simp only [takeNoticesAction, if_pos outside, refuseWith]
    · have inside : ¬ (u8 c.payload 0 < 1 ∨ 16 < u8 c.payload 0) := by omega
      have own : (s.modReport l fun r => { r with queue := (s.reportOf l).queue.drop (u8 c.payload 0) }) =
          s.modReport l fun r => { r with queue := r.queue.drop (u8 c.payload 0) } := by cases l <;> rfl
      simp only [takeNoticesAction, if_neg inside, List.length_take, own]
  · have acts : exec (.attnMask l) s = .next ((attnMaskAction l c.payload s).1.answer l c (attnMaskAction l c.payload s).2) :=
      congrArg _ (hc.acts (attnMaskAction l))
    subst hv
    rw [acts]
    refine ⟨fun same => ?_, fun other => ?_⟩
    · simp only [attnMaskAction, if_pos same]
    · simp only [attnMaskAction, if_neg other]
  · have acts : exec (.noticeFilter l) s =
        .next ((noticeFilterAction l c.payload s).1.answer l c (noticeFilterAction l c.payload s).2) :=
      congrArg _ (hc.acts (noticeFilterAction l))
    subst hv
    rw [acts]
    refine ⟨fun same => ?_, fun other => ?_⟩
    · simp only [noticeFilterAction, if_pos same]
    · simp only [noticeFilterAction, if_neg other]
  · have acts : exec (.linesSet l) s = .next ((linesSetAction c.payload s).1.answer l c (linesSetAction c.payload s).2) :=
      congrArg _ (hc.acts linesSetAction)
    rw [acts]
    refine ⟨fun beyond => ?_, fun line bad => ?_, fun x v hx hv => ⟨fun zero other => ⟨_, rfl, ?_⟩, fun one other => ⟨_, rfl, ?_⟩, ?_⟩⟩
    · have noLine : ¬ u8 c.payload 0 < 2 := by omega
      simp only [linesSetAction, dif_neg noLine, refuseWith]
    · have noCode : ofCode statRow (u8 c.payload 1) = none ∨ ofCode noYesRow (u8 c.payload 2) = none :=
        bad.imp (fun h => ofCode_beyond h) fun h => ofCode_beyond h
      unfold linesSetAction
      rw [dif_pos line]
      split
      · next hs hn => simp [hs, hn] at noCode
      · rfl
    · rw [linesSetAction_eq (i := 0) zero hx hv, if_neg (show s.line 0 ≠ _ from other)]
      rfl
    · rw [linesSetAction_eq (i := 1) one hx hv, if_neg (show s.line 1 ≠ _ from other)]
      rfl
    · rintro (⟨zero, same⟩ | ⟨one, same⟩)
      · rw [linesSetAction_eq (i := 0) zero hx hv, if_pos (show s.line 0 = _ from same)]
      · rw [linesSetAction_eq (i := 1) one hx hv, if_pos (show s.line 1 = _ from same)]
  · cases l <;> rfl
  · cases l with
    | a => exact LinkReport.offer_cases s.report.linkA s.time n
    | b => exact LinkReport.offer_cases s.report.linkB s.time n

end Sys2Proof.Machine
end

section
/-! SUPPORT. SEAT LABEL (R12, R13) and the reading commands (R14, R43, R67, R71, R97, R120, R129, R158). -/

namespace Sys2Proof.Machine

/-! ### Rows that take more than one length, or one selector of a kind -/

/-- A command that passes the checks of R165 is acted on by any row that takes it. -/
theorem State.Takes.actsBy {s : State} {l : Link} {c : HeldCommand} {kind : Byte} {needsControl : Bool} {length : Nat}
    {takes : HeldCommand → Bool} {lengths : Nat → Bool} (h : s.Takes l c kind needsControl length) (ofRow : takes c = true)
    (ofLength : lengths length = true) (action : Action) :
    s.take l takes needsControl lengths action = (action c.payload s).1.answer l c (action c.payload s).2 := by
  have control : needsControl = false ∨ s.hasControl l = true := by
    cases needsControl with
    | false => exact .inl rfl
    | true => exact .inr (h.control rfl)
  exact State.take_acts h.held ofRow control (h.length ▸ ofLength)

/-- The command is of its row's kind. -/
theorem State.Takes.ofKind {s : State} {l : Link} {c : HeldCommand} {kind : Byte} {needsControl : Bool} {length : Nat}
    (h : s.Takes l c kind needsControl length) : ofKind kind c = true := by simp [Machine.ofKind, h.kind]

/-- A number within 1 to 480. -/
theorem seatOk_iff {n : Nat} : seatOk n = true ↔ 1 ≤ n ∧ n ≤ 480 := by simp [seatOk]

/-- A number outside 1 to 480. -/
theorem seatOk_outside {n : Nat} (h : n < 1 ∨ 480 < n) : (!seatOk n) = true := by
  rw [Bool.not_eq_true', ← Bool.not_eq_true, seatOk_iff]
  omega

/-- A number within 1 to 480 is not refused. -/
theorem seatOk_inside {n : Nat} (h : 1 ≤ n) (g : n ≤ 480) : ¬ (!seatOk n) = true := by
  simp [seatOk, h, g]

/-! ### Labels (R12, R13) -/

/-- The first illegal byte of a text's first 24 is answered with its place. -/
theorem convertLabel_illegal {text : List Byte} {i : Nat} {b : Byte} (hi : i < 24) (hb : text[i]? = some b)
    (bad : displayCode b = none) (first : ∀ j b', j < i → text[j]? = some b' → displayCode b' ≠ none) :
    convertLabel text = .error (i + 1) := by
  obtain ⟨inText, rfl⟩ := List.getElem?_eq_some_iff.mp hb
  have found : (text.take Config.labelCapacity).findIdx? (fun b => (displayCode b).isNone) = some i := by
    rw [List.findIdx?_eq_some_iff_getElem]
    refine ⟨by simp [Config.labelCapacity]; omega, by simp [bad], fun j hj => ?_⟩
    have before := first j text[j] hj (List.getElem?_eq_getElem (by omega))
    simpa using before
  simp only [convertLabel, found]

/-- A text whose first 24 bytes are all legal gives their codes. -/
theorem convertLabel_legal {text : List Byte} {codes : List Byte} (h : (text.take 24).map displayCode = codes.map some) :
    convertLabel text = .ok codes := by
  have legal : (text.take Config.labelCapacity).findIdx? (fun b => (displayCode b).isNone) = none := by
    rw [List.findIdx?_eq_none_iff]
    intro b hb
    have some_ : displayCode b ∈ codes.map some := h ▸ List.mem_map_of_mem hb
    obtain ⟨code, -, hcode⟩ := List.mem_map.mp some_
    simp [← hcode]
  have converted : (text.take Config.labelCapacity).filterMap displayCode = codes := by
    calc (text.take Config.labelCapacity).filterMap displayCode
        = ((text.take 24).map displayCode).filterMap id := by rw [List.filterMap_map]; rfl
      _ = (codes.map some).filterMap id := by rw [h]
      _ = codes := by simp [List.filterMap_map]
  simp only [convertLabel, legal, converted]

/-- The engines lie in the trunks alone. -/
theorem State.trunk_congr {s t : State} (h : t.trunks = s.trunks) (i : TrunkNo) : t.trunk i = s.trunk i :=
  congrArg (fun v : Vector TrunkEngine 4 => v[i]) h

/-- What a change keeps of every record is kept at every seat. -/
theorem State.seat_modSeat_keeps {α : Type} (s : State) (n : Nat) (f : SeatRecord → SeatRecord) (field : SeatRecord → α)
    (hf : ∀ r, field (f r) = field r) (m : Nat) : field ((s.modSeat n f).seat m) = field (s.seat m) :=
  seat_modSeats_keeps s [n] f field hf m

/-- A record with another label. -/
def SeatRecord.withLabel (codes : List Byte) (r : SeatRecord) : SeatRecord :=
  { r with label := if codes = [] then none else some codes }

/-- An ABSENT or unbound seat's label is stored and nothing is marked. -/
theorem State.storeLabel_unmarked {s : State} {n : Nat} (codes : List Byte)
    (h : (s.seat n).binding = none ∨ (s.seat n).presence = .absent) : s.storeLabel n codes = s.modSeat n (.withLabel codes) := by
  unfold State.storeLabel
  dsimp only
  split
  · rfl
  · next here =>
    have unbound : ((s.modSeat n (.withLabel codes)).seat n).binding = none := by
      rw [seat_modSeat_keeps s n (.withLabel codes) SeatRecord.binding (fun _ => rfl)]
      exact h.resolve_right here
    show State.markSeat (s.modSeat n (.withLabel codes)) n true = _
    unfold State.markSeat
    rw [unbound]

/-- The label of a bound seat that is not ABSENT is stored, and its position marked. -/
theorem State.storeLabel_marked {s : State} {n : Nat} (codes : List Byte) {b : Binding} (hb : (s.seat n).binding = some b)
    (here : (s.seat n).presence ≠ .absent) :
    s.storeLabel n codes = (s.modSeat n (.withLabel codes)).modTrunk b.trunk (·.mark b.position true) := by
  have bound : ((s.modSeat n (.withLabel codes)).seat n).binding = some b := by
    rw [seat_modSeat_keeps s n (.withLabel codes) SeatRecord.binding (fun _ => rfl), hb]
  unfold State.storeLabel
  dsimp only
  rw [if_neg here]
  show State.markSeat (s.modSeat n (.withLabel codes)) n true = _
  unfold State.markSeat
  rw [bound]

/-- Storing a label concerns the seat table and the trunks, of which it marks one at most. -/
theorem State.storeLabel_cases (s : State) (n : Nat) (codes : List Byte) :
    s.storeLabel n codes = s.modSeat n (.withLabel codes) ∨ ∃ b : Binding,
      s.storeLabel n codes = (s.modSeat n (.withLabel codes)).modTrunk b.trunk (·.mark b.position true) := by
  by_cases here : (s.seat n).presence = .absent
  · exact .inl (storeLabel_unmarked codes (.inr here))
  · cases hb : (s.seat n).binding with
    | none => exact .inl (storeLabel_unmarked codes (.inl hb))
    | some b => exact .inr ⟨b, storeLabel_marked codes hb here⟩

/-- A claim's frame holds over a stored label. -/
theorem State.storeLabel_claim (s : State) (n : Nat) (codes : List Byte) : s.ClaimFrame (s.storeLabel n codes) := by
  rcases s.storeLabel_cases n codes with h | ⟨b, h⟩
  · rw [h]
    exact .modSeat s n _
  · rw [h]
    exact (State.ClaimFrame.modSeat s n _).trans (.modTrunk _ _ _ fun e w => TrunkEngine.mark_wf w _ _)

/-- The seats after a stored label are those with the label stored. -/
theorem State.storeLabel_seat (s : State) (n : Nat) (codes : List Byte) (m : Nat) :
    (s.storeLabel n codes).seat m = (s.modSeat n (.withLabel codes)).seat m := by
  rcases s.storeLabel_cases n codes with h | ⟨b, h⟩ <;> exact h ▸ rfl

/-- Storing a label leaves the floor and the reports. -/
theorem State.storeLabel_floor (s : State) (n : Nat) (codes : List Byte) :
    (s.storeLabel n codes).floor = s.floor ∧ (s.storeLabel n codes).report = s.report := by
  rcases s.storeLabel_cases n codes with h | ⟨b, h⟩ <;> rw [h] <;> simp

/-- A mark that its trunk does not take enters nothing. -/
theorem TrunkEngine.mark_untaken {e : TrunkEngine} {p : Nat} (h : e.takesMark p = false) (label : Bool) : e.mark p label = e := by
  unfold TrunkEngine.mark
  exact if_neg (by simp [h])

/-- A mark that its trunk takes and that has no entry goes to the tail. -/
theorem TrunkEngine.mark_new {e : TrunkEngine} {p : Nat} (h : e.takesMark p = true) (label : Bool)
    (fresh : ∀ x ∈ e.pending, x.position ≠ p) : (e.mark p label).pending = e.pending ++ [⟨p, label⟩] := by
  have none : e.pending.any (fun x => x.position = p) = false := by simpa using fresh
  unfold TrunkEngine.mark
  rw [if_pos h, none]
  rfl

/-- A mark whose position has an entry keeps its place, and a label flag that is set. -/
theorem TrunkEngine.mark_again {e : TrunkEngine} {p : Nat} (h : e.takesMark p = true) (label : Bool)
    (there : ∃ x ∈ e.pending, x.position = p) : (e.mark p label).pending =
      e.pending.map fun x => if x.position = p then { x with label := x.label || label } else x := by
  have some_ : e.pending.any (fun x => x.position = p) = true := by simpa using there
  unfold TrunkEngine.mark
  rw [if_pos h, if_pos some_]

/-- A trunk takes no mark while DOWN, and in RUNNING and FAULT none beyond N. -/
theorem TrunkEngine.takesMark_none {e : TrunkEngine} {p : Nat}
    (h : e.state = .down ∨ (e.state = .running ∨ e.state = .fault) ∧ e.found < p) : e.takesMark p = false := by
  unfold TrunkEngine.takesMark
  rcases h with down | ⟨running | fault, beyond⟩
  · simp [down]
  · simp [running]
    omega
  · simp [fault]
    omega

/-- A trunk takes a mark of a position while ENUMERATING, and in RUNNING and FAULT up to N. -/
theorem TrunkEngine.takesMark_some {e : TrunkEngine} {p : Nat} (low : 1 ≤ p) (up : p ≤ 120)
    (h : e.state = .enumerating ∨ (e.state = .running ∨ e.state = .fault) ∧ p ≤ e.found) : e.takesMark p = true := by
  unfold TrunkEngine.takesMark
  rcases h with enumerating | ⟨running | fault, reach⟩
  · simp [enumerating, low, up, Config.positions]
  · simp [running, low, reach]
  · simp [fault, low, reach]

/-- SEAT LABEL with a text of legal bytes. -/
theorem seatLabelAction_legal {p : List Byte} {s : State} {codes : List Byte} (low : 1 ≤ u16 p 0) (up : u16 p 0 ≤ 480)
    (h : ((p.drop 2).take 24).map displayCode = codes.map some) : seatLabelAction p s =
      (s.storeLabel (u16 p 0) codes, if 26 < p.length then .of .truncated [25] else .of .done) := by
  unfold seatLabelAction
  dsimp only
  rw [if_neg (seatOk_inside low up), convertLabel_legal h]
  dsimp only
  have long : Config.labelCapacity < (p.drop 2).length ↔ 26 < p.length := by
    rw [List.length_drop]
    show 24 < p.length - 2 ↔ 26 < p.length
    omega
  by_cases far : 26 < p.length
  · rw [if_pos (long.mpr far), if_pos far]
    rfl
  · rw [if_neg (mt long.mp far), if_neg far]

/-- Settles O26: the checks, the text's codes, and what marking a position does. -/
theorem seatLabel : Obligations.SeatLabel := by
  unfold Obligations.SeatLabel
  intro s l c k hc short long
  have acts : exec (.seatLabel l) s = .next ((seatLabelAction c.payload s).1.answer l c (seatLabelAction c.payload s).2) :=
    congrArg _ (hc.actsBy hc.ofKind (decide_eq_true ⟨short, long⟩) seatLabelAction)
  rw [acts]
  refine ⟨fun outside => ?_, fun low up => ⟨fun i b hi hb bad first => ?_, fun codes legal => ?_⟩, fun e p label =>
    ⟨TrunkEngine.mark_rest e p label, fun none => ?_, fun low up taken =>
      ⟨TrunkEngine.mark_new (TrunkEngine.takesMark_some low up taken) label,
        TrunkEngine.mark_again (TrunkEngine.takesMark_some low up taken) label⟩⟩⟩
  · simp only [seatLabelAction, if_pos (seatOk_outside outside), refuseWith]
  · simp only [seatLabelAction, if_neg (seatOk_inside low up), convertLabel_illegal hi hb bad first]
  · rw [seatLabelAction_legal low up legal, hc.length]
    obtain ⟨floor, report⟩ := s.storeLabel_floor (u16 c.payload 0) codes
    refine ⟨_, rfl, ?_, fun m hm => ?_, floor, report, s.storeLabel_claim _ _, fun unmarked => ?_, fun b hb here => ?_⟩
    · rw [State.storeLabel_seat, s.seat_modSeat_self (seatIndex_isSome low up)]
      rfl
    · rw [State.storeLabel_seat, s.seat_modSeat_ne hm]
    · rw [State.storeLabel_unmarked codes unmarked, State.modSeat_trunks]
    · rw [State.storeLabel_marked codes hb here]
      refine ⟨?_, fun i hi => ?_⟩
      · rw [State.trunk_modTrunk_self]
        exact congrArg (fun e : TrunkEngine => e.mark b.position true) (State.trunk_congr (State.modSeat_trunks s _ _) _)
      · rw [State.trunk_modTrunk_ne _ hi]
        exact State.trunk_congr (State.modSeat_trunks s _ _) _
  · rw [TrunkEngine.mark_untaken (TrunkEngine.takesMark_none none)]

/-! ### Reading -/

/-- SEAT READ on a range that passes its checks. -/
theorem seatReadAction_inRange {p : List Byte} {base count : Nat} (hbase : u16 p 0 = base)
    (range : seatRange p = some (List.range' base count)) {records : List (List Byte)} (s : State)
    (hr : records = takeFitting 16 246 ((List.range' base count).map fun n => s.seatBytes s.freeDraws (n - base) n)) :
    seatReadAction p s = (s, .of (if records.length = count then .done else .more)
      (be16 (if records.length = count then 0 else base + records.length) ++ [be8 records.length] ++ records.flatten)) := by
  have length : (List.range' base count).length = count := List.length_range'
  subst hbase hr
  simp only [seatReadAction, range, length]
  rfl

/-- Settles O28: each action answers from the state it reads. -/
theorem readCommands : Obligations.ReadCommands := by
  unfold Obligations.ReadCommands
  refine ⟨fun s l c hc base count hbase hcount => ⟨fun outside => ?_, fun low one few up records hr => ⟨fun all => ?_, fun part => ?_⟩⟩,
    fun s l c hc beyond => ?_, fun s l c hc inside => ?_, fun s l c hc => ?_, fun s l c hc => ?_, fun s l c hc => ?_,
    fun s l c hc => ⟨fun beyond => ?_, fun inside short => ?_, fun fr inside there => ?_⟩, fun s l c hc => ?_,
    fun s l c hc => ⟨fun beyond => ?_, fun tr number => ?_⟩⟩
  · refine congrArg _ ((hc.acts seatReadAction).trans ?_)
    simp only [seatReadAction, seatRange_of_failed hbase hcount outside, refuseWith]
  · refine congrArg _ ((hc.acts seatReadAction).trans ?_)
    rw [seatReadAction_inRange hbase (seatRange_of_checks hbase hcount low one few up) s hr, if_pos all, if_pos all, all]
  · refine congrArg _ ((hc.acts seatReadAction).trans ?_)
    rw [seatReadAction_inRange hbase (seatRange_of_checks hbase hcount low one few up) s hr, if_neg part, if_neg part]
  · refine congrArg _ ((hc.acts listReadAction).trans ?_)
    simp only [listReadAction, if_pos beyond, refuseWith]
  · refine congrArg _ ((hc.acts listReadAction).trans ?_)
    simp only [listReadAction, if_neg (Nat.not_lt.2 inside), List.length_take, List.length_drop, List.length_zipIdx]
    rfl
  · exact congrArg _ (hc.acts floorReadAction)
  · exact congrArg _ (hc.acts policyReadAction)
  · exact congrArg _ (hc.acts replyReadAction)
  · refine congrArg _ ((hc.acts stackReadAction).trans ?_)
    simp only [stackReadAction, if_pos beyond, refuseWith]
  · refine congrArg _ ((hc.acts stackReadAction).trans ?_)
    simp only [stackReadAction, if_neg (Nat.not_lt.2 inside), List.getElem?_eq_none short]
  · refine congrArg _ ((hc.acts stackReadAction).trans ?_)
    simp only [stackReadAction, if_neg (Nat.not_lt.2 inside), there]
  · exact congrArg _ (hc.acts timeReadAction)
  · refine congrArg _ ((hc.acts trunkReadAction).trans ?_)
    rw [trunkReadAction, onTrunk_of_beyond beyond]
  · refine congrArg _ ((hc.acts trunkReadAction).trans ?_)
    rw [trunkReadAction, onTrunk_of_number number]
    rfl

end Sys2Proof.Machine
end

section
/-! SUPPORT. What a claim shows: the floor, the reports and chamber time that the operations of a claim leave, stated by the words
of the statements (slotClosed, roundBegun, speakGranted and the others), and what the end of an event makes of them (Settles). -/

namespace Sys2Proof.Machine

/-- The grant of a SPEAK slot in place j within an event: it takes the seat's request list entry, whose version is counted at the
event's end (R49; notes/assumptions/15.md). -/
def State.speakEntered (s : State) (j : Fin 6) (n : Nat) (origin : Origin) (allowance : Nat) : State :=
  (((if s.floor.requestOf n = none then s else s.raise .list).modFloor fun f => { f with
      requests := f.requests.filter (·.seat ≠ n)
      slots := f.slots.set j (some (slotNow s.time f.policy.warnLead n .speak origin allowance)) }).notify
    ⟨.granted, .seat n, some (codeIn originRow origin), [detailOf j, detailOf allowance]⟩).raise .floor

/-- A change of the floor and a notice, in either order. -/
theorem State.notify_modFloor (s : State) (f : Floor → Floor) (n : Notice) : (s.modFloor f).notify n = (s.notify n).modFloor f := rfl

/-- A change of the floor and a flag, in either order. -/
theorem State.raise_modFloor (s : State) (f : Floor → Floor) (e : EventFlag) : (s.modFloor f).raise e = (s.raise e).modFloor f := rfl

/-- A change of the floor and notices in a row, in either order. -/
theorem State.foldl_notify_modFloor {α : Type} (g : α → Notice) (l : List α) (s : State) (f : Floor → Floor) :
    l.foldl (fun x a => x.notify (g a)) (s.modFloor f) = (l.foldl (fun x a => x.notify (g a)) s).modFloor f := by
  induction l generalizing s with
  | nil => rfl
  | cons a l ih => exact ih (s.notify (g a))

/-- Notices in a row leave everything but the reports. -/
theorem State.foldl_notify_rest {α : Type} (g : α → Notice) (l : List α) (s : State) :
    l.foldl (fun x a => x.notify (g a)) s = { s with report := (l.foldl (fun x a => x.notify (g a)) s).report } := by
  induction l generalizing s with
  | nil => rfl
  | cons a l ih => exact (ih (s.notify (g a))).trans rfl

/-- The place of a seat's delegate slot holds a slot of that seat. -/
theorem Floor.slotOf_some {f : Floor} {n : Nat} {i : Fin 6} (h : f.slotOf n = some i) : ∃ d, f.slots[i] = some d ∧ d.seat = n := by
  simpa [Option.any_eq_true] using List.find?_some h

/-- The place of a seat's chair slot holds a slot of that seat. -/
theorem Floor.chairOf_some {f : Floor} {n : Nat} {i : Fin 2} (h : f.chairOf n = some i) : ∃ d, f.chairs[i] = some d ∧ d.seat = n := by
  simpa [Option.any_eq_true] using List.find?_some h

/-- An ordered list holds what the list holds. -/
theorem insertBy_perm {α : Type} (le : α → α → Bool) (x : α) (l : List α) : (insertBy le x l).Perm (x :: l) := by
  induction l with
  | nil => exact .refl _
  | cons y ys ih =>
    unfold insertBy
    split
    · exact .refl _
    · exact (ih.cons y).trans (.swap x y ys)

/-- An ordered list holds what the list holds. -/
theorem sortBy_perm {α : Type} (le : α → α → Bool) (l : List α) : (sortBy le l).Perm l := by
  induction l with
  | nil => exact .refl _
  | cons x xs ih => exact (insertBy_perm le x _).trans (ih.cons x)

/-- The open slots are the slots, each with its place. -/
theorem Floor.mem_openSlots {f : Floor} {i : Fin 6} {d : DelegateSlot} : (i, d) ∈ f.openSlots ↔ f.slots[i] = some d := by
  simp only [Floor.openSlots, List.mem_filterMap, Option.map_eq_some_iff, Prod.mk.injEq]
  constructor
  · rintro ⟨j, -, e, he, rfl, rfl⟩
    exact he
  · exact fun h => ⟨i, List.mem_finRange i, d, h, rfl, rfl⟩

/-- The slots by age are the slots. -/
theorem Floor.mem_slotsByAge {f : Floor} {now : ChamberTime} {i : Fin 6} {d : DelegateSlot} :
    (i, d) ∈ f.slotsByAge now ↔ f.slots[i] = some d :=
  (sortBy_perm _ _).mem_iff.trans Floor.mem_openSlots

/-- An empty place is free, or a lower one is. -/
theorem Floor.freeSlot_of_none {f : Floor} {i : Fin 6} (h : f.slots[i] = none) : ∃ j, f.freeSlot = some j := by
  refine Option.isSome_iff_exists.mp (List.find?_isSome.mpr ⟨i, List.mem_finRange i, ?_⟩)
  rw [h]
  rfl

/-- Fewer than six open slots leave a place free. -/
theorem Floor.freeSlot_of_count {f : Floor} (h : f.openCount < 6) : ∃ j, f.freeSlot = some j := by
  by_contra none_
  have every (i : Fin 6) : ∃ d, f.slots[i] = some d := by
    cases hi : f.slots[i] with
    | none => exact absurd (Floor.freeSlot_of_none hi) none_
    | some d => exact ⟨d, rfl⟩
  have all : f.openSlots.map (·.1) = slotPlaces := by
    unfold Floor.openSlots
    rw [List.map_filterMap, ← List.filterMap_some (l := slotPlaces)]
    refine List.filterMap_congr fun i _ => ?_
    obtain ⟨d, hd⟩ := every i
    simp [hd]
  have six : f.openCount = 6 := by
    rw [Floor.openCount, ← List.length_map (f := (·.1)), all]
    rfl
  omega

/-- A seat's held records and held reply entries leave the frames, each with its notice (R117). -/
def State.heldDropped (s : State) (n : Nat) (why : Byte) : State :=
  let held : List HeldSlot := s.floor.stack.flatMap fun fr => fr.records.filter (·.seat = n)
  let heldReplies : List HeldReply := s.floor.stack.flatMap fun fr => fr.entries.filter (·.seat = n)
  let s1 : State := held.foldl (fun x h => x.notify ⟨.released, .seat n, some why,
    [detailCode (codeIn slotKindRow h.kind), (h.remaining.map detailOf).getD 0xFFFFFFFF]⟩) s
  let s2 : State := heldReplies.foldl (fun x e => x.notify ⟨.replyDropped, .seat n, some why, [detailOf e.target]⟩) s1
  if held = [] ∧ heldReplies = [] then s2 else (s2.raise .stack).modFloor fun f => { f with
    stack := f.stack.map fun fr => { fr with
      records := fr.records.filter (·.seat ≠ n), entries := fr.entries.filter (·.seat ≠ n) } }

/-- A seat is found in the frames exactly when a held record or a held reply entry is its own. -/
theorem Floor.stack_holds_iff {f : Floor} {n : Nat} : f.stack.any (·.holds n) = true ↔
    ¬ ((f.stack.flatMap fun fr => fr.records.filter (·.seat = n)) = [] ∧
      (f.stack.flatMap fun fr => fr.entries.filter (·.seat = n)) = []) := by
  simp only [List.any_eq_true, StackFrame.holds, Bool.or_eq_true, List.flatMap_eq_nil_iff, List.filter_eq_nil_iff,
    decide_eq_true_eq]
  constructor
  · rintro ⟨fr, hfr, ⟨h, hh, hn⟩ | ⟨e, he, hn⟩⟩ ⟨noRecord, noEntry⟩
    · exact noRecord fr hfr h hh hn
    · exact noEntry fr hfr e he hn
  · intro some_
    by_contra none_
    refine some_ ⟨fun fr hfr h hh hn => none_ ⟨fr, hfr, .inl ⟨h, hh, hn⟩⟩, fun fr hfr e he hn => none_ ⟨fr, hfr, .inr ⟨e, he, hn⟩⟩⟩

namespace Claim

/-- The claim at hand leaves the floor, the reports and chamber time of the state x. -/
structure Shows (c : Claim) (x : State) : Prop where
  floor : c.floor = x.floor
  report : c.st.report = x.report
  time : c.time = x.time

namespace Shows

variable {c : Claim} {x : State}

/-- What two claims agree on, both show. -/
theorem congr {d : Claim} (h : c.Shows x) (floor : d.floor = c.floor) (report : d.st.report = c.st.report) (time : d.time = c.time) :
    d.Shows x := ⟨floor.trans h.floor, report.trans h.report, time.trans h.time⟩

theorem policy (h : c.Shows x) : c.policy = x.floor.policy := congrArg Floor.policy h.floor

theorem start (s : State) : (Claim.start s).Shows s := ⟨rfl, rfl, rfl⟩

theorem self (c : Claim) : c.Shows c.st := ⟨rfl, rfl, rfl⟩

theorem notify (h : c.Shows x) (n : Notice) : (c.notify n).Shows (x.notify n) := by
  obtain ⟨floor, report, time⟩ := h
  refine ⟨floor, ?_, time⟩
  show (c.st.notify n).report = _
  rw [State.notify_report, State.notify_report, report, show c.st.time = x.time from time]

theorem raise (h : c.Shows x) (e : EventFlag) : (c.raise e).Shows (x.raise e) := by
  obtain ⟨floor, report, time⟩ := h
  refine ⟨floor, ?_, time⟩
  show (c.st.raise e).report = _
  rw [State.raise_report, State.raise_report, report]

theorem modFloor (h : c.Shows x) (f : Floor → Floor) : (c.modFloor f).Shows (x.modFloor f) :=
  ⟨congrArg f h.floor, h.report, h.time⟩

theorem modSeat (h : c.Shows x) (n : Nat) (f : SeatRecord → SeatRecord) : (c.modSeat n f).Shows x :=
  h.congr (State.modSeat_floor _ _ _) (State.modSeat_report _ _ _) (congrArg TimeBase.chamberTime (State.modSeat_timeBase _ _ _))

theorem modTrunk (h : c.Shows x) (t : TrunkNo) (f : TrunkEngine → TrunkEngine) : (c.modTrunk t f).Shows x := h.congr rfl rfl rfl

/-- What a claim shows rests on its state alone. -/
theorem of_st {d : Claim} (h : c.Shows x) (e : d.st = c.st) : d.Shows x :=
  h.congr (congrArg State.floor e) (congrArg State.report e) (congrArg State.time e)

theorem touch (h : c.Shows x) (n : Nat) : (c.touch n).Shows x := h.of_st (touch_st c n)

theorem touchAll (h : c.Shows x) (ns : List Nat) : (c.touchAll ns).Shows x := h.of_st (touchAll_st c ns)

theorem trackHead {f : Claim → Claim} (h : (f c).Shows x) : (c.trackHead f).Shows x := h.of_st (trackHead_st c f)

theorem fillPoint (h : c.Shows x) : c.fillPoint.Shows x := h.of_st rfl

theorem servePoint (h : c.Shows x) : c.servePoint.Shows x := h.of_st rfl

theorem tookEntry (h : c.Shows x) (b : Bool) : ({ c with tookEntry := b } : Claim).Shows x := h.of_st rfl

/-! ### The phase and the reply round -/

/-- The present phase again: nothing. -/
theorem setPhase_same (h : c.Shows x) {p : Phase} (hp : x.floor.phase = p) : (c.setPhase p).Shows x := by
  unfold Claim.setPhase
  rw [if_pos (h.floor ▸ hp)]
  exact h

/-- Another phase, with its notice and flag (R46). -/
theorem setPhase (h : c.Shows x) {p : Phase} (hp : x.floor.phase ≠ p) : (c.setPhase p).Shows
    (((x.notify ⟨.phase, .none, some (codeIn phaseRow p), [detailCode (codeIn phaseRow x.floor.phase)]⟩).raise .floor).modFloor
      fun f => { f with phase := p }) := by
  unfold Claim.setPhase
  rw [if_neg (h.floor ▸ hp), h.floor]
  exact ((h.notify _).raise _).modFloor _

/-- The round begins on an OPEN floor (R91). -/
theorem beginRound (h : c.Shows x) (hp : x.floor.phase = .openFloor) (n : Nat) : (c.beginRound n).Shows (x.roundBegun n) := by
  have subject := h.modFloor fun f => { f with subject := some n }
  have phase := subject.setPhase (p := .replyRound) (by simp [hp])
  have replies : ((c.modFloor fun f => { f with subject := some n }).setPhase .replyRound).floor.replies = x.floor.replies := by
    rw [phase.floor]
    rfl
  have begun := phase.notify (.ofSeat .roundBegin n none [detailOf x.floor.replies.length])
  unfold Claim.beginRound
  dsimp only
  rw [replies]
  refine ⟨begun.floor, begun.report.trans ?_, begun.time⟩
  simp only [State.modFloor_floor, hp]
  rfl

/-- The round ends (R94). -/
theorem endRound (h : c.Shows x) (hp : x.floor.phase = .replyRound) : c.endRound.Shows x.roundEnded := by
  have told := h.notify ⟨.roundEnd, (x.floor.subject.map Subject.seat).getD .none, none, []⟩
  have ended := ((told.modFloor fun f => { f with subject := none }).setPhase (p := .openFloor) (by simp [hp])).fillPoint
  unfold Claim.endRound
  dsimp only
  rw [h.floor]
  refine ⟨ended.floor, ended.report.trans ?_, ended.time⟩
  simp only [State.modFloor_floor, State.notify_floor, hp]
  rfl

/-! ### Delegate slots -/

/-- A place freed with its notice and flag (R53). -/
theorem releaseSlot (h : c.Shows x) {i : Fin 6} {d : DelegateSlot} (hd : x.floor.slots[i] = some d) (why : Reason) :
    (c.releaseSlot i why).Shows (((x.notify ⟨.released, .seat d.seat, some (codeIn reasonRow why),
      [detailOf i, detailOf (x.time - d.grantedAt).toNat]⟩).raise .floor).modFloor fun f => { f with slots := f.slots.set i none }) := by
  have here : c.floor.slots[i] = some d := h.floor ▸ hd
  unfold Claim.releaseSlot
  rw [here]
  dsimp only
  rw [h.time]
  have freed := ((h.modFloor fun f => { f with slots := f.slots.set i none }).notify (.ofSeat .released d.seat
    (codeIn reasonRow why) [detailOf i, detailOf (age x.time d.grantedAt)])).raise .floor
  exact ⟨(freed.touch d.seat).floor, (freed.touch d.seat).report, (freed.touch d.seat).time⟩

/-- The close of a slot with its consequences for the round (R53, R91, R93). -/
theorem closeSlot (h : c.Shows x) {i : Fin 6} {d : DelegateSlot} (hd : x.floor.slots[i] = some d) (why : Reason) :
    (c.closeSlot i why).Shows (x.slotClosed i d (codeIn reasonRow why)) := by
  have here : c.floor.slots[i] = some d := h.floor ▸ hd
  have freed := (h.releaseSlot hd why).fillPoint
  have replies : (c.releaseSlot i why).fillPoint.floor.replies = x.floor.replies := (congrArg Floor.replies freed.floor).trans rfl
  unfold Claim.closeSlot State.slotClosed
  rw [here]
  dsimp only
  rw [replies, h.floor, h.time]
  by_cases begins : x.floor.phase = .openFloor ∧ x.floor.replies ≠ [] ∧ (x.floor.principal x.time).any (·.1 = i) = true
  · obtain ⟨open_, waiting, principal⟩ := begins
    rw [if_pos ⟨principal, open_, waiting⟩, if_pos ⟨open_, waiting, principal⟩]
    exact freed.beginRound open_ d.seat
  · rw [if_neg fun b => begins ⟨b.2.1, b.2.2, b.1⟩, if_neg begins]
    by_cases ends : x.floor.phase = .replyRound ∧ x.floor.replies = [] ∧ d.kind = .reply
    · obtain ⟨round, none_, reply⟩ := ends
      rw [if_pos ⟨reply, round, none_⟩, if_pos ⟨round, none_, reply⟩]
      exact freed.endRound round
    · rw [if_neg fun e => ends ⟨e.2.1, e.2.2, e.1⟩, if_neg ends]
      exact freed

/-- A slot granted now. -/
theorem newSlot (h : c.Shows x) (n : Nat) (kind : SlotKind) (origin : Origin) (allowance : Nat) :
    c.newSlot n kind origin allowance = slotNow x.time x.floor.policy.warnLead n kind origin allowance := by
  unfold Claim.newSlot slotNow warnPoint
  rw [h.policy, h.time]
  by_cases unlimited : allowance = 0
  · simp [unlimited]
  · simp [unlimited]

/-- The grant of a SPEAK slot (R49). -/
theorem grantSpeak (h : c.Shows x) {j : Fin 6} (hj : x.floor.freeSlot = some j) (n : Nat) (origin : Origin) (allow : Option Nat) :
    (c.grantSpeak n origin allow).Shows (x.speakEntered j n origin
      ((allow <|> (x.floor.requestOf n).bind (·.allowance)).getD x.floor.policy.speakAllow)) := by
  have free : c.floor.freeSlot = some j := h.floor ▸ hj
  unfold Claim.grantSpeak
  rw [free]
  dsimp only
  rw [h.newSlot, Claim.speakAllowance, h.policy, h.floor]
  generalize (allow <|> (x.floor.requestOf n).bind (·.allowance)).getD x.floor.policy.speakAllow = allowance
  have taken := ((Shows.trackHead (c := c) (f := fun c => c.modFloor fun f => { f with
    requests := f.requests.filter (·.seat ≠ n)
    slots := f.slots.set j (some (slotNow x.time x.floor.policy.warnLead n .speak origin allowance)) }) (h.modFloor _)).modSeat n
      fun r => { r with grantCount := min 15 (r.grantCount + 1) }).touch n
  unfold State.speakEntered
  cases entry : x.floor.requestOf n with
  | none => exact (taken.notify _).raise _
  | some e => exact (((taken.raise .list).tookEntry true).notify _).raise _

/-- The grant of a REPLY slot (R92). -/
theorem grantReply (h : c.Shows x) {j : Fin 6} (hj : x.floor.freeSlot = some j) (n : Nat) :
    (c.grantReply n).Shows (x.replyGranted j n) := by
  have free : c.floor.freeSlot = some j := h.floor ▸ hj
  unfold Claim.grantReply
  rw [free]
  dsimp only
  rw [h.newSlot, h.policy]
  have taken := ((((h.modFloor fun f => { f with
    replies := f.replies.filter (·.seat ≠ n)
    slots := f.slots.set j (some (slotNow x.time x.floor.policy.warnLead n .reply .auto x.floor.policy.replyAllow)) }).touch n).notify
      (grantedNotice j (slotNow x.time x.floor.policy.warnLead n .reply .auto x.floor.policy.replyAllow))).raise .floor).raise .reply
  exact ⟨taken.floor, taken.report, taken.time⟩

/-! ### Leaving the lists -/

/-- A seat without a request list entry: nothing. -/
theorem dequeue_none (h : c.Shows x) {n : Nat} (hn : x.floor.requestOf n = none) (why : Reason) : (c.dequeue n why).Shows x := by
  unfold Claim.dequeue
  rw [h.floor, hn]
  exact h

/-- A seat's request list entry leaves (R23). -/
theorem dequeue (h : c.Shows x) {n : Nat} (hn : x.floor.requestOf n ≠ none) (why : Reason) : (c.dequeue n why).Shows
    ((x.notify ⟨.dequeued, .seat n, some (codeIn reasonRow why), []⟩).modFloor fun f =>
      { f with requests := f.requests.filter (·.seat ≠ n) }) := by
  unfold Claim.dequeue
  rw [h.floor, if_pos (Option.isSome_iff_ne_none.mpr hn)]
  have left := ((Shows.trackHead (c := c) (f := fun c => c.modFloor fun f => { f with requests := f.requests.filter (·.seat ≠ n) })
    (h.modFloor _)).notify (dequeued n why)).touch n
  exact ⟨left.floor, left.report, left.time⟩

/-- A seat without a reply list entry: nothing. -/
theorem dropReply_none (h : c.Shows x) {n : Nat} (hn : x.floor.replyOf n = none) (why : Reason) : (c.dropReply n why).Shows x := by
  unfold Claim.dropReply
  rw [h.floor, hn]
  exact h

/-- A seat's reply list entry leaves (R88). -/
theorem dropReply (h : c.Shows x) {n : Nat} {e : ReplyEntry} (hn : x.floor.replyOf n = some e) (why : Reason) :
    (c.dropReply n why).Shows (((x.notify ⟨.replyDropped, .seat n, some (codeIn reasonRow why), [detailOf e.target]⟩).raise
      .reply).modFloor fun f => { f with replies := f.replies.filter (·.seat ≠ n) }) := by
  unfold Claim.dropReply
  rw [h.floor, hn]
  have left := (((h.modFloor fun f => { f with replies := f.replies.filter (·.seat ≠ n) }).notify
    (replyDropped n e.target why)).raise .reply).touch n
  exact ⟨left.floor, left.report, left.time⟩

/-- Work in a row shows the same work on the state. -/
theorem foldl_mem {α : Type} {f : Claim → α → Claim} {g : State → α → State} (l : List α)
    (step : ∀ a ∈ l, ∀ (c : Claim) (x : State), c.Shows x → (f c a).Shows (g x a)) {c : Claim} {x : State}
    (h : c.Shows x) : (l.foldl f c).Shows (l.foldl g x) := by
  induction l generalizing c x with
  | nil => exact h
  | cons a l ih => exact ih (fun b hb => step b (.tail _ hb)) (step a (.head _) c x h)

/-- The same for work that does not look at where its items come from. -/
theorem foldl {α : Type} {f : Claim → α → Claim} {g : State → α → State}
    (step : ∀ (c : Claim) (x : State) (a : α), c.Shows x → (f c a).Shows (g x a)) (l : List α) {c : Claim} {x : State}
    (h : c.Shows x) : (l.foldl f c).Shows (l.foldl g x) :=
  foldl_mem l (fun a _ c x => step c x a) h

/-- The request list is emptied, head first (R40). -/
theorem clearRequests (h : c.Shows x) (why : Reason) : (c.clearRequests why).Shows
    ((x.floor.requests.foldl (fun x e => x.notify ⟨.dequeued, .seat e.seat, some (codeIn reasonRow why), []⟩) x).modFloor
      fun f => { f with requests := [] }) := by
  unfold Claim.clearRequests
  dsimp only
  rw [h.floor, ← State.foldl_notify_modFloor]
  exact foldl (fun c x e h => (h.notify (dequeued e.seat why)).touch e.seat) _ (h.modFloor _)

/-- The reply list is emptied, head first (R88). -/
theorem clearReplies (h : c.Shows x) (why : Reason) : (c.clearReplies why).Shows (x.repliesDropped (codeIn reasonRow why)) := by
  unfold Claim.clearReplies State.repliesDropped
  dsimp only
  rw [h.floor]
  by_cases none_ : x.floor.replies = []
  · rw [if_pos none_, if_pos none_]
    exact h
  · rw [if_neg none_, if_neg none_, ← State.raise_modFloor, ← State.foldl_notify_modFloor]
    exact ((foldl (fun c x e h => (h.notify (replyDropped e.seat e.target why)).touch e.seat) _ (h.modFloor _)).raise
      .reply).servePoint

/-! ### Chair slots -/

/-- A chair slot is closed (R61). -/
theorem closeChair (h : c.Shows x) {i : Fin 2} {d : ChairSlot} (hd : x.floor.chairs[i] = some d) (why : Reason) :
    (c.closeChair i why).Shows (((x.notify ⟨.chairClose, .seat d.seat, some (codeIn reasonRow why), [detailOf i]⟩).raise
      .floor).modFloor fun f => { f with chairs := f.chairs.set i none }) := by
  have here : c.floor.chairs[i] = some d := h.floor ▸ hd
  unfold Claim.closeChair
  rw [here]
  have closed := (((h.modFloor fun f => { f with chairs := f.chairs.set i none }).notify
    (.ofSeat .chairClose d.seat (codeIn reasonRow why) [detailOf i])).raise .floor).touch d.seat
  exact ⟨closed.floor, closed.report, closed.time⟩

/-! ### A seat removed from wherever it is found -/

/-- The delegate slot a seat holds is closed (R53). -/
theorem closeSlotOf (h : c.Shows x) (n : Nat) (why : Reason) : (c.closeSlotOf n why).Shows
    (match (x.floor.slotOf n).bind fun i => x.floor.slots[i].map fun d => (i, d) with
      | none => x
      | some (i, d) => x.slotClosed i d (codeIn reasonRow why)) := by
  unfold Claim.closeSlotOf
  rw [h.floor]
  cases hi : x.floor.slotOf n with
  | none => exact h
  | some i =>
    obtain ⟨d, hd, -⟩ := Floor.slotOf_some hi
    simp only [Option.bind_some, hd, Option.map_some]
    exact h.closeSlot hd why

/-- The chair slot a seat holds is closed (R61). -/
theorem closeChairOf (h : c.Shows x) (n : Nat) (why : Reason) : (c.closeChairOf n why).Shows
    (match x.floor.chairOf n with
      | none => x
      | some j => ((x.notify ⟨.chairClose, .seat n, some (codeIn reasonRow why), [detailOf j]⟩).raise .floor).modFloor
        fun f => { f with chairs := f.chairs.set j none }) := by
  unfold Claim.closeChairOf
  rw [h.floor]
  cases hj : x.floor.chairOf n with
  | none => exact h
  | some j =>
    obtain ⟨d, hd, rfl⟩ := Floor.chairOf_some hj
    exact h.closeChair hd why

/-- The seat's held records and reply entries leave the frames (R117). -/
theorem dropHeld (h : c.Shows x) (n : Nat) (why : Reason) : (c.dropHeld n why).Shows (x.heldDropped n (codeIn reasonRow why)) := by
  unfold Claim.dropHeld State.heldDropped
  dsimp only
  rw [h.floor]
  by_cases holds : x.floor.stack.any (·.holds n) = true
  · rw [if_pos holds, if_neg (Floor.stack_holds_iff.mp holds), ← State.raise_modFloor, ← State.foldl_notify_modFloor,
      ← State.foldl_notify_modFloor]
    refine ((foldl (fun c x e h => h.notify (replyDropped n e.target why)) _
      (foldl_mem _ (fun r hr c x h => ?_) (h.modFloor _))).raise .stack).touch n
    obtain ⟨fr, -, own⟩ := List.mem_flatMap.mp hr
    obtain rfl : r.seat = n := of_decide_eq_true (List.mem_filter.mp own).2
    exact h.notify (heldReleased r why)
  · obtain ⟨noRecord, noEntry⟩ := not_not.mp fun held => holds (Floor.stack_holds_iff.mpr held)
    rw [if_neg holds, if_pos ⟨noRecord, noEntry⟩, noRecord, noEntry]
    exact h

/-- A seat removed from wherever it is found (R6, R7, R8). -/
theorem removeSeat (h : c.Shows x) (n : Nat) (why : Reason) : (c.removeSeat n why).Shows (x.seatRemoved n (codeIn reasonRow why)) := by
  have dequeued : (c.dequeue n why).Shows (if x.floor.requestOf n = none then x else
      (x.notify ⟨.dequeued, .seat n, some (codeIn reasonRow why), []⟩).modFloor fun f =>
        { f with requests := f.requests.filter (·.seat ≠ n) }) := by
    split
    · next none_ => exact h.dequeue_none none_ why
    · next some_ => exact h.dequeue some_ why
  have dropped (d : Claim) (y : State) (h : d.Shows y) : (d.dropReply n why).Shows (match y.floor.replyOf n with
      | none => y
      | some e => ((y.notify ⟨.replyDropped, .seat n, some (codeIn reasonRow why), [detailOf e.target]⟩).raise .reply).modFloor
        fun f => { f with replies := f.replies.filter (·.seat ≠ n) }) := by
    cases hn : y.floor.replyOf n with
    | none => exact h.dropReply_none hn why
    | some e => exact h.dropReply hn why
  exact ((((dropped _ _ dequeued).closeSlotOf n why).closeChairOf n why).dropHeld n why)

/-! ### Presses refused -/

/-- A press is refused (R18, R30). -/
theorem refuse (h : c.Shows x) (n : Nat) (b : Button) (why : PressRefusal) : (c.refuse n b why).Shows
    (x.notify ⟨.refused, .seat n, some (codeIn refusalRow why), [detailCode (codeIn buttonRow b)]⟩) := by
  have told := h.notify (.ofSeat .refused n (codeIn refusalRow why) [detailCode (codeIn buttonRow b)])
  unfold Claim.refuse
  dsimp only
  split
  · exact told
  · exact (told.modSeat n _).touch n

end Shows
end Claim
namespace Claim

/-! ### The bookkeeping of an event: no operation but a grant takes an entry off the request list (R49) -/

@[simp] theorem setPhase_tookEntry (c : Claim) (p : Phase) : (c.setPhase p).tookEntry = c.tookEntry := by
  unfold setPhase; split <;> rfl
@[simp] theorem beginRound_tookEntry (c : Claim) (n : Nat) : (c.beginRound n).tookEntry = c.tookEntry := by
  simp [beginRound]
@[simp] theorem endRound_tookEntry (c : Claim) : c.endRound.tookEntry = c.tookEntry := by
  simp [endRound]
@[simp] theorem releaseSlot_tookEntry (c : Claim) (i : Fin 6) (why : Reason) : (c.releaseSlot i why).tookEntry = c.tookEntry := by
  unfold releaseSlot; split <;> simp
@[simp] theorem closeSlot_tookEntry (c : Claim) (i : Fin 6) (why : Reason) : (c.closeSlot i why).tookEntry = c.tookEntry := by
  unfold closeSlot; split
  · rfl
  · dsimp only
    repeat' split
    all_goals simp
@[simp] theorem grantReply_tookEntry (c : Claim) (n : Nat) : (c.grantReply n).tookEntry = c.tookEntry := by
  unfold grantReply; split <;> simp
@[simp] theorem serve_tookEntry (c : Claim) : c.serve.tookEntry = c.tookEntry := by
  unfold serve; repeat' split
  all_goals simp
@[simp] theorem dequeue_tookEntry (c : Claim) (n : Nat) (why : Reason) : (c.dequeue n why).tookEntry = c.tookEntry := by
  unfold dequeue; split <;> simp
@[simp] theorem dropReply_tookEntry (c : Claim) (n : Nat) (why : Reason) : (c.dropReply n why).tookEntry = c.tookEntry := by
  unfold dropReply; split <;> simp
@[simp] theorem closeChair_tookEntry (c : Claim) (i : Fin 2) (why : Reason) : (c.closeChair i why).tookEntry = c.tookEntry := by
  unfold closeChair; split <;> simp
@[simp] theorem setChairMode_tookEntry (c : Claim) (i : Fin 2) (m : ChairState) : (c.setChairMode i m).tookEntry = c.tookEntry := by
  unfold setChairMode; split
  · rfl
  · split <;> rfl
@[simp] theorem refuse_tookEntry (c : Claim) (n : Nat) (b : Button) (why : PressRefusal) :
    (c.refuse n b why).tookEntry = c.tookEntry := by
  unfold refuse; dsimp only; split <;> simp

/-- Work in a row of which no step takes an entry. -/
theorem foldl_tookEntry {α : Type} {f : Claim → α → Claim} (step : ∀ (c : Claim) (a : α), (f c a).tookEntry = c.tookEntry)
    (l : List α) (c : Claim) : (l.foldl f c).tookEntry = c.tookEntry := by
  induction l generalizing c with
  | nil => rfl
  | cons a l ih => exact (ih _).trans (step c a)

@[simp] theorem clearRequests_tookEntry (c : Claim) (why : Reason) : (c.clearRequests why).tookEntry = c.tookEntry :=
  foldl_tookEntry (fun c e => by simp) _ _
@[simp] theorem clearReplies_tookEntry (c : Claim) (why : Reason) : (c.clearReplies why).tookEntry = c.tookEntry := by
  unfold clearReplies; dsimp only; split
  · rfl
  · exact foldl_tookEntry (fun c e => by simp) _ _
@[simp] theorem dropHeld_tookEntry (c : Claim) (n : Nat) (why : Reason) : (c.dropHeld n why).tookEntry = c.tookEntry := by
  unfold dropHeld; dsimp only; split
  · rw [touch_tookEntry, raise_tookEntry, foldl_tookEntry fun c e => notify_tookEntry c _,
      foldl_tookEntry fun c e => notify_tookEntry c _, modFloor_tookEntry]
  · rfl
@[simp] theorem removeSeat_tookEntry (c : Claim) (n : Nat) (why : Reason) : (c.removeSeat n why).tookEntry = c.tookEntry := by
  unfold removeSeat closeChairOf closeSlotOf
  rw [dropHeld_tookEntry]
  repeat' split
  all_goals simp
@[simp] theorem discardFrames_tookEntry (c : Claim) : c.discardFrames.tookEntry = c.tookEntry := by
  unfold discardFrames; dsimp only; split
  · rfl
  · exact foldl_tookEntry (fun c fr => by simp) _ _
@[simp] theorem clearFloor_tookEntry (c : Claim) : c.clearFloor.tookEntry = c.tookEntry := by
  unfold clearFloor; dsimp only
  rw [clearReplies_tookEntry, foldl_tookEntry fun c x => releaseSlot_tookEntry c _ _,
    foldl_tookEntry fun c i => setChairMode_tookEntry c _ _, discardFrames_tookEntry]
@[simp] theorem haltFloor_tookEntry (c : Claim) : c.haltFloor.tookEntry = c.tookEntry := by
  unfold haltFloor; split <;> simp
@[simp] theorem closeGate_tookEntry (c : Claim) : c.closeGate.tookEntry = c.tookEntry := by
  unfold closeGate; split <;> rfl

/-! ### The serve point and the end of an event -/

/-- In REPLY_ROUND what follows a serve point is the serve point, and the fill when that ended the round (R92, R94). -/
theorem settleFloor_round (c : Claim) (h : c.floor.phase = .replyRound) (due : c.fillDue = true ∨ c.serveDue = true) :
    c.settleFloor = { (if c.serve.floor.phase = .openFloor then c.serve.fill else c.serve) with
      fillDue := false, serveDue := false } := by
  unfold Claim.settleFloor
  simp only [h, if_pos due]

namespace Shows

variable {c : Claim} {x : State}

/-- What follows an event where the rules fix it without a fill (R50, R92). -/
theorem settleFloor (h : c.Shows x) (due : x.floor.phase = .replyRound → c.fillDue = true ∨ c.serveDue = true)
    (here : c.st.firstPresentReply = x.firstPresentReply) {y : State} (hy : x.settled = some y) :
    c.settleFloor.Shows y ∧ y.floor.requests = x.floor.requests ∧ c.settleFloor.tookEntry = c.tookEntry := by
  have quiet : ({ c with fillDue := false, serveDue := false } : Claim).Shows x := h.of_st rfl
  unfold State.settled at hy
  cases hp : x.floor.phase with
  | halted =>
    rw [hp] at hy
    obtain rfl : x = y := Option.some.inj hy
    rw [settleFloor_shut c (.inl (h.floor ▸ hp))]
    exact ⟨quiet, rfl, rfl⟩
  | interrupted =>
    rw [hp] at hy
    obtain rfl : x = y := Option.some.inj hy
    rw [settleFloor_shut c (.inr (h.floor ▸ hp))]
    exact ⟨quiet, rfl, rfl⟩
  | openFloor =>
    simp only [hp] at hy
    split at hy
    · next manual =>
      obtain rfl : x = y := Option.some.inj hy
      rw [settleFloor_manual c (h.floor ▸ hp) (h.policy ▸ manual)]
      exact ⟨quiet, rfl, rfl⟩
    · cases hy
  | replyRound =>
    have round : c.floor.phase = .replyRound := h.floor ▸ hp
    -- a serve point that stays in the round is the whole of what follows
    have stays {z : State} (served : c.serve.Shows z) (hz : z.floor.phase = .replyRound)
        (requests : z.floor.requests = x.floor.requests) (e : z = y) :
        c.settleFloor.Shows y ∧ y.floor.requests = x.floor.requests ∧ c.settleFloor.tookEntry = c.tookEntry := by
      subst e
      have inRound : c.serve.floor.phase ≠ .openFloor := by
        rw [served.floor, hz]
        decide
      rw [settleFloor_round c round (due hp), if_neg inRound]
      exact ⟨served.of_st rfl, requests, serve_tookEntry c⟩
    simp only [hp] at hy
    split at hy
    · next open_ =>
      have served : c.serve.Shows x := by
        unfold Claim.serve
        rw [h.floor, if_pos (Option.isSome_iff_ne_none.mpr open_)]
        exact h
      exact stays served hp rfl (Option.some.inj hy)
    · next noSlot =>
      have notServing : ¬ c.floor.replySlot.isSome = true := by
        rw [h.floor, Option.isSome_iff_ne_none]
        exact noSlot
      split at hy
      · next noReply =>
        have ended : c.serve.Shows x.roundEnded := by
          unfold Claim.serve
          rw [if_neg notServing, if_pos (h.floor ▸ noReply)]
          exact h.endRound hp
        split at hy
        · next manual =>
          obtain rfl : x.roundEnded = y := Option.some.inj hy
          have isOpen : c.serve.floor.phase = .openFloor := by rw [ended.floor]; rfl
          have noFill : c.serve.fill = c.serve := by
            unfold Claim.fill
            refine if_neg fun auto => ?_
            rw [ended.policy] at auto
            exact absurd (manual.symm.trans auto.2) (by decide)
          rw [settleFloor_round c round (due hp), if_pos isOpen, noFill]
          exact ⟨ended.of_st rfl, rfl, serve_tookEntry c⟩
        · cases hy
      · next someReply =>
        have waiting : ¬ c.floor.replies = [] := by rw [h.floor]; exact someReply
        split at hy
        · next room =>
          have roomHere : c.floor.openCount < c.policy.floorMax := by rw [h.floor, h.policy]; exact room
          cases he : x.firstPresentReply with
          | none =>
            have waits : c.serve = c := by
              unfold Claim.serve
              rw [if_neg notServing, if_neg waiting, if_pos roomHere, here, he]
            simp only [he] at hy
            exact stays (by rw [waits]; exact h) hp rfl (Option.some.inj hy)
          | some e =>
            have grants : c.serve = c.grantReply e.seat := by
              unfold Claim.serve
              rw [if_neg notServing, if_neg waiting, if_pos roomHere, here, he]
            cases hj : x.floor.freeSlot with
            | none =>
              have full : c.grantReply e.seat = c := by
                unfold Claim.grantReply
                rw [h.floor, hj]
              simp only [he, hj] at hy
              exact stays (by rw [grants, full]; exact h) hp rfl (Option.some.inj hy)
            | some j =>
              simp only [he, hj] at hy
              exact stays (z := x.replyGranted j e.seat) (by rw [grants]; exact h.grantReply hj e.seat) hp rfl (Option.some.inj hy)
        · next full =>
          have fullHere : ¬ c.floor.openCount < c.policy.floorMax := by rw [h.floor, h.policy]; exact full
          have served : c.serve.Shows x := by
            unfold Claim.serve
            rw [if_neg notServing, if_neg waiting, if_neg fullHere]
            exact h
          exact stays served hp rfl (Option.some.inj hy)

end Shows

/-! ### The fill leaves no present entry beside a free place (R50) -/

/-- In OPEN with no reply entry waiting a close changes the slots alone of the floor. -/
theorem closeSlot_floor_noReplies (c : Claim) {i : Fin 6} {d : DelegateSlot} (hd : c.floor.slots[i] = some d)
    (hp : c.floor.phase = .openFloor) (hr : c.floor.replies = []) (why : Reason) :
    (c.closeSlot i why).floor = { c.floor with slots := c.floor.slots.set i none } := by
  rw [((Shows.self c).closeSlot hd why).floor]
  unfold State.slotClosed
  dsimp only
  rw [if_neg fun begins => begins.2.1 hr, if_neg fun ends => absurd (hp.symm.trans ends.1) (by decide)]
  rfl

/-- A grant takes the seat's entry, and its place. -/
theorem grantSpeak_floor (c : Claim) {j : Fin 6} (hj : c.floor.freeSlot = some j) (n : Nat) (o : Origin) (a : Option Nat) :
    ∃ d, (c.grantSpeak n o a).floor = { c.floor with
      requests := c.floor.requests.filter (·.seat ≠ n), slots := c.floor.slots.set j (some d) } := by
  refine ⟨slotNow c.time c.policy.warnLead n .speak o (c.speakAllowance n a), ?_⟩
  rw [((Shows.self c).grantSpeak hj n o a).floor]
  unfold State.speakEntered
  split <;> rfl

/-- The slot that displacement would close is open. -/
theorem displaced_some (c : Claim) {i : Fin 6} (h : c.displaced = some i) : ∃ d, c.floor.slots[i] = some d := by
  unfold displaced at h
  split at h
  · obtain ⟨⟨j, d⟩, found, rfl⟩ := Option.map_eq_some_iff.mp h
    exact ⟨d, Floor.mem_slotsByAge.mp (List.mem_of_find?_eq_some found)⟩
  · cases h

/-- The presence of a seat is none of the floor's. -/
theorem isHere_of_frame {s t : State} (h : s.FloorFrame t) (n : Nat) : t.isHere n = s.isHere n := by
  unfold State.isHere
  rw [(h.binding n).2]

/-- What the fill's loop has left when it ends: an OPEN floor under the same policy with no reply entry, and no present entry beside
a free place (R50). -/
structure Filled (c d : Claim) : Prop where
  phase : d.floor.phase = .openFloor
  policy : d.policy = c.policy
  replies : d.floor.replies = []
  none_ : d.floor.openCount < d.policy.floorMax → d.st.firstPresent = none

/-- The loop fills an OPEN floor on which no reply entry waits. -/
theorem fillLoop_filled (k : Nat) (c : Claim) (hp : c.floor.phase = .openFloor) (hm : c.policy.floorMax ≤ 6)
    (hr : c.floor.replies = []) (hk : c.floor.requests.length ≤ k) : c.Filled (fillLoop k c) := by
  induction k generalizing c with
  | zero =>
    have empty : c.st.floor.requests = [] := List.length_eq_zero_iff.mp (Nat.le_zero.mp hk)
    exact ⟨hp, rfl, hr, fun _ => by simp [fillLoop, State.firstPresent, empty]⟩
  | succ k ih =>
    -- one turn: the grant takes the entry, so that the rest of the turns suffice
    have turn (d : Claim) {e : RequestEntry} (he : e ∈ c.floor.requests) (dp : d.floor.phase = .openFloor)
        (dq : d.policy = c.policy) (dr : d.floor.replies = []) (dl : d.floor.requests = c.floor.requests)
        (free : ∃ j, d.floor.freeSlot = some j) : c.Filled (fillLoop k (d.grantSpeak e.seat .auto none)) := by
      obtain ⟨j, hj⟩ := free
      obtain ⟨x, floor⟩ := d.grantSpeak_floor hj e.seat .auto none
      have shorter : (d.grantSpeak e.seat .auto none).floor.requests.length ≤ k := by
        rw [floor]
        have lost : (d.floor.requests.filter (·.seat ≠ e.seat)).length < d.floor.requests.length :=
          List.length_filter_lt_length_iff_exists.mpr ⟨e, dl ▸ he, by simp⟩
        exact Nat.lt_succ_iff.mp (lost.trans_le (dl ▸ hk))
      have filled := ih (d.grantSpeak e.seat .auto none) (by rw [floor]; exact dp)
        (by show (d.grantSpeak e.seat .auto none).floor.policy.floorMax ≤ 6; rw [floor, show d.floor.policy = _ from dq]; exact hm)
        (by rw [floor]; exact dr) shorter
      have kept : (d.grantSpeak e.seat .auto none).policy = c.policy := by
        show (d.grantSpeak e.seat .auto none).floor.policy = _
        rw [floor]
        exact dq
      exact ⟨filled.phase, filled.policy.trans kept, filled.replies, filled.none_⟩
    unfold fillLoop
    cases found : c.st.firstPresent with
    | none => exact ⟨hp, rfl, hr, fun _ => found⟩
    | some e =>
      have he : e ∈ c.floor.requests := List.mem_of_find?_eq_some found
      dsimp only
      split
      · next room => exact turn c he hp rfl hr rfl (Floor.freeSlot_of_count (room.trans_le hm))
      · next full =>
        cases hd : c.displaced with
        | none => exact ⟨hp, rfl, hr, fun room => absurd room full⟩
        | some i =>
          obtain ⟨d, hs⟩ := c.displaced_some hd
          have floor := c.closeSlot_floor_noReplies hs hp hr .evict
          dsimp only
          rw [floor, if_pos (show ({ c.floor with slots := c.floor.slots.set i none } : Floor).phase = .openFloor from hp)]
          refine turn (c.closeSlot i .evict) he (by rw [floor]; exact hp) (by show (c.closeSlot i .evict).floor.policy = _; rw [floor])
            (by rw [floor]; exact hr) (by rw [floor]) ?_
          rw [floor]
          exact Floor.freeSlot_of_none (i := i) (by simp)

/-- At a fill point of an OPEN floor under AUTO on which no reply entry waits, the fill is what follows (R50). -/
theorem settleFloor_filled (c : Claim) (hp : c.floor.phase = .openFloor) (ha : c.policy.grantMode = .auto)
    (hm : c.policy.floorMax ≤ 6) (hr : c.floor.replies = []) (due : c.fillDue = true) :
    c.Filled c.settleFloor := by
  have fill : c.fill = fillLoop c.floor.requests.length c := if_pos ⟨hp, ha⟩
  have filled : c.Filled c.fill := fill ▸ c.fillLoop_filled _ hp hm hr le_rfl
  have settled : c.settleFloor = { c.fill with fillDue := false, serveDue := false } := by
    have notRound : ¬ c.fill.floor.phase = .replyRound := by
      rw [filled.phase]
      decide
    unfold settleFloor
    simp only [hp, if_pos due, if_neg notRound]
  rw [settled]
  exact ⟨filled.phase, filled.policy, filled.replies, filled.none_⟩

end Claim

namespace State

/-! ### The end of an event on the state (R22, R23) -/

/-- The request list's version is counted at the end of an event, with the LIST flag, where it is due (R22, R23). -/
def counted (x : State) (due : Bool) : State :=
  if due then (x.raise .list).modFloor fun f => { f with listVersion := f.listVersion + 1 } else x

/-- The version and the LIST flag concern the floor and the reports. -/
@[simp] theorem counted_seats (x : State) (due : Bool) : (x.counted due).seats = x.seats := by cases due <;> rfl
@[simp] theorem counted_timeBase (x : State) (due : Bool) : (x.counted due).timeBase = x.timeBase := by cases due <;> rfl

/-- The floor with its version counted. -/
theorem counted_floor (x : State) (due : Bool) : (x.counted due).floor =
    { x.floor with listVersion := if due then x.floor.listVersion + 1 else x.floor.listVersion } := by
  cases due <;> rfl

/-- The reports with the LIST flag. -/
theorem counted_report (x : State) (due : Bool) : (x.counted due).report = if due then (x.raise .list).report else x.report := by
  cases due <;> rfl

/-- The version is counted when the event left the list different: the words of the statements (listTold). -/
theorem listTold_eq (x s : State) : x.listTold s = x.counted (decide (x.floor.requests ≠ s.floor.requests)) := by
  unfold listTold counted
  by_cases same : x.floor.requests = s.floor.requests <;> simp [same]

/-- Two flags raised, in either order. -/
theorem raise_comm (x : State) (e f : EventFlag) : (x.raise e).raise f = (x.raise f).raise e := by
  have link (r : LinkReport) : (r.raise e).raise f = (r.raise f).raise e := by
    simp only [LinkReport.raise, BitVec.or_assoc, BitVec.or_comm e.set f.set]
  unfold raise modBothReports
  simp only [link]

/-- A flag raised twice. -/
theorem raise_raise (x : State) (e : EventFlag) : (x.raise e).raise e = x.raise e := by
  have link (r : LinkReport) : (r.raise e).raise e = r.raise e := by
    simp only [LinkReport.raise, BitVec.or_assoc, BitVec.or_self]
  unfold raise modBothReports
  simp only [link]

/-- A flag raised and a notice offered, in either order. -/
theorem notify_raise (x : State) (e : EventFlag) (n : Notice) : (x.raise e).notify n = (x.notify n).raise e := by
  have link (r : LinkReport) : (r.raise e).offer x.time n = (r.offer x.time n).raise e := by
    unfold LinkReport.offer
    repeat' split
    all_goals simp_all only [LinkReport.raise, BitVec.or_assoc, BitVec.or_comm e.set]
    all_goals contradiction
  simp only [State.time] at link
  unfold notify raise modBothReports
  simp only [State.time, link]

/-- The end of the round, and the version counted, in either order. -/
theorem roundEnded_counted (x : State) (due : Bool) : (x.counted due).roundEnded = x.roundEnded.counted due := by
  cases due with
  | false => rfl
  | true =>
    unfold roundEnded counted
    simp only [if_true, notify_modFloor, raise_modFloor, notify_raise]
    rw [raise_comm _ .list .floor]
    rfl

/-- The grant of a REPLY slot, and the version counted, in either order. -/
theorem replyGranted_counted (x : State) (due : Bool) (j : Fin 6) (n : Nat) :
    (x.counted due).replyGranted j n = (x.replyGranted j n).counted due := by
  cases due with
  | false => rfl
  | true =>
    unfold replyGranted counted
    simp only [if_true, notify_modFloor, raise_modFloor, notify_raise]
    rw [raise_comm _ .list .floor, raise_comm _ .list .reply]
    rfl

/-- What the rules fix after an event, and the version counted, in either order. -/
theorem settled_counted (x : State) (due : Bool) : (x.counted due).settled = x.settled.map (·.counted due) := by
  cases due with
  | false =>
    show x.settled = x.settled.map id
    rw [Option.map_id_fun, id]
  | true =>
    have reply : (x.counted true).firstPresentReply = x.firstPresentReply := rfl
    have slot : (x.counted true).floor.replySlot = x.floor.replySlot := rfl
    have replies : (x.counted true).floor.replies = x.floor.replies := rfl
    have count : (x.counted true).floor.openCount = x.floor.openCount := rfl
    have policy : (x.counted true).floor.policy = x.floor.policy := rfl
    have free : (x.counted true).floor.freeSlot = x.floor.freeSlot := rfl
    have phase : (x.counted true).floor.phase = x.floor.phase := rfl
    unfold settled
    simp only [reply, slot, replies, count, policy, free, phase, roundEnded_counted, replyGranted_counted]
    cases x.floor.phase with
    | halted | interrupted => rfl
    | openFloor =>
      dsimp only
      split <;> rfl
    | replyRound =>
      dsimp only
      cases x.firstPresentReply <;> cases x.floor.freeSlot <;> dsimp only <;> repeat' split
      all_goals rfl

/-- The first present request entry is absent exactly when no entry's seat is present. -/
theorem firstPresent_eq_none {x : State} : x.firstPresent = none ↔ ∀ e ∈ x.floor.requests, x.isHere e.seat = false := by
  simp [firstPresent, List.find?_eq_none]

/-- An event's version is due when the event left the list different, or a grant within it took an entry (R22, R49). -/
def versionDue (s : State) (c : Claim) : Bool := decide (s.floor.requests ≠ c.floor.requests) || c.tookEntry

/-- The floor and the reports of an event are those of its body and the fill or the serve point, with the version counted. -/
theorem event_counted (s : State) (body : Claim → Claim) {y : State} (h : (body (.start s)).settleFloor.Shows y) :
    (s.event body).floor = (y.counted (s.versionDue (body (.start s)).settleFloor)).floor ∧
      (s.event body).report = (y.counted (s.versionDue (body (.start s)).settleFloor)).report := by
  rw [event_floor, event_report]
  generalize (body (.start s)).settleFloor = c at h
  have raised : (c.st.raise .list).report = (y.raise .list).report := (h.raise .list).report
  by_cases due : s.floor.requests ≠ c.floor.requests ∨ c.tookEntry = true
  · have dueB : s.versionDue c = true := by simpa [versionDue] using due
    rw [if_pos due, if_pos due, dueB, h.floor]
    exact ⟨rfl, raised⟩
  · have dueB : s.versionDue c = false := by simpa [versionDue] using due
    rw [if_neg due, if_neg due, dueB]
    exact ⟨h.floor, h.report⟩

/-- The presence of the seats after an event is that of its body and the fill or the serve point. -/
theorem event_isHere (s : State) (body : Claim → Claim) (n : Nat) :
    (s.event body).isHere n = (body (.start s)).st.isHere n := by
  rw [← Claim.isHere_of_frame (Claim.settleFloor_frame (.refl (body (.start s)).st)) n]
  unfold isHere
  rw [event_seat]

section Settling

variable {s x : State} {body : Claim → Claim}

/-- Where the rules fix what follows an event, that is what follows (R50, R92). -/
theorem event_fixed (h : (body (.start s)).Shows x)
    (due : x.floor.phase = .replyRound → (body (.start s)).fillDue = true ∨ (body (.start s)).serveDue = true)
    (here : (body (.start s)).st.firstPresentReply = x.firstPresentReply) {y : State}
    (hy : (x.counted (s.versionDue (body (.start s)))).settled = some y) :
    (s.event body).floor = y.floor ∧ (s.event body).report = y.report := by
  rw [settled_counted] at hy
  obtain ⟨z, hz, rfl⟩ := Option.map_eq_some_iff.mp hy
  obtain ⟨shows_, requests, took⟩ := h.settleFloor due here hz
  have same : s.versionDue (body (.start s)).settleFloor = s.versionDue (body (.start s)) := by
    unfold versionDue
    rw [took, shows_.floor, requests, h.floor]
  rw [← same]
  exact s.event_counted body shows_

/-- An event that is a fill point, and in REPLY_ROUND a serve point (R50, R92). -/
theorem event_settles (h : (body (.start s)).Shows x) (fill : x.floor.phase = .openFloor → (body (.start s)).fillDue = true)
    (serve : x.floor.phase = .replyRound → (body (.start s)).fillDue = true ∨ (body (.start s)).serveDue = true)
    (here : (body (.start s)).st.firstPresentReply = x.firstPresentReply) :
    (x.counted (s.versionDue (body (.start s)))).Settles (s.event body) := by
  refine ⟨fun y hy => event_fixed h serve here hy, fun hp ha hm hr room e he => ?_⟩
  rw [counted_floor] at hp ha hm hr room
  have filled := (body (.start s)).settleFloor_filled (h.floor ▸ hp) (h.policy ▸ ha) (h.policy ▸ hm) (h.floor ▸ hr) (fill hp)
  obtain ⟨floor, -⟩ := s.event_counted body (Claim.Shows.self (body (.start s)).settleFloor)
  rw [counted_floor] at floor
  have none_ : (body (.start s)).settleFloor.st.firstPresent = none := by
    refine filled.none_ ?_
    rw [filled.policy, h.policy]
    rw [floor] at room
    exact room
  rw [floor] at he
  rw [event_isHere, ← Claim.isHere_of_frame (Claim.settleFloor_frame (.refl (body (.start s)).st)) e.seat]
  exact firstPresent_eq_none.mp none_ e he

/-- An event that is a serve point alone: in OPEN nothing follows (R92). -/
theorem event_roundSettles (h : (body (.start s)).Shows x) (fill : x.floor.phase = .openFloor → (body (.start s)).fillDue = false)
    (serve : x.floor.phase = .replyRound → (body (.start s)).fillDue = true ∨ (body (.start s)).serveDue = true)
    (here : (body (.start s)).st.firstPresentReply = x.firstPresentReply) :
    (x.counted (s.versionDue (body (.start s)))).roundSettles (s.event body) := by
  constructor
  · intro other
    have quiet : (body (.start s)).settleFloor = { body (.start s) with fillDue := false, serveDue := false } := by
      rw [counted_floor] at other
      cases hp : x.floor.phase with
      | halted => exact Claim.settleFloor_shut _ (.inl (h.floor ▸ hp))
      | interrupted => exact Claim.settleFloor_shut _ (.inr (h.floor ▸ hp))
      | openFloor => exact Claim.settleFloor_quiet _ (h.floor ▸ hp) (fill hp)
      | replyRound => exact absurd hp other
    have shows_ : (body (.start s)).settleFloor.Shows x := h.of_st (by rw [quiet])
    have counted := s.event_counted body shows_
    rw [quiet] at counted
    exact counted
  · intro round
    rw [counted_floor] at round
    refine event_settles h (fun hp => absurd (hp.symm.trans round) (by decide)) serve here

end Settling

end State

end Sys2Proof.Machine
end

section
/-! SUPPORT. Events after which nothing follows, what the operations on the delegate slots leave as it was, and with these the
request list's commands (R36 to R41). -/

namespace Sys2Proof.Machine

namespace Claim

/-! ### The bookkeeping of an event: the serve point, and what is no fill point -/

@[simp] theorem touchAll_serveDue (c : Claim) (ns : List Nat) : (c.touchAll ns).serveDue = c.serveDue := by
  unfold touchAll
  induction ns generalizing c with
  | nil => rfl
  | cons n ns ih => rw [List.foldl_cons, ih, touch_serveDue]
@[simp] theorem trackHead_serveDue (c : Claim) (f : Claim → Claim) : (c.trackHead f).serveDue = (f c).serveDue := by
  unfold trackHead; dsimp only; split <;> simp
@[simp] theorem modFloor_serveDue (c : Claim) (f : Floor → Floor) : (c.modFloor f).serveDue = c.serveDue := rfl
@[simp] theorem modSeat_serveDue (c : Claim) (n : Nat) (f : SeatRecord → SeatRecord) : (c.modSeat n f).serveDue = c.serveDue := rfl
@[simp] theorem raise_serveDue (c : Claim) (e : EventFlag) : (c.raise e).serveDue = c.serveDue := rfl
@[simp] theorem notify_serveDue (c : Claim) (n : Notice) : (c.notify n).serveDue = c.serveDue := rfl
@[simp] theorem fillPoint_serveDue (c : Claim) : c.fillPoint.serveDue = c.serveDue := rfl
@[simp] theorem servePoint_serveDue (c : Claim) : c.servePoint.serveDue = true := rfl

/-- The operation is no fill point and no serve point: what is due after it was due before (R50, R92). -/
structure SameDue (c d : Claim) : Prop where
  fill : d.fillDue = c.fillDue
  serve : d.serveDue = c.serveDue

namespace SameDue

variable {c d : Claim}

theorem refl (c : Claim) : c.SameDue c := ⟨rfl, rfl⟩

theorem trans {e : Claim} (h : c.SameDue d) (g : d.SameDue e) : c.SameDue e := ⟨g.fill.trans h.fill, g.serve.trans h.serve⟩

theorem foldl {α : Type} {f : Claim → α → Claim} (step : ∀ (c : Claim) (a : α), c.SameDue (f c a)) (l : List α) (c : Claim) :
    c.SameDue (l.foldl f c) := by
  induction l generalizing c with
  | nil => exact refl c
  | cons a l ih => exact (step c a).trans (ih _)

theorem dequeue (c : Claim) (n : Nat) (why : Reason) : c.SameDue (c.dequeue n why) := by
  unfold Claim.dequeue
  split
  · exact ⟨by simp, by simp⟩
  · exact refl c

theorem clearRequests (c : Claim) (why : Reason) : c.SameDue (c.clearRequests why) :=
  (SameDue.mk (by simp) (by simp) : c.SameDue (c.modFloor fun f => { f with requests := [] })).trans
    (foldl (fun c e => ⟨by simp, by simp⟩) _ _)

theorem refuse (c : Claim) (n : Nat) (b : Button) (why : PressRefusal) : c.SameDue (c.refuse n b why) := by
  unfold Claim.refuse
  dsimp only
  split
  · exact ⟨rfl, rfl⟩
  · exact ⟨by simp, by simp⟩

theorem setChairMode (c : Claim) (i : Fin 2) (m : ChairState) : c.SameDue (c.setChairMode i m) := by
  unfold Claim.setChairMode
  repeat' split
  all_goals exact ⟨rfl, rfl⟩

theorem openChair (c : Claim) (i : Fin 2) (n : Nat) (m : ChairState) : c.SameDue (c.openChair i n m) := ⟨by simp [Claim.openChair], by
  simp [Claim.openChair]⟩

theorem closeChair (c : Claim) (i : Fin 2) (why : Reason) : c.SameDue (c.closeChair i why) := by
  unfold Claim.closeChair
  split
  · exact refl c
  · exact ⟨by simp, by simp⟩

theorem releaseSlot (c : Claim) (i : Fin 6) (why : Reason) : c.SameDue (c.releaseSlot i why) := by
  unfold Claim.releaseSlot
  split
  · exact refl c
  · exact ⟨by simp, by simp⟩

theorem grantSpeak (c : Claim) (n : Nat) (o : Origin) (a : Option Nat) : c.SameDue (c.grantSpeak n o a) := by
  unfold Claim.grantSpeak
  split
  · exact refl c
  · dsimp only
    split <;> exact ⟨by simp, by simp⟩

theorem enqueue (c : Claim) (i : Nat) (e : RequestEntry) : c.SameDue (c.enqueue i e) := ⟨by simp [Claim.enqueue], by
  simp [Claim.enqueue]⟩

end SameDue

/-! ### Events after which nothing follows -/

/-- Where nothing is due nothing follows an event. -/
theorem settleFloor_noDue (c : Claim) (fill : c.fillDue = false) (serve : c.serveDue = false) :
    c.settleFloor = { c with fillDue := false, serveDue := false } := by
  unfold settleFloor
  cases hp : c.floor.phase <;> simp [fill, serve]

/-- On a floor whose fill point grants and serves nothing, nothing follows an event (R50, R92). -/
theorem settleFloor_noFill (c : Claim) (h : c.st.noFill) : c.settleFloor = { c with fillDue := false, serveDue := false } := by
  rcases h with halted | interrupted | ⟨open_, manual⟩
  · exact settleFloor_shut c (.inl halted)
  · exact settleFloor_shut c (.inr interrupted)
  · exact settleFloor_manual c open_ manual

end Claim

namespace State

variable {s x : State} {body : Claim → Claim}

/-- An event after whose body nothing follows leaves what its body shows, with the version counted. -/
theorem event_shown (h : (body (.start s)).Shows x)
    (quiet : (body (.start s)).settleFloor = { body (.start s) with fillDue := false, serveDue := false }) :
    (s.event body).floor = (x.counted (s.versionDue (body (.start s)))).floor ∧
      (s.event body).report = (x.counted (s.versionDue (body (.start s)))).report := by
  have counted := s.event_counted body (h.of_st (by rw [quiet]))
  rw [quiet] at counted
  exact counted

/-- The same where nothing is due. -/
theorem event_undue (h : (body (.start s)).Shows x) (due : (Claim.start s).SameDue (body (.start s))) :
    (s.event body).floor = (x.counted (s.versionDue (body (.start s)))).floor ∧
      (s.event body).report = (x.counted (s.versionDue (body (.start s)))).report :=
  event_shown h (Claim.settleFloor_noDue _ due.fill due.serve)

/-- A fill point of this floor grants and serves nothing: it rests on the phase and the policy. -/
theorem noFill_congr {t : State} (h : s.noFill) (phase : t.floor.phase = s.floor.phase) (policy : t.floor.policy = s.floor.policy) :
    t.noFill := by
  unfold noFill at *
  rw [phase, policy]
  exact h

end State

/-! ### What the operations on the delegate slots and the lists leave of the floor -/

/-- The floor keeps its chairs, gate, stack, policy, hold and draw state, and its phase but for the change between OPEN and
REPLY_ROUND. -/
structure Floor.Steady (f g : Floor) : Prop where
  chairs : g.chairs = f.chairs
  gate : g.gate = f.gate
  stack : g.stack = f.stack
  policy : g.policy = f.policy
  hold : g.hold = f.hold
  draw : g.draw = f.draw
  phase : g.phase = f.phase ∨ (f.phase = .openFloor ∨ f.phase = .replyRound) ∧ (g.phase = .openFloor ∨ g.phase = .replyRound)

namespace Floor.Steady

theorem refl (f : Floor) : f.Steady f := ⟨rfl, rfl, rfl, rfl, rfl, rfl, .inl rfl⟩

theorem trans {f g h : Floor} (a : f.Steady g) (b : g.Steady h) : f.Steady h where
  chairs := b.chairs.trans a.chairs
  gate := b.gate.trans a.gate
  stack := b.stack.trans a.stack
  policy := b.policy.trans a.policy
  hold := b.hold.trans a.hold
  draw := b.draw.trans a.draw
  phase := by
    have p := a.phase
    have q := b.phase
    rcases p with p | ⟨p, r⟩
    · rw [p] at q
      exact q
    · rcases q with q | ⟨-, q⟩
      · exact .inr ⟨p, q ▸ r⟩
      · exact .inr ⟨p, q⟩

/-- A change of the delegate slots, the lists, the version and the subject. -/
theorem ofSame {f g : Floor} (chairs : g.chairs = f.chairs) (gate : g.gate = f.gate) (stack : g.stack = f.stack)
    (policy : g.policy = f.policy) (hold : g.hold = f.hold) (draw : g.draw = f.draw) (phase : g.phase = f.phase) : f.Steady g :=
  ⟨chairs, gate, stack, policy, hold, draw, .inl phase⟩

end Floor.Steady

namespace State

/-- The close of a slot. -/
theorem slotClosed_steady (s : State) (i : Fin 6) (d : DelegateSlot) (why : Byte) : s.floor.Steady (s.slotClosed i d why).floor := by
  unfold slotClosed
  dsimp only
  split
  · next begins => exact ⟨rfl, rfl, rfl, rfl, rfl, rfl, .inr ⟨.inl begins.1, .inr rfl⟩⟩
  · split
    · next ends => exact ⟨rfl, rfl, rfl, rfl, rfl, rfl, .inr ⟨.inr ends.1, .inl rfl⟩⟩
    · exact .ofSame rfl rfl rfl rfl rfl rfl rfl

end State

namespace Claim

/-- The close of a slot, and of no slot. -/
theorem closeSlot_steady (c : Claim) (i : Fin 6) (why : Reason) : c.floor.Steady (c.closeSlot i why).floor := by
  cases hd : c.floor.slots[i] with
  | none =>
    unfold closeSlot
    rw [hd]
    exact .refl _
  | some d =>
    rw [((Shows.self c).closeSlot hd why).floor]
    exact State.slotClosed_steady _ _ _ _

/-- The grant of a SPEAK slot, and of none. -/
theorem grantSpeak_steady (c : Claim) (n : Nat) (o : Origin) (a : Option Nat) : c.floor.Steady (c.grantSpeak n o a).floor := by
  cases hj : c.floor.freeSlot with
  | none =>
    unfold grantSpeak
    rw [hj]
    exact .refl _
  | some j =>
    obtain ⟨d, floor⟩ := c.grantSpeak_floor hj n o a
    rw [floor]
    exact .ofSame rfl rfl rfl rfl rfl rfl rfl

/-- The grant of a REPLY slot, and of none. -/
theorem grantReply_steady (c : Claim) (n : Nat) : c.floor.Steady (c.grantReply n).floor := by
  cases hj : c.floor.freeSlot with
  | none =>
    unfold grantReply
    rw [hj]
    exact .refl _
  | some j =>
    rw [((Shows.self c).grantReply hj n).floor]
    exact .ofSame rfl rfl rfl rfl rfl rfl rfl

/-- The end of a round. -/
theorem endRound_steady (c : Claim) (h : c.floor.phase = .replyRound) : c.floor.Steady c.endRound.floor := by
  rw [((Shows.self c).endRound h).floor]
  exact ⟨rfl, rfl, rfl, rfl, rfl, rfl, .inr ⟨.inr h, .inl rfl⟩⟩

/-- The loop of the fill. -/
theorem fillLoop_steady (k : Nat) (c : Claim) : c.floor.Steady (fillLoop k c).floor := by
  induction k generalizing c with
  | zero => exact .refl _
  | succ k ih =>
    unfold fillLoop
    split
    · exact .refl _
    · split
      · exact (c.grantSpeak_steady _ _ _).trans (ih _)
      · split
        · exact .refl _
        · dsimp only
          split
          · exact ((c.closeSlot_steady _ _).trans (grantSpeak_steady _ _ _ _)).trans (ih _)
          · exact c.closeSlot_steady _ _

/-- The fill. -/
theorem fill_steady (c : Claim) : c.floor.Steady c.fill.floor := by
  unfold fill
  split
  · exact fillLoop_steady _ c
  · exact .refl _

/-- The serve point of a round. -/
theorem serve_steady (c : Claim) (h : c.floor.phase = .replyRound) : c.floor.Steady c.serve.floor := by
  unfold serve
  split
  · exact .refl _
  · split
    · exact c.endRound_steady h
    · split
      · split
        · exact c.grantReply_steady _
        · exact .refl _
      · exact .refl _

/-- What follows an event. -/
theorem settleFloor_steady (c : Claim) : c.floor.Steady c.settleFloor.floor := by
  unfold settleFloor
  dsimp only
  split
  · split
    · split
      · next round => exact c.fill_steady.trans (serve_steady _ round)
      · exact c.fill_steady
    · exact .refl _
  · next round =>
    split
    · split
      · exact (c.serve_steady round).trans (fill_steady _)
      · exact c.serve_steady round
    · exact .refl _
  · exact .refl _
  · exact .refl _

end Claim

/-- An event keeps what its body keeps: the end of an event is steady. -/
theorem State.event_steady {s : State} {body : Claim → Claim} {f : Floor} (h : f.Steady (body (.start s)).floor) :
    f.Steady (s.event body).floor := by
  obtain ⟨floor, -⟩ := s.event_counted body (Claim.Shows.self _)
  rw [floor, State.counted_floor]
  exact (h.trans (Claim.settleFloor_steady _)).trans (.ofSame rfl rfl rfl rfl rfl rfl rfl)

end Sys2Proof.Machine
end

section
/-! SUPPORT. The request list's commands: LIST INSERT, REMOVE, CLEAR, MOVE and SHUFFLE (R29, R36 to R41). -/

namespace Sys2Proof.Machine

open Claim

/-! ### LIST INSERT (R36, R37) -/

/-- An override of FFFFh is absent, and one within 36000 is its value. -/
theorem overrideOf_ok {v : Nat} {a : Option Nat} (h : v = 0xFFFF ∧ a = none ∨ v ≤ 36000 ∧ a = some v) : overrideOf v = .ok a := by
  unfold overrideOf
  rcases h with ⟨rfl, rfl⟩ | ⟨inRange, rfl⟩
  · rfl
  · rw [if_neg (by omega), if_neg (Nat.not_lt.2 inRange)]

/-- An override beyond 36000 that is not FFFFh is out of range. -/
theorem overrideOf_error {v : Nat} (h : 36000 < v) (g : v ≠ 0xFFFF) : overrideOf v = .error .range := by
  unfold overrideOf
  rw [if_neg g, if_pos h]

/-- LIST INSERT of a seat at a place and with an override that pass checks 1 to 4. -/
theorem listInsertAction_eq {p : List Byte} {s : State} {place : Place} {i : Nat} {a : Option Nat} (low : 1 ≤ u16 p 0)
    (up : u16 p 0 ≤ 480) (hp : placeRow[u8 p 2]? = some place) (hi : placeIndex place (u8 p 3) s.floor.requests.length = some i)
    (ha : u16 p 4 = 0xFFFF ∧ a = none ∨ u16 p 4 ≤ 36000 ∧ a = some (u16 p 4)) :
    listInsertAction p s = match s.insertRefusal (u16 p 0) with
      | some e => (s, .of e)
      | none =>
        let s1 := s.event fun c => (c.enqueue i ⟨u16 p 0, .host, s.time, a⟩).fillPoint
        (s1, .of .done ([be8 i] ++ s1.listVersionBytes ++ [s1.listLengthByte])) := by
  have named : ofCode placeRow (u8 p 2) = some place := hp
  unfold listInsertAction
  dsimp only
  rw [if_neg (seatOk_inside low up), named]
  dsimp only
  rw [hi]
  dsimp only
  rw [overrideOf_ok ha]
  rfl

/-- A place whose code is below 3 and, for INDEX, whose index is within the list names an index. -/
theorem placeIndex_named {k index length : Nat} (h : k < 2 ∨ k = 2 ∧ index ≤ length) :
    ∃ place i, ofCode placeRow k = some place ∧ placeIndex place index length = some i := by
  rcases h with low | ⟨rfl, within⟩
  · rcases (by omega : k = 0 ∨ k = 1) with rfl | rfl
    · exact ⟨.head, 0, rfl, rfl⟩
    · exact ⟨.tail, length, rfl, rfl⟩
  · exact ⟨.index, index, rfl, if_pos within⟩

/-- INDEX beyond the list names no index. -/
theorem placeIndex_beyond {index length : Nat} (h : length < index) : placeIndex .index index length = none :=
  if_neg (Nat.not_le.2 h)

/-- The checks of a seat: the first that fails refuses it (R36). -/
theorem insertRefusal_cases (s : State) (n : Nat) :
    ((s.seat n).binding = none → s.insertRefusal n = some .unbound) ∧
      ((s.seat n).binding ≠ none → s.hasClass n .delegate = false → s.insertRefusal n = some .cls) ∧
      (s.hasClass n .delegate = true →
        ((s.seat n).enabled = false → s.insertRefusal n = some .disabled) ∧
        ((s.seat n).enabled = true → (s.seat n).presence = .absent → s.insertRefusal n = some .absentSeat) ∧
        ((s.seat n).enabled = true → (s.seat n).presence ≠ .absent →
          (s.floorState n ≠ .idle → s.insertRefusal n = some .seatBusy) ∧
          (s.floorState n = .idle → 64 ≤ s.floor.requests.length → s.insertRefusal n = some .full) ∧
          (s.floorState n = .idle → s.floor.requests.length < 64 → s.insertRefusal n = none))) := by
  unfold State.insertRefusal
  dsimp only
  refine ⟨fun unbound => by simp [unbound], fun bound other => ?_, fun delegate => ?_⟩
  · rw [if_neg (by simpa using bound), if_pos (by simp [other])]
  · have bound : ¬ (s.seat n).binding.isNone = true := by
      intro none_
      simp [State.hasClass, Option.isNone_iff_eq_none.mp none_] at delegate
    rw [if_neg bound, if_neg (by simp [delegate])]
    refine ⟨fun disabled => by simp [disabled], fun enabled absent => by simp [enabled, absent], fun enabled here => ?_⟩
    rw [if_neg (by simp [enabled]), if_neg here]
    exact ⟨fun busy => if_pos busy, fun idle full => by rw [if_neg (not_not.2 idle), if_pos full], fun idle room => by
      rw [if_neg (not_not.2 idle), if_neg (Nat.not_le.2 room)]⟩

/-- What the entry of a seat shows. -/
theorem Claim.Shows.enqueue {c : Claim} {x : State} (h : c.Shows x) (i : Nat) (e : RequestEntry) : (c.enqueue i e).Shows
    ((x.notify ⟨.queued, .seat e.seat, some (codeIn originRow e.origin), [detailOf i]⟩).modFloor
      fun f => { f with requests := f.requests.insertIdx i e }) := by
  have entered := ((Shows.trackHead (c := c) (f := fun c => c.modFloor fun f => { f with requests := f.requests.insertIdx i e })
    (h.modFloor _)).notify (.ofSeat .queued e.seat (codeIn originRow e.origin) [detailOf i])).touch e.seat
  exact ⟨entered.floor, entered.report, entered.time⟩

/-- A longer list is another list. -/
theorem insertIdx_ne {α : Type} {l : List α} {i : Nat} (x : α) (h : i ≤ l.length) : l ≠ l.insertIdx i x := by
  intro same
  have length := congrArg List.length same
  rw [List.length_insertIdx_of_le_length h] at length
  omega

/-- The index a place names lies within the list. -/
theorem placeIndex_le {place : Place} {index length i : Nat} (h : placeIndex place index length = some i) : i ≤ length := by
  cases place <;> simp only [placeIndex, Option.some.injEq, Option.ite_none_right_eq_some] at h <;> omega

/-- What a claim shows grants and serves nothing exactly when the claim's own floor does. -/
theorem Claim.Shows.noFill {c : Claim} {x : State} (h : c.Shows x) (noFill : x.noFill) : c.st.noFill :=
  State.noFill_congr noFill (congrArg Floor.phase h.floor) (congrArg Floor.policy h.floor)

/-- Settles O29: the checks in their order, and the entry where the fill point grants nothing. -/
theorem listInsert : Obligations.ListInsert := by
  unfold Obligations.ListInsert
  intro s l c hc
  have acts : exec (.listInsert l) s = .next ((listInsertAction c.payload s).1.answer l c (listInsertAction c.payload s).2) :=
    congrArg _ (hc.acts listInsertAction)
  rw [acts]
  refine ⟨fun outside => ?_, fun low up => ⟨fun noPlace => ?_, fun index beyond => ?_, fun named far other => ?_⟩,
    fun n place i a hn low up hp hi ha => ?_⟩
  · simp only [listInsertAction, if_pos (seatOk_outside outside), refuseWith]
  · have none_ : ofCode placeRow (u8 c.payload 2) = none := ofCode_beyond noPlace
    simp only [listInsertAction, if_neg (seatOk_inside low up), none_, refuseWith]
  · have place : ofCode placeRow (u8 c.payload 2) = some .index := by rw [index]; rfl
    simp only [listInsertAction, if_neg (seatOk_inside low up), place, placeIndex_beyond beyond, refuseWith]
  · obtain ⟨place, i, hp, hi⟩ := placeIndex_named named
    simp only [listInsertAction, if_neg (seatOk_inside low up), hp, hi, overrideOf_error far other, refuseWith]
  · subst hn
    rw [listInsertAction_eq low up hp hi ha]
    obtain ⟨unbound, cls, delegate⟩ := insertRefusal_cases s (u16 c.payload 0)
    refine ⟨fun h => by rw [unbound h], fun h g => by rw [cls h g], fun h => ?_⟩
    obtain ⟨disabled, absent, rest⟩ := delegate h
    refine ⟨fun h => by rw [disabled h], fun h g => by rw [absent h g], fun enabled here => ?_⟩
    obtain ⟨busy, full, joins⟩ := rest enabled here
    refine ⟨fun h => by rw [busy h], fun h g => by rw [full h g], fun idle room => ?_⟩
    rw [joins idle room]
    refine ⟨_, rfl, fun noFill => ?_⟩
    have entered := ((Shows.start s).enqueue i ⟨u16 c.payload 0, .host, s.time, a⟩).fillPoint
    have quiet := settleFloor_noFill ((Claim.start s).enqueue i ⟨u16 c.payload 0, .host, s.time, a⟩).fillPoint
      (entered.noFill (State.noFill_congr noFill rfl rfl))
    have due : s.versionDue ((Claim.start s).enqueue i ⟨u16 c.payload 0, .host, s.time, a⟩).fillPoint = true := by
      unfold State.versionDue
      rw [entered.floor]
      simp only [Bool.or_eq_true, decide_eq_true_eq]
      exact .inl (insertIdx_ne _ (placeIndex_le hi))
    have shown := State.event_shown (body := fun c' => (c'.enqueue i ⟨u16 c.payload 0, .host, s.time, a⟩).fillPoint) entered quiet
    rw [due] at shown
    exact shown

/-! ### LIST REMOVE and LIST CLEAR (R38, R40) -/

/-- A seat has no request list entry. -/
theorem Floor.requestOf_eq_none {f : Floor} {n : Nat} : f.requestOf n = none ↔ ∀ e ∈ f.requests, e.seat ≠ n := by
  simp [Floor.requestOf, List.find?_eq_none]

/-- A seat has a request list entry. -/
theorem Floor.requestOf_ne_none {f : Floor} {n : Nat} : f.requestOf n ≠ none ↔ ∃ e ∈ f.requests, e.seat = n := by
  rw [ne_eq, Floor.requestOf_eq_none]
  simp

/-- The list without an entry that it holds is another list. -/
theorem requests_ne_filter {l : List RequestEntry} {n : Nat} (h : ∃ e ∈ l, e.seat = n) : l ≠ l.filter (·.seat ≠ n) := by
  intro same
  obtain ⟨e, he, hn⟩ := h
  rw [same] at he
  simp [hn] at he

/-- The event that takes a seat's entry off the list. -/
theorem dequeue_event {s : State} {n : Nat} (h : s.floor.requestOf n ≠ none) (why : Reason) :
    (s.event (·.dequeue n why)).floor = { s.floor with
        requests := s.floor.requests.filter (·.seat ≠ n), listVersion := s.floor.listVersion + 1 } ∧
      (s.event (·.dequeue n why)).report = ((s.notify ⟨.dequeued, .seat n, some (codeIn reasonRow why), []⟩).raise .list).report := by
  have left := (Shows.start s).dequeue h why
  have due : s.versionDue ((Claim.start s).dequeue n why) = true := by
    unfold State.versionDue
    rw [left.floor]
    simp only [Bool.or_eq_true, decide_eq_true_eq]
    exact .inl (requests_ne_filter (Floor.requestOf_ne_none.mp h))
  have shown := State.event_undue (body := (·.dequeue n why)) left (.dequeue _ n why)
  rw [due] at shown
  exact shown

/-- The event that empties the request list. -/
theorem clearRequests_event {s : State} (h : s.floor.requests ≠ []) (why : Reason) :
    (s.event (·.clearRequests why)).floor = { s.floor with requests := [], listVersion := s.floor.listVersion + 1 } ∧
      (s.event (·.clearRequests why)).report = ((s.floor.requests.foldl (fun x e => x.notify
        ⟨.dequeued, .seat e.seat, some (codeIn reasonRow why), []⟩) s).raise .list).report := by
  have left := (Shows.start s).clearRequests why
  have rest := State.foldl_notify_rest (fun e : RequestEntry => (⟨.dequeued, .seat e.seat, some (codeIn reasonRow why), []⟩ : Notice))
    s.floor.requests s
  have floor : ((Claim.start s).clearRequests why).floor = { s.floor with requests := [] } := by
    rw [left.floor, State.modFloor_floor, rest]
  have due : s.versionDue ((Claim.start s).clearRequests why) = true := by
    unfold State.versionDue
    rw [floor]
    simp [h]
  have shown := State.event_undue (body := (·.clearRequests why)) left (.clearRequests _ why)
  rw [due] at shown
  refine ⟨shown.1.trans ?_, shown.2⟩
  rw [State.counted_floor, State.modFloor_floor, rest]
  rfl

/-- Settles O30: the checks, and the events that take entries off the list. -/
theorem listRemoveClear : Obligations.ListRemoveClear := by
  unfold Obligations.ListRemoveClear
  refine ⟨fun s l c hc => ?_, fun s l c hc => ?_⟩
  · have acts : exec (.listRemove l) s = .next ((listRemoveAction c.payload s).1.answer l c (listRemoveAction c.payload s).2) :=
      congrArg _ (hc.acts listRemoveAction)
    rw [acts]
    refine ⟨fun outside => ?_, fun low up => ⟨fun none_ => ?_, fun some_ => ⟨_, ?_, dequeue_event (Floor.requestOf_ne_none.mpr some_) .host⟩⟩⟩
    · simp only [listRemoveAction, if_pos (seatOk_outside outside), refuseWith]
    · have notFound : (s.floor.requestOf (u16 c.payload 0)).isNone = true := by simp [Floor.requestOf_eq_none.mpr none_]
      simp only [listRemoveAction, if_neg (seatOk_inside low up), if_pos notFound, refuseWith]
    · have found : ¬ (s.floor.requestOf (u16 c.payload 0)).isNone = true := by
        simpa [Option.isNone_iff_eq_none] using Floor.requestOf_ne_none.mpr some_
      simp only [listRemoveAction, if_neg (seatOk_inside low up), if_neg found]
      rfl
  · have acts : exec (.listClear l) s = .next ((listClearAction c.payload s).1.answer l c (listClearAction c.payload s).2) :=
      congrArg _ (hc.acts listClearAction)
    rw [acts]
    refine ⟨fun none_ => ?_, fun some_ => ⟨_, ?_, clearRequests_event some_ .clear⟩⟩
    · simp only [listClearAction, if_pos none_]
    · simp only [listClearAction, if_neg some_]
      rfl

end Sys2Proof.Machine
end

section
/-! SUPPORT. The draw generator and the orders it draws (R28, R29), and with these LIST MOVE and LIST SHUFFLE (R39, R41). -/

namespace Sys2Proof.Machine

open Claim

/-! ### Drawing an order (R28) -/

/-- An exchange of two places keeps the length. -/
@[simp] theorem length_exchange {α : Type} (l : List α) (i j : Nat) : (exchange l i j).length = l.length := by
  unfold exchange
  split <;> simp

/-- What an exchange leaves at each place. -/
theorem getElem?_exchange {α : Type} {l : List α} {i j : Nat} (hi : i < l.length) (hj : j < l.length) (q : Nat) :
    (exchange l i j)[q]? = if q = j then l[i]? else if q = i then l[j]? else l[q]? := by
  unfold exchange
  rw [List.getElem?_eq_getElem hi, List.getElem?_eq_getElem hj]
  dsimp only
  by_cases atJ : q = j
  · subst atJ
    simp [hj]
  · by_cases atI : q = i
    · subst atI
      simp [atJ, Ne.symm atJ, hi]
    · simp [atJ, atI, Ne.symm atJ, Ne.symm atI]

/-- An exchange of two places keeps what the list holds. -/
theorem exchange_perm {α : Type} (l : List α) (i j : Nat) : (exchange l i j).Perm l := by
  unfold exchange
  split
  · next x y hx hy =>
    obtain ⟨hi, rfl⟩ := List.getElem?_eq_some_iff.mp hx
    obtain ⟨hj, rfl⟩ := List.getElem?_eq_some_iff.mp hy
    exact List.set_set_perm hi hj
  · exact .refl l

/-- The orders drawn hold what the list holds. -/
theorem drawFrom_perm {α : Type} (i : Nat) (w : Word) (l : List α) : (drawFrom i w l).1.Perm l := by
  induction i generalizing w l with
  | zero => exact .refl l
  | succ i ih => exact (ih _ _).trans (exchange_perm l _ _)

/-- A drawn order holds what the list holds. -/
theorem drawOrder_perm {α : Type} (w : Word) (l : List α) : (drawOrder w l).1.Perm l := drawFrom_perm _ w l

/-- The generator steps once for each place drawn. -/
theorem drawFrom_state {α : Type} (i : Nat) (w : Word) (l : List α) : (drawFrom i w l).2 = Nat.repeat drawStep i w := by
  induction i generalizing w l with
  | zero => rfl
  | succ i ih =>
    rw [show drawFrom (i + 1) w l = drawFrom i (drawStep w) (exchange l (i + 1) ((drawStep w).toNat % (i + 2))) from rfl, ih]
    clear ih
    induction i with
    | zero => rfl
    | succ i ih => exact congrArg drawStep ih

/-- Orders of which each is the one before with two places exchanged, by the generator's value. -/
def DrawnBy {α : Type} (w : Word) (items : List α) (order : Nat → List α) : Prop :=
  ∀ m, m + 1 < items.length → ∀ i j, i = items.length - 1 - m → j = (Nat.repeat drawStep (m + 1) w).toNat % (i + 1) →
    (order (m + 1))[i]? = (order m)[j]? ∧ (order (m + 1))[j]? = (order m)[i]? ∧
      ∀ q, q ≠ i → q ≠ j → (order (m + 1))[q]? = (order m)[q]?

/-- Each of the orders is the exchange of the one before. -/
theorem DrawnBy.step {α : Type} {w : Word} {items : List α} {order : Nat → List α} (h : DrawnBy w items order) {m : Nat}
    (hm : m + 1 < items.length) (length : (order m).length = items.length) : order (m + 1) =
      exchange (order m) (items.length - 1 - m) ((Nat.repeat drawStep (m + 1) w).toNat % (items.length - 1 - m + 1)) := by
  obtain ⟨first, second, others⟩ := h m hm _ _ rfl rfl
  have below : (Nat.repeat drawStep (m + 1) w).toNat % (items.length - 1 - m + 1) < (order m).length := by
    have := Nat.mod_lt (Nat.repeat drawStep (m + 1) w).toNat (show 0 < items.length - 1 - m + 1 by omega)
    omega
  refine List.ext_getElem? fun q => ?_
  rw [getElem?_exchange (by omega) below]
  split
  · next atJ => rw [atJ, second]
  · next notJ =>
    split
    · next atI => rw [atI, first]
    · next notI => exact others q notI notJ

/-- The last of the orders is the drawn one. -/
theorem DrawnBy.drawOrder {α : Type} {w : Word} {items : List α} {order : Nat → List α} (h0 : order 0 = items)
    (h : DrawnBy w items order) :
    drawOrder w items = (order (items.length - 1), Nat.repeat drawStep (items.length - 1) w) := by
  have walk (k m : Nat) (hk : k + m = items.length - 1) (length : (order m).length = items.length) :
      drawFrom k (Nat.repeat drawStep m w) (order m) = (order (items.length - 1), Nat.repeat drawStep (items.length - 1) w) := by
    induction k generalizing m with
    | zero => rw [← hk, Nat.zero_add]; rfl
    | succ k ih =>
      have next_ := h.step (m := m) (by omega) length
      have place : items.length - 1 - m = k + 1 := by omega
      rw [place] at next_
      have rest := ih (m + 1) (by omega) (by rw [next_, length_exchange, length])
      rw [next_] at rest
      exact rest
  unfold Machine.drawOrder
  rw [← walk (items.length - 1) 0 rfl (by rw [h0]), h0]
  rfl

/-! ### LIST MOVE (R39) -/

/-- What another order of the list shows. -/
theorem Claim.Shows.reorder {c : Claim} {x : State} (h : c.Shows x) (entries : List RequestEntry) :
    (c.reorder entries).Shows (x.modFloor fun f => { f with requests := entries }) :=
  Shows.trackHead (h.modFloor _)

/-- LIST MOVE of a seat's entry to a place that names an index. -/
theorem listMoveAction_eq {p : List Byte} {s : State} {place : Place} {e : RequestEntry} {i : Nat} (low : 1 ≤ u16 p 0)
    (up : u16 p 0 ≤ 480) (hp : placeRow[u8 p 2]? = some place) (he : s.floor.requestOf (u16 p 0) = some e)
    (hi : placeIndex place (u8 p 3) (s.floor.requests.filter (·.seat ≠ u16 p 0)).length = some i) :
    listMoveAction p s =
      if (s.floor.requests.filter (·.seat ≠ u16 p 0)).insertIdx i e = s.floor.requests then
        (s, .of .unchanged ([be8 i] ++ s.listVersionBytes))
      else
        let s1 := s.event fun c => (c.reorder ((s.floor.requests.filter (·.seat ≠ u16 p 0)).insertIdx i e)).fillPoint
        (s1, .of .done ([be8 i] ++ s1.listVersionBytes)) := by
  have named : ofCode placeRow (u8 p 2) = some place := hp
  unfold listMoveAction
  dsimp only
  rw [if_neg (seatOk_inside low up), named]
  dsimp only
  rw [he]
  dsimp only
  rw [hi]

/-- The event of another order, on a floor whose fill point grants nothing. -/
theorem reorder_event {s : State} {entries : List RequestEntry} (noFill : s.noFill) (h : entries ≠ s.floor.requests) :
    (s.event fun c => (c.reorder entries).fillPoint).floor =
        { s.floor with requests := entries, listVersion := s.floor.listVersion + 1 } ∧
      (s.event fun c => (c.reorder entries).fillPoint).report = (s.raise .list).report := by
  have moved := ((Shows.start s).reorder entries).fillPoint
  have quiet := settleFloor_noFill ((Claim.start s).reorder entries).fillPoint (moved.noFill (State.noFill_congr noFill rfl rfl))
  have due : s.versionDue ((Claim.start s).reorder entries).fillPoint = true := by
    unfold State.versionDue
    rw [moved.floor]
    simp only [Bool.or_eq_true, decide_eq_true_eq]
    exact .inl (Ne.symm h)
  have shown := State.event_shown (body := fun c => (c.reorder entries).fillPoint) moved quiet
  rw [due] at shown
  exact shown

/-! ### LIST SHUFFLE (R41) -/

/-- The claim of LIST SHUFFLE: the list in the drawn order, and the draw state after it. -/
def Claim.shuffle (s : State) (c : Claim) : Claim :=
  ((c.reorder (drawOrder s.floor.draw s.floor.requests).1).modFloor fun f =>
    { f with draw := (drawOrder s.floor.draw s.floor.requests).2 }).fillPoint

/-- LIST SHUFFLE of two entries or more. -/
theorem listShuffleAction_eq {p : List Byte} {s : State} (h : 2 ≤ s.floor.requests.length) : listShuffleAction p s =
    (s.event (Claim.shuffle s), .of .done ((s.event (Claim.shuffle s)).listVersionBytes ++ be32 (s.event (Claim.shuffle s)).floor.draw)) := by
  unfold listShuffleAction
  dsimp only
  rw [if_neg (Nat.not_lt.2 h)]
  rfl

/-- What the shuffle shows. -/
theorem shuffle_shows (s : State) : (Claim.shuffle s (.start s)).Shows (s.modFloor fun f => { f with
    requests := (drawOrder s.floor.draw s.floor.requests).1, draw := (drawOrder s.floor.draw s.floor.requests).2 }) := by
  have drawn := ((((Shows.start s).reorder (drawOrder s.floor.draw s.floor.requests).1).modFloor fun f =>
    { f with draw := (drawOrder s.floor.draw s.floor.requests).2 }).fillPoint)
  exact ⟨drawn.floor, drawn.report, drawn.time⟩

/-- The shuffle leaves the draw state that its steps give, also under a fill. -/
theorem shuffle_draw (s : State) :
    (s.event (Claim.shuffle s)).floor.draw = Nat.repeat drawStep (s.floor.requests.length - 1) s.floor.draw := by
  have drawn := (State.event_steady (s := s) (body := Claim.shuffle s) (.refl _)).draw
  rw [drawn, (shuffle_shows s).floor]
  exact drawFrom_state _ _ _

/-- Where the fill point grants nothing, the shuffle changes the order, the draw state and the version. -/
theorem shuffle_floor {s : State} (noFill : s.noFill) : (s.event (Claim.shuffle s)).floor = { s.floor with
    requests := (drawOrder s.floor.draw s.floor.requests).1
    draw := (drawOrder s.floor.draw s.floor.requests).2
    listVersion :=
      if (drawOrder s.floor.draw s.floor.requests).1 = s.floor.requests then s.floor.listVersion else s.floor.listVersion + 1 } := by
  have drawn := shuffle_shows s
  have quiet := settleFloor_noFill (Claim.shuffle s (.start s)) (drawn.noFill (State.noFill_congr noFill rfl rfl))
  obtain ⟨floor, -⟩ := State.event_shown (body := Claim.shuffle s) drawn quiet
  have due : s.versionDue (Claim.shuffle s (.start s)) = decide ((drawOrder s.floor.draw s.floor.requests).1 ≠ s.floor.requests) := by
    have took : (Claim.shuffle s (.start s)).tookEntry = false := by simp [Claim.shuffle, Claim.reorder]
    unfold State.versionDue
    rw [drawn.floor, took, Bool.or_false]
    exact decide_eq_decide.mpr ne_comm
  rw [floor, due, State.counted_floor]
  by_cases same : (drawOrder s.floor.draw s.floor.requests).1 = s.floor.requests <;> simp [same]

/-- Settles O31: the checks, the events of another order, and the generator. -/
theorem listMoveShuffle : Obligations.ListMoveShuffle := by
  unfold Obligations.ListMoveShuffle
  have move (s : State) (l : Link) (c : HeldCommand) (hc : s.Takes l c 0x22 true 4) :
      exec (.listMove l) s = .next ((listMoveAction c.payload s).1.answer l c (listMoveAction c.payload s).2) :=
    congrArg _ (hc.acts listMoveAction)
  refine ⟨fun s l c hc => ⟨fun outside => ?_, fun n hn low up => ⟨fun noPlace => ?_, fun named none_ => ?_, fun index some_ beyond => ?_⟩⟩,
    fun s l c hc n place e i hn low up hp he hi => ⟨fun same => ?_, fun other => ?_⟩,
    fun s l c hc => ⟨fun few => ?_, fun two => ?_⟩, fun w a b ha hb => by subst ha hb; rfl,
    fun α items w order h0 h => DrawnBy.drawOrder h0 h⟩
  · rw [move s l c hc]
    simp only [listMoveAction, if_pos (seatOk_outside outside), refuseWith]
  · subst hn
    have noCode : ofCode placeRow (u8 c.payload 2) = none := ofCode_beyond noPlace
    rw [move s l c hc]
    simp only [listMoveAction, if_neg (seatOk_inside low up), noCode, refuseWith]
  · subst hn
    obtain ⟨place, hp⟩ : ∃ place, ofCode placeRow (u8 c.payload 2) = some place :=
      ⟨_, List.getElem?_eq_getElem (show u8 c.payload 2 < placeRow.length from named)⟩
    rw [move s l c hc]
    simp only [listMoveAction, if_neg (seatOk_inside low up), hp, none_, refuseWith]
  · subst hn
    obtain ⟨e, he⟩ := Option.ne_none_iff_exists'.mp some_
    have place : ofCode placeRow (u8 c.payload 2) = some .index := by rw [index]; rfl
    rw [move s l c hc]
    simp only [listMoveAction, if_neg (seatOk_inside low up), place, he, placeIndex_beyond beyond, refuseWith]
  · subst hn
    rw [move s l c hc, listMoveAction_eq low up hp he hi, if_pos same]
    rfl
  · subst hn
    rw [move s l c hc, listMoveAction_eq low up hp he hi, if_neg other]
    exact ⟨_, rfl, fun noFill => reorder_event noFill other⟩
  · refine congrArg _ ((hc.acts listShuffleAction).trans ?_)
    simp only [listShuffleAction, if_pos few]
    rfl
  · refine ⟨s.event (Claim.shuffle s), ?_, shuffle_draw s, fun noFill => ?_⟩
    · refine congrArg _ ((hc.acts listShuffleAction).trans ?_)
      rw [listShuffleAction_eq two]
      rfl
    · rw [shuffle_floor noFill]
      exact ⟨drawOrder_perm _ _, rfl, rfl⟩

end Sys2Proof.Machine
end

section
/-! SUPPORT. The floor that a halt and a clear leave (R65, R66), the fill of a floor without slots (R50), and with these FLOOR OPEN,
FLOOR HALT and FLOOR CLEAR. -/

namespace Sys2Proof.Machine

/-- A flag that an event's body has set is set after the event. -/
theorem State.event_flagged {s : State} {body : Claim → Claim} {l : Link} {e : EventFlag} (h : (body (.start s)).st.flagged l e) :
    (s.event body).flagged l e :=
  flagged_of_grown ((Claim.settleFloor_frame (.refl _)).trans (Claim.close_frame _ _)).report h

namespace Claim

/-! ### The floor after the small operations -/

theorem modFloor_floor (c : Claim) (f : Floor → Floor) : (c.modFloor f).floor = f c.floor := rfl
theorem raise_floor (c : Claim) (e : EventFlag) : (c.raise e).floor = c.floor := rfl
theorem notify_floor (c : Claim) (n : Notice) : (c.notify n).floor = c.floor := rfl
theorem modSeat_floor (c : Claim) (n : Nat) (f : SeatRecord → SeatRecord) : (c.modSeat n f).floor = c.floor :=
  State.modSeat_floor c.st n f
theorem touch_floor (c : Claim) (n : Nat) : (c.touch n).floor = c.floor := congrArg State.floor (touch_st c n)
theorem touchAll_floor (c : Claim) (ns : List Nat) : (c.touchAll ns).floor = c.floor := congrArg State.floor (touchAll_st c ns)
theorem trackHead_floor (c : Claim) (f : Claim → Claim) : (c.trackHead f).floor = (f c).floor :=
  congrArg State.floor (trackHead_st c f)
theorem fillPoint_floor (c : Claim) : c.fillPoint.floor = c.floor := rfl
theorem servePoint_floor (c : Claim) : c.servePoint.floor = c.floor := rfl

/-! ### The steps of a halt -/

/-- The frames are discarded from the top. -/
theorem discardFrames_floor (c : Claim) : c.discardFrames.floor = { c.floor with stack := [] } := by
  have walk (l : List StackFrame) (c : Claim) : (l.foldl (fun c fr => ((c.modFloor fun f => { f with stack := f.stack.tail }).notify
      (frameDiscarded fr .halt)).touchAll (heldSeats fr)) c).floor = { c.floor with stack := c.floor.stack.drop l.length } := by
    induction l generalizing c with
    | nil => rfl
    | cons fr l ih =>
      rw [List.foldl_cons, ih]
      have one : (((c.modFloor fun f => { f with stack := f.stack.tail }).notify (frameDiscarded fr .halt)).touchAll
          (heldSeats fr)).floor = { c.floor with stack := c.floor.stack.tail } := congrArg State.floor (touchAll_st _ _)
      rw [one, List.length_cons, ← List.drop_one, List.drop_drop, Nat.add_comm]
  unfold discardFrames
  dsimp only
  split
  · next empty => rw [← empty]
  · exact (walk c.floor.stack c).trans (by rw [List.drop_length])

/-- A chair slot's mode. -/
theorem setChairMode_floor (c : Claim) (i : Fin 2) (m : ChairState) : (c.setChairMode i m).floor =
    { c.floor with chairs := c.floor.chairs.set i (c.floor.chairs[i].map fun d => { d with mode := m }) } := by
  have same {x : Option ChairSlot} (h : c.floor.chairs[i] = x) : c.floor.chairs.set i x = c.floor.chairs := by
    subst h
    exact Vector.set_getElem_self _
  unfold setChairMode
  cases hd : c.floor.chairs[i] with
  | none => rw [Option.map_none, same hd]
  | some d =>
    dsimp only
    split
    · next present => rw [Option.map_some, ← present, same hd]
    · rfl

/-- Every chair slot's mode. -/
theorem setChairModes_floor (c : Claim) (m : ChairState) : (chairPlaces.foldl (fun c i => c.setChairMode i m) c).floor =
    { c.floor with chairs := c.floor.chairs.map (Option.map fun d => { d with mode := m }) } := by
  show ((c.setChairMode 0 m).setChairMode 1 m).floor = _
  rw [setChairMode_floor, setChairMode_floor]
  dsimp only
  congr 1
  refine Vector.ext fun j hj => ?_
  rcases (by omega : j = 0 ∨ j = 1) with rfl | rfl <;> simp

/-- A place freed, or free before. -/
theorem releaseSlot_floor (c : Claim) (i : Fin 6) (why : Reason) :
    (c.releaseSlot i why).floor = { c.floor with slots := c.floor.slots.set i none } := by
  cases hd : c.floor.slots[i] with
  | none =>
    have same : c.floor.slots.set i none = c.floor.slots := by
      conv_lhs => rw [← hd]
      exact Vector.set_getElem_self _
    unfold releaseSlot
    rw [hd, same]
  | some d => rw [((Shows.self c).releaseSlot hd why).floor]; rfl

/-- The places of a list freed. -/
theorem releaseSlots_floor (c : Claim) (l : List (Fin 6 × DelegateSlot)) (why : Reason) :
    (l.foldl (fun c x => c.releaseSlot x.1 why) c).floor = { c.floor with
      slots := Vector.ofFn fun j => if j ∈ l.map (·.1) then none else c.floor.slots[j] } := by
  induction l generalizing c with
  | nil =>
    have same : (Vector.ofFn fun j : Fin 6 => if j ∈ ([] : List (Fin 6 × DelegateSlot)).map (·.1) then none else c.floor.slots[j]) =
        c.floor.slots := Vector.ext fun j hj => by simp
    rw [same]
    rfl
  | cons x l ih =>
    rw [List.foldl_cons, ih, releaseSlot_floor]
    dsimp only
    congr 1
    refine Vector.ext fun j hj => ?_
    simp only [Vector.getElem_ofFn, List.map_cons, List.mem_cons, Fin.getElem_fin, Vector.getElem_set]
    by_cases own : (⟨j, hj⟩ : Fin 6) = x.1
    · have place : x.1.val = j := congrArg Fin.val own.symm
      rw [if_pos place, ite_self, if_pos (.inl own)]
    · have other : ¬ x.1.val = j := fun e => own (Fin.ext e.symm)
      simp only [if_neg other, own, false_or]

/-- Every open place freed. -/
theorem releaseAll_floor (c : Claim) (why : Reason) : ((c.floor.slotsByAge c.time).foldl (fun c x => c.releaseSlot x.1 why) c).floor =
    { c.floor with slots := Vector.replicate 6 none } := by
  rw [releaseSlots_floor]
  dsimp only
  congr 1
  refine Vector.ext fun j hj => ?_
  rw [Vector.getElem_ofFn, Vector.getElem_replicate]
  split
  · rfl
  · next closed =>
    cases hd : c.floor.slots[(⟨j, hj⟩ : Fin 6)] with
    | none => rfl
    | some d => exact absurd (List.mem_map.mpr ⟨(⟨j, hj⟩, d), Floor.mem_slotsByAge.mpr hd, rfl⟩) closed

/-- The reply list emptied. -/
theorem clearReplies_floor (c : Claim) (why : Reason) : (c.clearReplies why).floor = { c.floor with replies := [] } := by
  rw [((Shows.self c).clearReplies why).floor]
  unfold State.repliesDropped
  split
  · next empty => rw [← empty]
  · exact congrArg (fun s : State => { s.floor with replies := [] }) (State.foldl_notify_rest _ _ _)

/-- Steps 1 to 4 of R65. -/
theorem clearFloor_floor (c : Claim) : c.clearFloor.floor = { c.floor with
    slots := Vector.replicate 6 none, replies := [], stack := []
    chairs := c.floor.chairs.map (Option.map fun d => { d with mode := .mic }) } := by
  unfold clearFloor
  dsimp only
  rw [clearReplies_floor, releaseAll_floor, setChairModes_floor, discardFrames_floor]

/-- A change of the phase. -/
theorem setPhase_floor (c : Claim) (p : Phase) : (c.setPhase p).floor = { c.floor with phase := p } := by
  unfold setPhase
  split
  · next same => rw [← same]
  · rfl

/-- The floor a halt leaves (R65). -/
theorem haltFloor_floor (c : Claim) : c.haltFloor.floor = c.floor.halted := by
  unfold haltFloor Floor.halted
  split
  · rfl
  · rw [raise_floor, setPhase_floor, modFloor_floor, clearFloor_floor]

/-- A halt sets the FLOOR flag. -/
theorem haltFloor_flagged (c : Claim) (h : c.floor.phase ≠ .halted) (l : Link) : c.haltFloor.st.flagged l .floor := by
  unfold haltFloor
  rw [if_neg h]
  exact State.flagged_raise _ l .floor

end Claim

/-- The floor the event of a halt leaves: nothing follows it. -/
theorem State.haltFloor_event (s : State) : (s.event Claim.haltFloor).floor = s.floor.halted := by
  have floor : (Claim.haltFloor (.start s)).floor = s.floor.halted := Claim.haltFloor_floor _
  have shut : (Claim.haltFloor (.start s)).floor.phase = .halted := by
    rw [floor]
    unfold Floor.halted
    split
    · assumption
    · rfl
  obtain ⟨left, -⟩ := State.event_shown (body := Claim.haltFloor) (Claim.Shows.self (Claim.haltFloor (.start s)))
    (Claim.settleFloor_shut _ (.inl shut))
  have requests : s.floor.halted.requests = s.floor.requests := by
    unfold Floor.halted
    split <;> rfl
  have due : s.versionDue (Claim.haltFloor (.start s)) = false := by
    unfold State.versionDue
    rw [floor, requests, Claim.haltFloor_tookEntry]
    simp
  rw [left, due]
  exact floor

namespace Claim

/-! ### FLOOR CLEAR (R66) -/

/-- A chair slot closed, or closed before. -/
theorem closeChair_floor (c : Claim) (i : Fin 2) (why : Reason) :
    (c.closeChair i why).floor = { c.floor with chairs := c.floor.chairs.set i none } := by
  cases hd : c.floor.chairs[i] with
  | none =>
    have same : c.floor.chairs.set i none = c.floor.chairs := by
      conv_lhs => rw [← hd]
      exact Vector.set_getElem_self _
    unfold closeChair
    rw [hd, same]
  | some d => rw [((Shows.self c).closeChair hd why).floor]; rfl

/-- Every chair slot closed. -/
theorem closeChairs_floor (c : Claim) (why : Reason) : (chairPlaces.foldl (fun c i => c.closeChair i why) c).floor =
    { c.floor with chairs := Vector.replicate 2 none } := by
  show ((c.closeChair 0 why).closeChair 1 why).floor = _
  rw [closeChair_floor, closeChair_floor]
  dsimp only
  congr 1
  refine Vector.ext fun j hj => ?_
  rcases (by omega : j = 0 ∨ j = 1) with rfl | rfl <;> simp

/-- The request list emptied. -/
theorem clearRequests_floor (c : Claim) (why : Reason) : (c.clearRequests why).floor = { c.floor with requests := [] } := by
  rw [((Shows.self c).clearRequests why).floor]
  exact congrArg (fun s : State => { s.floor with requests := [] }) (State.foldl_notify_rest _ _ _)

/-- The floor that the claim of FLOOR CLEAR leaves. -/
theorem clearAll_floor (c : Claim) : c.clearAll.floor = { c.floor with
    phase := .halted, subject := none, slots := Vector.replicate 6 none, chairs := Vector.replicate 2 none, replies := []
    stack := [], requests := [] } := by
  unfold clearAll
  dsimp only
  rw [setPhase_floor, modFloor_floor, clearRequests_floor, closeChairs_floor, clearFloor_floor]

@[simp] theorem clearAll_tookEntry (c : Claim) : c.clearAll.tookEntry = c.tookEntry := by
  unfold clearAll
  dsimp only
  rw [setPhase_tookEntry, modFloor_tookEntry, clearRequests_tookEntry, foldl_tookEntry fun c i => closeChair_tookEntry c _ _,
    clearFloor_tookEntry]

end Claim

/-- No chair slot is open exactly when each place is empty. -/
theorem Floor.chairCount_eq_zero {f : Floor} : f.chairCount = 0 ↔ ∀ i : Fin 2, f.chairs[i] = none := by
  unfold Floor.chairCount
  rw [List.length_eq_zero_iff, List.filter_eq_nil_iff]
  constructor
  · intro none_ i
    have empty := none_ f.chairs[i] (Vector.mem_toList_iff.mpr (Vector.getElem_mem i.isLt))
    simpa using empty
  · intro none_ x hx
    obtain ⟨i, hi, rfl⟩ := Vector.mem_iff_getElem.mp (Vector.mem_toList_iff.mp hx)
    have empty := none_ ⟨i, hi⟩
    simp only [Fin.getElem_fin] at empty
    simp [empty]

/-- Settles O34: the floor of each command's claim, after which nothing follows. -/
theorem floorHaltClear : Obligations.FloorHaltClear := by
  unfold Obligations.FloorHaltClear
  refine ⟨fun s l c hc => ?_, fun s l c hc => ?_⟩
  · have acts : exec (.floorHalt l) s = .next ((floorHaltAction c.payload s).1.answer l c (floorHaltAction c.payload s).2) :=
      congrArg _ (hc.acts floorHaltAction)
    rw [acts]
    refine ⟨fun halted => ?_, fun running => ⟨s.event Claim.haltFloor, ?_, ?_, fun l' => ?_⟩⟩
    · simp only [floorHaltAction, if_pos halted]
    · simp only [floorHaltAction, if_neg running]
    · rw [State.haltFloor_event]
      exact if_neg running
    · exact State.event_flagged (Claim.haltFloor_flagged (.start s) running l')
  · have acts : exec (.floorClear l) s = .next ((floorClearAction c.payload s).1.answer l c (floorClearAction c.payload s).2) :=
      congrArg _ (hc.acts floorClearAction)
    rw [acts]
    refine ⟨fun halted noChair noRequest => ?_, fun some_ => ⟨s.event Claim.clearAll, ?_, ?_⟩⟩
    · have nothing : s.floor.phase = .halted ∧ s.floor.chairCount = 0 ∧ s.floor.requests = [] :=
        ⟨halted, Floor.chairCount_eq_zero.mpr noChair, noRequest⟩
      simp only [floorClearAction, if_pos nothing]
    · have something : ¬ (s.floor.phase = .halted ∧ s.floor.chairCount = 0 ∧ s.floor.requests = []) := fun none_ =>
        some_ ⟨none_.1, Floor.chairCount_eq_zero.mp none_.2.1, none_.2.2⟩
      simp only [floorClearAction, if_neg something]
    · have floor := Claim.clearAll_floor (.start s)
      have shut : (Claim.clearAll (.start s)).floor.phase = .halted := by rw [floor]
      obtain ⟨left, -⟩ := State.event_shown (body := Claim.clearAll) (Claim.Shows.self (Claim.clearAll (.start s)))
        (Claim.settleFloor_shut _ (.inl shut))
      have due : s.versionDue (Claim.clearAll (.start s)) = decide (s.floor.requests ≠ []) := by
        unfold State.versionDue
        rw [floor, Claim.clearAll_tookEntry, Bool.or_false]
      rw [left, due, State.counted_floor, show (Claim.clearAll (.start s)).st.floor = _ from floor]
      by_cases empty : s.floor.requests = [] <;> simp [empty]

end Sys2Proof.Machine
end

section
/-! SUPPORT. The fill of a floor without slots, under WAIT (R50), and with it FLOOR OPEN (R64). -/

namespace Sys2Proof.Machine

/-! ### Lists without repetition -/

/-- Without repetition, the items beyond the first m are those that are none of the first m. -/
theorem filter_notMem_take {α : Type} [DecidableEq α] {l : List α} (h : l.Nodup) (m : Nat) : l.filter (· ∉ l.take m) = l.drop m := by
  have apart : ∀ x ∈ l.drop m, x ∉ l.take m := fun x hd ht =>
    List.disjoint_of_nodup_append ((List.take_append_drop m l).symm ▸ h) ht hd
  conv_lhs => rw [← List.take_append_drop m l]
  rw [List.filter_append]
  have first : (l.take m).filter (· ∉ (l.take m ++ l.drop m).take m) = [] := by
    rw [List.take_append_drop]
    exact List.filter_eq_nil_iff.mpr fun x hx => by simp [hx]
  have second : (l.drop m).filter (· ∉ (l.take m ++ l.drop m).take m) = l.drop m := by
    rw [List.take_append_drop]
    exact List.filter_eq_self.mpr fun x hx => by simp [apart x hx]
  rw [first, second, List.nil_append]

/-! ### The grants of a fill on a floor without slots -/

/-- The floor with the first m present entries granted, one to each place from 0 up (R50). -/
def Floor.grantedFirst (f : Floor) (now : ChamberTime) (here : List RequestEntry) (m : Nat) : Floor :=
  { f with
    slots := Vector.ofFn fun j => if j.val < m then
        here[j]?.map fun e => slotNow now f.policy.warnLead e.seat .speak .auto (e.allowance.getD f.policy.speakAllow)
      else none
    requests := f.requests.filter fun e => e ∉ here.take m }

/-- How many delegate slots are open. -/
theorem Floor.openCount_eq (f : Floor) : f.openCount = slotPlaces.countP fun i => f.slots[i].isSome := by
  unfold Floor.openCount Floor.openSlots
  rw [List.length_filterMap_eq_countP]
  exact List.countP_congr fun i _ => by simp

section Granting

variable {f : Floor} {now : ChamberTime} {here : List RequestEntry} {m : Nat}

/-- The first m places are the open ones. -/
theorem Floor.grantedFirst_isSome (hm : m ≤ here.length) (i : Fin 6) :
    (f.grantedFirst now here m).slots[i].isSome = decide (i.val < m) := by
  simp only [Floor.grantedFirst, Fin.getElem_fin, Vector.getElem_ofFn]
  split
  · next low =>
    have some_ : here[i.val]? = some here[i.val] := List.getElem?_eq_getElem (low.trans_le hm)
    simp [some_, low]
  · next high => simp [high]

/-- As many slots are open as entries are granted. -/
theorem Floor.grantedFirst_openCount (hm : m ≤ here.length) (six : m ≤ 6) : (f.grantedFirst now here m).openCount = m := by
  rw [Floor.openCount_eq]
  simp only [Floor.grantedFirst_isSome hm]
  clear hm
  revert six
  revert m
  decide

/-- The next place is the free place of lowest index. -/
theorem Floor.grantedFirst_freeSlot (hm : m ≤ here.length) (six : m < 6) :
    (f.grantedFirst now here m).freeSlot = some ⟨m, six⟩ := by
  have free (i : Fin 6) : (f.grantedFirst now here m).slots[i].isNone = decide (m ≤ i.val) := by
    rw [← Option.not_isSome, Floor.grantedFirst_isSome hm, Bool.eq_iff_iff]
    simp
  unfold Floor.freeSlot
  simp only [free]
  clear free hm
  revert six
  revert m
  decide

/-- Nothing granted yet: the floor without slots as it stands. -/
theorem Floor.grantedFirst_zero (empty : f.slots = Vector.replicate 6 none) : f.grantedFirst now here 0 = f := by
  have slots : (Vector.ofFn fun j : Fin 6 => if j.val < 0 then
      here[j]?.map fun e => slotNow now f.policy.warnLead e.seat .speak .auto (e.allowance.getD f.policy.speakAllow)
      else none) = f.slots := by
    rw [empty]
    exact Vector.ext fun j hj => by simp
  have requests : f.requests.filter (fun e => e ∉ here.take 0) = f.requests := by simp
  unfold Floor.grantedFirst
  rw [slots, requests]

/-- The seats of the request list stand in it once. -/
theorem requests_inj (nodup : (f.requests.map (·.seat)).Nodup) {d e : RequestEntry} (hd : d ∈ f.requests) (he : e ∈ f.requests)
    (seat : d.seat = e.seat) : d = e := List.inj_on_of_nodup_map nodup hd he seat

/-- The next grant takes the next present entry and the next place. -/
theorem Floor.grantedFirst_succ (nodup : (f.requests.map (·.seat)).Nodup) (inList : ∀ e ∈ here, e ∈ f.requests)
    {e : RequestEntry} (he : here[m]? = some e) (six : m < 6) :
    { f.grantedFirst now here m with
      requests := (f.grantedFirst now here m).requests.filter (·.seat ≠ e.seat)
      slots := (f.grantedFirst now here m).slots.set m
        (some (slotNow now f.policy.warnLead e.seat .speak .auto (e.allowance.getD f.policy.speakAllow))) } =
      f.grantedFirst now here (m + 1) := by
  obtain ⟨hm, rfl⟩ := List.getElem?_eq_some_iff.mp he
  unfold Floor.grantedFirst
  dsimp only
  congr 1
  · refine Vector.ext fun j hj => ?_
    simp only [Vector.getElem_set, Vector.getElem_ofFn]
    by_cases next_ : m = j
    · subst next_
      simp [hm]
    · have same : j < m + 1 ↔ j < m := by omega
      simp only [if_neg next_, same]
  · rw [List.filter_filter]
    refine List.filter_congr fun x hx => ?_
    have own : x.seat = here[m].seat ↔ x = here[m] :=
      ⟨requests_inj nodup hx (inList _ (List.getElem_mem hm)), congrArg RequestEntry.seat⟩
    rw [Bool.eq_iff_iff]
    simp only [List.take_add_one, he, Option.toList_some, List.mem_append, List.mem_singleton, ne_eq, own, Bool.and_eq_true,
      decide_eq_true_eq, not_or]
    exact and_comm

/-- The present entries left are those beyond the first m. -/
theorem Floor.grantedFirst_find {p : Nat → Bool} (nodup : (f.requests.map (·.seat)).Nodup)
    (hh : here = f.requests.filter fun e => p e.seat) :
    (f.grantedFirst now here m).requests.find? (fun e => p e.seat) = here[m]? := by
  have hereNodup : here.Nodup := hh ▸ (List.Nodup.of_map _ nodup).filter _
  have left : (f.grantedFirst now here m).requests.filter (fun e => p e.seat) = here.drop m := by
    calc (f.grantedFirst now here m).requests.filter (fun e => p e.seat)
        = (f.requests.filter fun e => p e.seat).filter (fun e => e ∉ here.take m) := List.filter_comm _ _ _
      _ = here.filter (fun e => e ∉ here.take m) := by rw [← hh]
      _ = here.drop m := filter_notMem_take hereNodup m
  rw [← List.head?_filter, left, List.head?_drop]

/-- An entry is its seat's. -/
theorem Floor.requestOf_of_mem (nodup : (f.requests.map (·.seat)).Nodup) {e : RequestEntry} (he : e ∈ f.requests) :
    f.requestOf e.seat = some e := by
  have found : f.requestOf e.seat ≠ none := by
    unfold Floor.requestOf
    rw [ne_eq, List.find?_eq_none]
    exact fun none_ => none_ e he (decide_eq_true rfl)
  obtain ⟨d, hd⟩ := Option.ne_none_iff_exists'.mp found
  have seat : d.seat = e.seat := by simpa using List.find?_some hd
  rw [hd, requests_inj nodup (List.mem_of_find?_eq_some hd) he seat]

/-- The entries not yet granted stand in the list once. -/
theorem Floor.grantedFirst_nodup (nodup : (f.requests.map (·.seat)).Nodup) :
    ((f.grantedFirst now here m).requests.map (·.seat)).Nodup :=
  nodup.sublist (List.filter_sublist.map _)

/-- The loop of the fill, under WAIT, grants the present entries in list order until FLOOR_MAX slots are open (R50). -/
theorem fillLoop_grants {p : Nat → Bool} (nodup : (f.requests.map (·.seat)).Nodup) (hh : here = f.requests.filter fun e => p e.seat)
    (wait : f.policy.fullPolicy = .wait) (six : f.policy.floorMax ≤ 6) (k : Nat) {m : Nat} {c : Claim}
    (floor : c.floor = f.grantedFirst now here m) (time : c.time = now) (present : ∀ n, c.st.isHere n = p n)
    (max : m ≤ f.policy.floorMax) (hm : m ≤ here.length) (turns : here.length - m ≤ k) :
    (Claim.fillLoop k c).floor = f.grantedFirst now here (min f.policy.floorMax here.length) := by
  induction k generalizing m c with
  | zero =>
    have last : min f.policy.floorMax here.length = m := by omega
    rw [last]
    exact floor
  | succ k ih =>
    have policy : c.policy = f.policy := by
      show c.floor.policy = _
      rw [floor]
      rfl
    have first : c.st.firstPresent = here[m]? := by
      unfold State.firstPresent
      simp only [present]
      rw [show c.st.floor = _ from floor]
      exact Floor.grantedFirst_find nodup hh
    have count : c.floor.openCount = m := by
      rw [floor]
      exact Floor.grantedFirst_openCount hm (max.trans six)
    unfold Claim.fillLoop
    rw [first]
    cases he : here[m]? with
    | none =>
      have last : min f.policy.floorMax here.length = m := by
        have := List.getElem?_eq_none_iff.mp he
        omega
      rw [last]
      exact floor
    | some e =>
      have inHere : m < here.length := (List.getElem?_eq_some_iff.mp he).1
      dsimp only
      rw [count, policy]
      split
      · next room =>
        have place : c.st.floor.freeSlot = some ⟨m, room.trans_le six⟩ := by
          rw [show c.st.floor = _ from floor]
          exact Floor.grantedFirst_freeSlot hm (room.trans_le six)
        have entry : e ∈ (f.grantedFirst now here m).requests := floor ▸ List.mem_of_find?_eq_some (first.trans he)
        have request : c.st.floor.requestOf e.seat = some e := by
          rw [show c.st.floor = _ from floor]
          exact Floor.requestOf_of_mem (Floor.grantedFirst_nodup nodup) entry
        have next_ : (c.grantSpeak e.seat .auto none).floor = f.grantedFirst now here (m + 1) := by
          rw [← Floor.grantedFirst_succ nodup (fun e he => (List.mem_filter.mp (hh ▸ he)).1) he (room.trans_le six),
            ((Claim.Shows.self c).grantSpeak place e.seat .auto none).floor]
          unfold State.speakEntered
          rw [request, if_neg (by simp), show c.st.time = now from time]
          simp only [State.raise_floor, State.notify_floor, State.modFloor_floor]
          rw [show c.st.floor = _ from floor]
          rfl
        have frame := Claim.grantSpeak_frame (.refl c.st) e.seat .auto none
        refine ih next_ ((congrArg TimeBase.chamberTime frame.timeBase).trans time)
          (fun n => (Claim.isHere_of_frame frame n).trans (present n)) room inHere (by omega)
      · next full =>
        have waits : c.displaced = none := by
          unfold Claim.displaced
          rw [policy, wait]
          exact if_neg fun displaces => absurd displaces.1 (by decide)
        have last : min f.policy.floorMax here.length = m := by omega
        rw [waits, last]
        exact floor

end Granting

/-- What the fill grants, in the words of the statement: FLOOR_MAX bounds the places and the entries. -/
theorem Floor.grantedFirst_min (f : Floor) (now : ChamberTime) (here : List RequestEntry) :
    f.grantedFirst now here (min f.policy.floorMax here.length) = f.grantedFirst now here f.policy.floorMax := by
  rcases Nat.le_total f.policy.floorMax here.length with few | all
  · rw [Nat.min_eq_left few]
  · rw [Nat.min_eq_right all]
    unfold Floor.grantedFirst
    congr 1
    · refine Vector.ext fun j hj => ?_
      simp only [Vector.getElem_ofFn]
      by_cases low : j < here.length
      · rw [if_pos low, if_pos (low.trans_le all)]
      · have none_ : here[(⟨j, hj⟩ : Fin 6)]? = none := List.getElem?_eq_none (Nat.not_lt.1 low)
        rw [if_neg low, none_, Option.map_none, ite_self]
    · rw [List.take_length, List.take_of_length_le all]

/-! ### FLOOR OPEN (R64) -/

/-- A fill that finds no present entry, or no place under WAIT, grants nothing. -/
theorem fillLoop_nothing (k : Nat) (c : Claim) (h : c.st.firstPresent = none ∨ c.policy.floorMax = 0 ∧ c.policy.fullPolicy = .wait) :
    Claim.fillLoop k c = c := by
  cases k with
  | zero => rfl
  | succ k =>
    unfold Claim.fillLoop
    rcases h with none_ | ⟨noPlace, wait⟩
    · rw [none_]
    · have waits : c.displaced = none := by
        unfold Claim.displaced
        rw [wait]
        exact if_neg fun displaces => absurd displaces.1 (by decide)
      rw [noPlace, waits]
      cases c.st.firstPresent <;> rfl

/-- The claim of FLOOR OPEN. -/
def Claim.openFloor (c : Claim) : Claim := (c.setPhase .openFloor).fillPoint

/-- What the claim of FLOOR OPEN shows on a HALTED floor. -/
theorem Claim.Shows.openFloor {c : Claim} {x : State} (h : c.Shows x) (halted : x.floor.phase = .halted) : c.openFloor.Shows
    (((x.notify ⟨.phase, .none, some 0, [3]⟩).raise .floor).modFloor fun f => { f with phase := .openFloor }) := by
  have opened := (h.setPhase (p := .openFloor) (by simp [halted])).fillPoint
  rw [halted] at opened
  exact ⟨opened.floor, opened.report, opened.time⟩

/-- The fill of FLOOR OPEN on a floor without slots, under WAIT. -/
theorem openFloor_fill {s : State} (halted : s.floor.phase = .halted) (auto : s.floor.policy.grantMode = .auto)
    (six : s.floor.policy.floorMax ≤ 6) {here : List RequestEntry} (hh : here = s.floor.requests.filter fun e => s.isHere e.seat)
    (wait : s.floor.policy.fullPolicy = .wait) (empty : s.floor.slots = Vector.replicate 6 none)
    (nodup : (s.floor.requests.map (·.seat)).Nodup) :
    (s.event Claim.openFloor).floor = { ({ s.floor with phase := .openFloor } : Floor).grantedFirst s.time here
        s.floor.policy.floorMax with
      listVersion := if here = [] ∨ s.floor.policy.floorMax = 0 then s.floor.listVersion else s.floor.listVersion + 1 } := by
  have opened := (Claim.Shows.start s).openFloor halted
  generalize hc : Claim.openFloor (.start s) = c at opened
  have due : c.fillDue = true := by rw [← hc]; rfl
  have took : c.tookEntry = false := by rw [← hc]; simp [Claim.openFloor]
  have floor : c.floor = ({ s.floor with phase := .openFloor } : Floor).grantedFirst s.time here 0 := by
    rw [opened.floor, Floor.grantedFirst_zero (by exact empty)]
    rfl
  have policy : c.policy = s.floor.policy := opened.policy
  have phase : c.floor.phase = .openFloor := by rw [floor]; rfl
  have frame : s.FloorFrame c.st := by
    rw [← hc]
    exact Claim.fillPoint_frame (Claim.setPhase_frame (.refl s) .openFloor)
  have fill : c.fill = Claim.fillLoop c.floor.requests.length c := if_pos ⟨phase, policy ▸ auto⟩
  have length : here.length ≤ c.floor.requests.length := by
    rw [opened.floor, hh]
    exact List.length_filter_le _ _
  have filled : c.fill.floor =
      ({ s.floor with phase := .openFloor } : Floor).grantedFirst s.time here s.floor.policy.floorMax := by
    have granted := fillLoop_grants (f := { s.floor with phase := .openFloor }) (now := s.time) (p := s.isHere) nodup hh wait six
      c.floor.requests.length floor opened.time (Claim.isHere_of_frame frame) (Nat.zero_le _) (Nat.zero_le _) length
    rw [fill, granted]
    exact Floor.grantedFirst_min _ _ _
  have settled : c.settleFloor = { c.fill with fillDue := false, serveDue := false } := by
    have notRound : ¬ c.fill.floor.phase = .replyRound := by rw [filled]; exact (nomatch ·)
    unfold Claim.settleFloor
    simp only [phase, if_pos due, if_neg notRound]
  obtain ⟨left, -⟩ := s.event_counted Claim.openFloor (Claim.Shows.self (Claim.openFloor (.start s)).settleFloor)
  rw [hc, settled] at left
  rw [left, State.counted_floor]
  show ({ c.fill.floor with listVersion := _ } : Floor) = _
  have version : c.fill.floor.listVersion = s.floor.listVersion := by
    rw [filled]
    rfl
  rw [version, filled]
  dsimp only
  congr 1
  by_cases none_ : here = [] ∨ s.floor.policy.floorMax = 0
  · have nothing : c.fill = c := by
      rw [fill]
      refine fillLoop_nothing _ c ?_
      rcases none_ with noEntry | noPlace
      · left
        rw [State.firstPresent_eq_none, show c.st.floor = _ from opened.floor]
        intro e he
        rw [Claim.isHere_of_frame frame]
        have absent := List.filter_eq_nil_iff.mp (hh.symm.trans noEntry) e he
        simpa using absent
      · right
        exact ⟨policy ▸ noPlace, policy ▸ wait⟩
    have undue : s.versionDue { c.fill with fillDue := false, serveDue := false } = false := by
      unfold State.versionDue
      rw [nothing]
      show (decide (s.floor.requests ≠ c.floor.requests) || c.tookEntry) = false
      rw [opened.floor, took]
      simp
    rw [undue, if_pos none_, if_neg Bool.false_ne_true]
  · obtain ⟨some_, places⟩ := not_or.mp none_
    have isDue : s.versionDue { c.fill with fillDue := false, serveDue := false } = true := by
      unfold State.versionDue
      show (decide (s.floor.requests ≠ c.fill.floor.requests) || c.fill.tookEntry) = true
      rw [filled]
      simp only [Bool.or_eq_true, decide_eq_true_eq]
      left
      intro same
      obtain ⟨e, rest, cons⟩ := List.exists_cons_of_ne_nil some_
      have inList : e ∈ s.floor.requests := (List.mem_filter.mp (hh ▸ cons ▸ List.mem_cons_self : e ∈ s.floor.requests.filter _)).1
      have granted : e ∈ here.take s.floor.policy.floorMax := by
        obtain ⟨k, hk⟩ := Nat.exists_eq_succ_of_ne_zero places
        rw [cons, hk]
        exact List.mem_cons_self
      rw [same] at inList
      exact absurd granted (by simpa using (List.mem_filter.mp inList).2)
    rw [isDue, if_neg none_, if_pos rfl]

/-- Settles O33: by the phase, and in HALTED by the fill that follows. -/
theorem floorOpen : Obligations.FloorOpen := by
  unfold Obligations.FloorOpen
  intro s l c hc
  have acts : exec (.floorOpen l) s = .next ((floorOpenAction c.payload s).1.answer l c (floorOpenAction c.payload s).2) :=
    congrArg _ (hc.acts floorOpenAction)
  rw [acts]
  refine ⟨fun running => ?_, fun interrupted => ?_, fun halted => ⟨s.event Claim.openFloor, ?_, fun l' => ?_, fun manual => ?_,
    fun auto six => ⟨fun noReply room => ?_, fun here hh wait empty nodup => ?_⟩⟩⟩
  · rcases running with h | h <;> simp only [floorOpenAction, h]
  · simp only [floorOpenAction, interrupted, refuseWith]
  · simp only [floorOpenAction, halted]
    rfl
  · have opened : (Claim.openFloor (.start s)).st.report = _ := ((Claim.Shows.start s).openFloor halted).report
    exact State.event_flagged ((State.flagged_congr opened l' .floor).mpr (State.flagged_raise _ l' .floor))
  · have opened := (Claim.Shows.start s).openFloor halted
    have phase : (Claim.openFloor (.start s)).floor.phase = .openFloor := by rw [opened.floor]; rfl
    have shown := State.event_shown (body := Claim.openFloor) opened
      (Claim.settleFloor_manual _ phase (opened.policy ▸ manual))
    have undue : s.versionDue (Claim.openFloor (.start s)) = false := by
      unfold State.versionDue
      rw [opened.floor]
      simp [Claim.openFloor]
    rw [undue] at shown
    exact shown
  · have opened := (Claim.Shows.start s).openFloor halted
    have settles := State.event_settles (body := Claim.openFloor) opened (fun _ => rfl) (fun _ => .inl rfl) (by
      unfold State.firstPresentReply
      rw [show (Claim.openFloor (.start s)).st.floor = _ from opened.floor]
      have frame : s.FloorFrame (Claim.openFloor (.start s)).st :=
        Claim.fillPoint_frame (Claim.setPhase_frame (.refl s) .openFloor)
      simp only [Claim.isHere_of_frame frame]
      rfl)
    rw [State.firstPresent_eq_none]
    refine settles.filled ?_ ?_ ?_ ?_ ?_ <;> rw [State.counted_floor]
    · rfl
    · exact auto
    · exact six
    · exact noReply
    · exact room
  · rw [openFloor_fill halted auto six hh wait empty nodup]
    rfl

end Sys2Proof.Machine
end

section
/-! SUPPORT. The policy (R68, R69) and EXTEND (R82 to R84). -/

namespace Sys2Proof.Machine

/-- A claim that leaves the request list and takes no entry of it counts no version. -/
theorem State.versionDue_kept {s x : State} {c : Claim} (h : c.Shows x) (same : x.floor.requests = s.floor.requests)
    (took : c.tookEntry = false) : s.versionDue c = false := by
  unfold State.versionDue
  rw [h.floor, same, took]
  simp

/-! ### Policy values -/

/-- A code of a row of two. -/
theorem ofCode_pair {α : Type} (a b : α) (v : Nat) :
    ofCode [a, b] v = if 0 ≤ v ∧ v ≤ 1 then some (if v = 0 then a else b) else none := by
  match v with
  | 0 => rfl
  | 1 => rfl
  | v + 2 =>
    rw [if_neg (by omega)]
    rfl

/-- A code of a row of two, stored in a policy field. -/
theorem ofCode_pair_map {α β : Type} (a b : α) (v : Nat) (store : α → β) :
    (ofCode [a, b] v).map store = if 0 ≤ v ∧ v ≤ 1 then some (store (if v = 0 then a else b)) else none := by
  rw [ofCode_pair]
  split <;> rfl

/-- No and yes, as a value of a policy field. -/
theorem noYes_eq (v : Nat) : (if v = 0 then false else true) = decide (v ≠ 0) := by
  by_cases zero : v = 0 <;> simp [zero]

/-- The field of a code takes the values of its range and stores them (R68, R69). -/
theorem Policy.withValue_eq {p : Policy} {code v : Nat} {f : PolicyField} {r : Nat × Nat} (hf : ofCode policyRow code = some f)
    (hr : policyRanges[code]? = some r) : p.withValue f v = if r.1 ≤ v ∧ v ≤ r.2 then some (p.stored code v) else none := by
  have low : code < 15 := (List.getElem?_eq_some_iff.mp hf).1
  match code, low with
  | 0, _ | 3, _ | 6, _ | 8, _ | 9, _ | 10, _ | 11, _ | 12, _ | 14, _ =>
    cases hf
    cases hr
    simp [Policy.withValue, Policy.stored]
  | 1, _ | 2, _ | 7, _ | 13, _ =>
    cases hf
    cases hr
    exact ofCode_pair_map _ _ v _
  | 4, _ | 5, _ =>
    cases hf
    cases hr
    simp only [Policy.stored, ← noYes_eq]
    exact ofCode_pair_map _ _ v _

/-! ### The pairs of a payload -/

/-- A shorter payload's bytes. -/
theorem u8_cons_cons_cons (a b c : Byte) (p : List Byte) (i : Nat) : u8 (a :: b :: c :: p) (i + 3) = u8 p i := rfl

/-- The pairs of a payload of three bytes each. -/
theorem policyPairs_eq {p : List Byte} {m : Nat} (h : p.length = 3 * m) :
    policyPairs p = (List.range m).map fun j => (u8 p (3 * j), u16 p (3 * j + 1)) := by
  induction m generalizing p with
  | zero => rw [List.eq_nil_of_length_eq_zero h]; rfl
  | succ m ih =>
    match p, h with
    | a :: b :: c :: rest, h =>
      have length : rest.length = 3 * m := by simp only [List.length_cons] at h; omega
      rw [policyPairs, ih length, List.range_succ_eq_map, List.map_cons, List.map_map]
      rfl

/-- The policy after the first j pairs of a payload (R69). -/
def Policy.storedPairs (p : Policy) (payload : List Byte) (j : Nat) : Policy :=
  (List.range j).foldl (fun p i => p.stored (u8 payload (3 * i)) (u16 payload (3 * i + 1))) p

/-- The fields that the first j pairs of a payload name. -/
def namedFields (payload : List Byte) (j : Nat) : List PolicyField :=
  ((List.range j).filterMap fun i => ofCode policyRow (u8 payload (3 * i))).reverse

/-- A field is named when a pair has its code. -/
theorem mem_namedFields {payload : List Byte} {j code : Nat} {f : PolicyField} (hf : ofCode policyRow code = some f) :
    f ∈ namedFields payload j ↔ ∃ i, i < j ∧ u8 payload (3 * i) = code := by
  have one {k : Nat} (hk : ofCode policyRow k = some f) : k = code := by
    have fields : policyRow.Nodup := by decide
    exact (fields.getElem_inj_iff (hi := (List.getElem?_eq_some_iff.mp hk).1) (hj := (List.getElem?_eq_some_iff.mp hf).1)).mp
      ((List.getElem?_eq_some_iff.mp hk).2.trans (List.getElem?_eq_some_iff.mp hf).2.symm)
  simp only [namedFields, List.mem_reverse, List.mem_filterMap, List.mem_range]
  exact ⟨fun ⟨i, hi, named⟩ => ⟨i, hi, one named⟩, fun ⟨i, hi, named⟩ => ⟨i, hi, named ▸ hf⟩⟩

/-- A code has a field when it has a range. -/
theorem ofCode_policyRow_of_range {code : Nat} {r : Nat × Nat} (hr : policyRanges[code]? = some r) :
    ∃ f, ofCode policyRow code = some f :=
  ⟨_, List.getElem?_eq_getElem (l := policyRow) (List.getElem?_eq_some_iff.mp hr).1⟩

/-- The first pairs, where they pass their checks, are stored. -/
theorem setPairs_range (p : Policy) (payload : List Byte) (j n : Nat) (ok : ∀ i, i < j → policyPairOk payload i) :
    p.setPairs [] ((List.range (j + n)).map fun i => (u8 payload (3 * i), u16 payload (3 * i + 1))) =
      (p.storedPairs payload j).setPairs (namedFields payload j)
        ((List.range' j n).map fun i => (u8 payload (3 * i), u16 payload (3 * i + 1))) := by
  induction j generalizing n with
  | zero =>
    rw [Nat.zero_add, List.range_eq_range']
    rfl
  | succ j ih =>
    obtain ⟨new, r, hr, low, high⟩ := ok j (Nat.lt_succ_self j)
    obtain ⟨f, hf⟩ := ofCode_policyRow_of_range hr
    have fresh : f ∉ namedFields payload j := fun named => by
      obtain ⟨i, hi, same⟩ := (mem_namedFields hf).mp named
      exact new i hi same
    have next_ : (p.storedPairs payload j).stored (u8 payload (3 * j)) (u16 payload (3 * j + 1)) = p.storedPairs payload (j + 1) := by
      simp only [Policy.storedPairs, List.range_succ, List.foldl_append, List.foldl_cons, List.foldl_nil]
    have named : f :: namedFields payload j = namedFields payload (j + 1) := by
      simp only [namedFields, List.range_succ, List.filterMap_append, List.filterMap_cons, List.filterMap_nil, hf,
        List.reverse_append, List.reverse_cons, List.reverse_nil, List.nil_append, List.singleton_append]
    rw [show j + 1 + n = j + (n + 1) by omega, ih (n + 1) fun i hi => ok i (hi.trans (Nat.lt_succ_self j)), List.range'_succ, List.map_cons,
      Policy.setPairs, hf]
    dsimp only
    rw [if_neg fresh, Policy.withValue_eq hf hr, if_pos ⟨low, high⟩, ← next_, ← named]

section Pairs

variable {p : Policy} {payload : List Byte} {k : Nat}

/-- The pairs before pair j pass; the rest are judged after them. -/
theorem setPairs_from (length : payload.length = k) (whole : k % 3 = 0) {j : Nat} (hj : 3 * j < k)
    (ok : ∀ i, i < j → policyPairOk payload i) : ∃ rest, p.setPairs [] (policyPairs payload) =
      (p.storedPairs payload j).setPairs (namedFields payload j) ((u8 payload (3 * j), u16 payload (3 * j + 1)) :: rest) := by
  obtain ⟨m, rfl⟩ : ∃ m, k = 3 * (j + (m + 1)) := ⟨k / 3 - j - 1, by omega⟩
  rw [policyPairs_eq length, setPairs_range p payload j (m + 1) ok, List.range'_succ, List.map_cons]
  exact ⟨_, rfl⟩

/-- A code without a field, or one named before, is BAD_ARG (R69). -/
theorem setPairs_badArg (length : payload.length = k) (whole : k % 3 = 0) {j : Nat} (hj : 3 * j < k)
    (ok : ∀ i, i < j → policyPairOk payload i)
    (bad : 15 ≤ u8 payload (3 * j) ∨ ∃ i, i < j ∧ u8 payload (3 * i) = u8 payload (3 * j)) :
    p.setPairs [] (policyPairs payload) = .error .badArg := by
  obtain ⟨rest, from_⟩ := setPairs_from (p := p) length whole hj ok
  rw [from_, Policy.setPairs]
  cases hf : ofCode policyRow (u8 payload (3 * j)) with
  | none => rfl
  | some f =>
    have known : u8 payload (3 * j) < 15 := (List.getElem?_eq_some_iff.mp hf).1
    exact if_pos ((mem_namedFields hf).mpr (bad.resolve_left (by omega)))

/-- A value outside the field's range is RANGE (R69). -/
theorem setPairs_rangeError (length : payload.length = k) (whole : k % 3 = 0) {j : Nat} (hj : 3 * j < k)
    (ok : ∀ i, i < j → policyPairOk payload i) {r : Nat × Nat}
    (new : ∀ i, i < j → u8 payload (3 * i) ≠ u8 payload (3 * j)) (hr : policyRanges[u8 payload (3 * j)]? = some r)
    (outside : u16 payload (3 * j + 1) < r.1 ∨ r.2 < u16 payload (3 * j + 1)) :
    p.setPairs [] (policyPairs payload) = .error .range := by
  obtain ⟨rest, from_⟩ := setPairs_from (p := p) length whole hj ok
  obtain ⟨f, hf⟩ := ofCode_policyRow_of_range hr
  have fresh : f ∉ namedFields payload j := fun named => by
    obtain ⟨i, hi, same⟩ := (mem_namedFields hf).mp named
    exact new i hi same
  rw [from_, Policy.setPairs, hf]
  dsimp only
  rw [if_neg fresh, Policy.withValue_eq hf hr, if_neg (by omega)]

/-- Pairs that all pass are stored (R69). -/
theorem setPairs_ok (length : payload.length = k) (whole : k % 3 = 0) (ok : ∀ j, 3 * j < k → policyPairOk payload j) :
    p.setPairs [] (policyPairs payload) = .ok (p.storedPairs payload (k / 3)) := by
  rw [policyPairs_eq (m := k / 3) (by omega), ← Nat.add_zero (k / 3),
    setPairs_range p payload (k / 3) 0 fun i hi => ok i (by omega)]
  rfl

end Pairs

/-! ### POLICY SET (R69) -/

/-- The claim of POLICY SET. -/
def Claim.setPolicy (q : Policy) (c : Claim) : Claim := ((c.modFloor fun f => { f with policy := q }).raise .floor).fillPoint

/-- What the claim of POLICY SET shows. -/
theorem Claim.setPolicy_shows (s : State) (q : Policy) :
    (Claim.setPolicy q (.start s)).Shows ((s.raise .floor).modFloor fun f => { f with policy := q }) := by
  have set := (((Claim.Shows.start s).modFloor fun f => { f with policy := q }).raise .floor).fillPoint
  exact ⟨set.floor, set.report, set.time⟩

/-- POLICY SET leaves the request list. -/
theorem setPolicy_undue (s : State) (q : Policy) : s.versionDue (Claim.setPolicy q (.start s)) = false := by
  exact State.versionDue_kept (Claim.setPolicy_shows s q) rfl (by simp [Claim.setPolicy])

/-- The event of POLICY SET. -/
theorem setPolicy_settles (s : State) (q : Policy) :
    ((s.raise .floor).modFloor fun f => { f with policy := q }).Settles (s.event (Claim.setPolicy q)) := by
  have settles := State.event_settles (Claim.setPolicy_shows s q) (fun _ => rfl) (fun _ => .inl rfl) rfl
  rwa [setPolicy_undue] at settles

/-- The event of POLICY SET sets the policy. -/
theorem setPolicy_policy (s : State) (q : Policy) : (s.event (Claim.setPolicy q)).floor.policy = q := by
  rw [(State.event_steady (Floor.Steady.refl _)).policy, (Claim.setPolicy_shows s q).floor]
  rfl

/-- Where the fill point does nothing, POLICY SET only sets the policy. -/
theorem setPolicy_quiet {s : State} {q : Policy} (notRound : s.floor.phase ≠ .replyRound)
    (manual : s.floor.phase = .openFloor → q.grantMode = .manual) :
    (s.event (Claim.setPolicy q)).floor = { s.floor with policy := q } ∧
      (s.event (Claim.setPolicy q)).report = (s.raise .floor).report := by
  have shows_ := Claim.setPolicy_shows s q
  have noFill : (Claim.setPolicy q (.start s)).st.noFill := by
    unfold State.noFill
    rw [show (Claim.setPolicy q (.start s)).st.floor = _ from shows_.floor]
    show s.floor.phase = .halted ∨ s.floor.phase = .interrupted ∨ s.floor.phase = .openFloor ∧ q.grantMode = .manual
    cases phase : s.floor.phase with
    | openFloor => exact .inr (.inr ⟨rfl, manual phase⟩)
    | replyRound => exact absurd phase notRound
    | interrupted => exact .inr (.inl rfl)
    | halted => exact .inl rfl
  have shown := State.event_shown shows_ (Claim.settleFloor_noFill _ noFill)
  rw [setPolicy_undue] at shown
  exact shown

/-- POLICY SET of a checked policy that differs. -/
theorem policySetAction_changed {payload : List Byte} {s : State} {q : Policy}
    (ok : s.floor.policy.setPairs [] (policyPairs payload) = .ok q) (differs : q ≠ s.floor.policy) :
    policySetAction payload s = (s.event (Claim.setPolicy q), .of .done) := by
  unfold policySetAction
  rw [ok]
  exact if_neg differs

/-- POLICY SET of a checked policy that is the policy. -/
theorem policySetAction_same {payload : List Byte} {s : State} {q : Policy}
    (ok : s.floor.policy.setPairs [] (policyPairs payload) = .ok q) (same : q = s.floor.policy) :
    policySetAction payload s = (s, .of .unchanged) := by
  unfold policySetAction
  rw [ok]
  exact if_pos same

/-- POLICY SET of a failed check. -/
theorem policySetAction_error {payload : List Byte} {s : State} {e : Status}
    (error : s.floor.policy.setPairs [] (policyPairs payload) = .error e) : policySetAction payload s = (s, .of e) := by
  unfold policySetAction
  rw [error]
  rfl

/-- Settles O37: by the checks of the pairs in order, and the fill point of the event. -/
theorem policySet : Obligations.PolicySet := by
  unfold Obligations.PolicySet
  intro s l c k hc low high whole
  have length : c.payload.length = k := hc.length
  have acts : exec (.policySet l) s = .next ((policySetAction c.payload s).1.answer l c (policySetAction c.payload s).2) :=
    congrArg _ (hc.actsBy hc.ofKind (by simp [low, high, whole]) policySetAction)
  rw [acts]
  refine ⟨fun e error => by rw [policySetAction_error error], fun q ok => ⟨fun same => ?_, fun differs => ?_⟩,
    fun j hj before => ⟨fun bad => ?_, fun r new hr outside => ?_⟩, fun all q hq => ⟨fun same => ?_, fun differs => ?_⟩⟩
  · rw [policySetAction_same ok same]
  · rw [policySetAction_changed ok differs]
    exact ⟨_, rfl, setPolicy_policy s q, fun l' => State.event_flagged
      ((State.flagged_congr (Claim.setPolicy_shows s q).report l' .floor).mpr (State.flagged_raise _ l' .floor)), setPolicy_quiet⟩
  · rw [policySetAction_error (setPairs_badArg length whole hj before bad)]
  · rw [policySetAction_error (setPairs_rangeError length whole hj before new hr outside)]
  · rw [policySetAction_same ((setPairs_ok length whole all).trans (congrArg _ hq.symm)) same]
  · rw [policySetAction_changed ((setPairs_ok length whole all).trans (congrArg _ hq.symm)) differs]
    exact ⟨_, rfl, setPolicy_policy s q, setPolicy_settles s q⟩

/-! ### EXTEND (R82 to R84) -/

/-- An open limited slot with k more ticks (R83). -/
theorem DelegateSlot.extend_of_some {now t : ChamberTime} {k : Nat} {d : DelegateSlot} (limited : d.deadline = some t) :
    d.extend now k = { d with
      deadline := some (after t k), warnAt := d.warnAt.map (after · k), overtime := d.overtime && reached now (after t k) } := by
  simp [DelegateSlot.extend, limited]

/-- The limit of an open limited slot, in the words of the statement. -/
theorem slotLimitResult_some (s : State) (t : ChamberTime) :
    s.slotLimitResult (some t) = [1] ++ be32 t ++ be16 (ticksLeft s.time t) := by
  simp [State.slotLimitResult, State.timeBytes, remainingBytes, flagByte]

/-- The claim of an EXTEND of an open slot. -/
def Claim.extendSlot (i : Fin 6) (d : DelegateSlot) (k : Nat) (now : ChamberTime) (c : Claim) : Claim :=
  ((c.modFloor fun f => { f with slots := f.slots.set i (some (d.extend now k)) }).raise .floor).touch d.seat

/-- The event of an EXTEND of an open slot changes that slot alone. -/
theorem extendSlot_event (s : State) (i : Fin 6) (d : DelegateSlot) (k : Nat) :
    (s.event (Claim.extendSlot i d k s.time)).floor = { s.floor with slots := s.floor.slots.set i (some (d.extend s.time k)) } ∧
      (s.event (Claim.extendSlot i d k s.time)).report = (s.raise .floor).report := by
  have extended := (((Claim.Shows.start s).modFloor fun f => { f with slots := f.slots.set i (some (d.extend s.time k)) }).raise
    .floor).touch d.seat
  have shown := State.event_undue (body := Claim.extendSlot i d k s.time) extended
    (by constructor <;> simp [Claim.extendSlot])
  have undue : s.versionDue (Claim.extendSlot i d k s.time (.start s)) = false := by
    exact State.versionDue_kept (c := Claim.extendSlot i d k s.time (.start s)) extended rfl (by simp [Claim.extendSlot])
  rw [undue] at shown
  exact shown

/-- EXTEND of an open limited slot that stays within the longest limit (R83). -/
theorem extendSlot_within {s : State} {i : Fin 6} {d : DelegateSlot} {k : Nat} {t : ChamberTime} (limited : d.deadline = some t)
    (within : ticksLeft s.time (after t k) ≤ 36000) : extendSlot s k i d = (s.event (Claim.extendSlot i d k s.time),
      .of .done ([1] ++ be32 (after t k) ++ be16 (ticksLeft s.time (after t k)))) := by
  have extended : s.FloorFrame (s.event (Claim.extendSlot i d k s.time)) := by
    refine State.event_frame s _ ?_
    exact Claim.touch_frame (Claim.raise_frame (Claim.modFloor_frame (.refl s) _) .floor) d.seat
  have time : (s.event (Claim.extendSlot i d k s.time)).time = s.time := congrArg TimeBase.chamberTime extended.timeBase
  unfold extendSlot
  rw [limited]
  dsimp only
  rw [if_neg (Nat.not_lt.mpr within), ← time, ← slotLimitResult_some, time]
  rfl

/-- The records of a frame, the seat's with k more ticks. -/
theorem find?_map_extend (records : List HeldSlot) (n k : Nat) :
    (records.map fun x => if x.seat = n then x.extend k else x).find? (·.seat = n) =
      (records.find? (·.seat = n)).map (·.extend k) := by
  induction records with
  | nil => rfl
  | cons x rest ih =>
    by_cases own : x.seat = n
    · have kept : (x.extend k).seat = n := own
      simp [own, kept]
    · simp [own, ih]

/-- The seat's held record after an EXTEND (R84). -/
theorem heldOf_extend (f : Floor) (n k : Nat) :
    ({ f with stack := f.stack.map fun fr => { fr with
        records := fr.records.map fun x => if x.seat = n then x.extend k else x } } : Floor).heldOf n =
      (f.heldOf n).map (·.extend k) := by
  unfold Floor.heldOf
  rw [← find?_map_extend, List.map_flatMap, List.flatMap_map]

section Extend

variable {s : State} {p : List Byte} {n k : Nat} (hn : u16 p 0 = n) (hk : u16 p 2 = k) (seatIn : 1 ≤ n ∧ n ≤ 480)
  (ticksIn : 1 ≤ k ∧ k ≤ 36000)

/-- EXTEND of a bad number is RANGE. -/
theorem extendAction_range (bad : u16 p 0 < 1 ∨ 480 < u16 p 0 ∨ u16 p 2 < 1 ∨ 36000 < u16 p 2) :
    extendAction p s = (s, .of .range) := by
  have refused : (!seatOk (u16 p 0)) = true ∨ u16 p 2 < 1 ∨ Config.maxTicks < u16 p 2 := by
    rcases bad with low | high | few | many
    · exact .inl (by simp [seatOk, Config.seats]; omega)
    · exact .inl (by simp [seatOk, Config.seats]; omega)
    · exact .inr (.inl few)
    · exact .inr (.inr many)
  exact if_pos refused

include hn hk seatIn ticksIn

/-- EXTEND of good numbers goes by the seat's slot, or its held record. -/
theorem extendAction_eq : extendAction p s = match (s.floor.slotOf n).bind fun i => s.floor.slots[i].map fun d => (i, d) with
    | some (i, d) => extendSlot s k i d
    | none =>
      match s.floor.heldOf n with
      | some h => extendHeld s k h
      | none => (s, .of .notFound) := by
  have fine : ¬ ((!seatOk (u16 p 0)) = true ∨ u16 p 2 < 1 ∨ Config.maxTicks < u16 p 2) := by
    rintro (bad | few | many)
    · rw [hn, seatOk_iff.mpr seatIn] at bad
      exact absurd bad (by decide)
    · omega
    · have : Config.maxTicks = 36000 := rfl
      omega
  unfold extendAction
  dsimp only
  rw [if_neg fine, hn, hk]
  rfl

/-- EXTEND of a seat with an open slot. -/
theorem extendAction_slot {i : Fin 6} {d : DelegateSlot} (hi : s.floor.slotOf n = some i) (hd : s.floor.slots[i] = some d) :
    extendAction p s = extendSlot s k i d := by
  rw [extendAction_eq hn hk seatIn ticksIn, hi, Option.bind_some, hd]
  rfl

/-- EXTEND of a seat without an open slot. -/
theorem extendAction_noSlot (noSlot : s.floor.slotOf n = none) : extendAction p s = match s.floor.heldOf n with
    | some h => extendHeld s k h
    | none => (s, .of .notFound) := by
  rw [extendAction_eq hn hk seatIn ticksIn, noSlot]
  rfl

end Extend

/-- Settles O38: by the slot, or the held record, the seat has. -/
theorem extend : Obligations.Extend := by
  unfold Obligations.Extend
  intro s l c hc
  have acts : exec (.extend l) s = .next ((extendAction c.payload s).1.answer l c (extendAction c.payload s).2) :=
    congrArg _ (hc.actsBy hc.ofKind rfl extendAction)
  rw [acts]
  refine ⟨fun bad => by rw [extendAction_range bad], fun n k hn hk low high few many => ⟨fun i d hi hd => ?_, fun noSlot =>
    ⟨fun noHeld => ?_, fun h hh => ?_⟩⟩⟩
  · rw [extendAction_slot hn hk ⟨low, high⟩ ⟨few, many⟩ hi hd]
    refine ⟨fun unlimited => ?_, fun t limited beyond => ?_, fun t limited within => ?_⟩
    · simp only [extendSlot, unlimited]
      exact ⟨_, rfl⟩
    · simp only [extendSlot, limited]
      rw [if_pos beyond, slotLimitResult_some]
    · rw [extendSlot_within limited within, ← DelegateSlot.extend_of_some limited]
      exact ⟨s.event (Claim.extendSlot i d k s.time), rfl, extendSlot_event s i d k⟩
  · rw [extendAction_noSlot hn hk ⟨low, high⟩ ⟨few, many⟩ noSlot, noHeld]
  · have seat : h.seat = n := by simpa using List.find?_some hh
    rw [extendAction_noSlot hn hk ⟨low, high⟩ ⟨few, many⟩ noSlot, hh]
    dsimp only
    refine ⟨fun unlimited => ?_, fun r limited beyond => ?_, fun r limited within => ?_⟩
    · simp only [extendHeld, unlimited]
      exact ⟨_, rfl⟩
    · simp only [extendHeld, limited]
      rw [if_pos beyond]
      exact ⟨_, rfl⟩
    · simp only [extendHeld, limited]
      rw [if_neg (Nat.not_lt.mpr within), seat]
      refine ⟨_, _, rfl, ?_, rfl, rfl, rfl⟩
      refine (heldOf_extend s.floor n k).trans ?_
      rw [hh]
      simp [HeldSlot.extend, limited, seat]

end Sys2Proof.Machine
end

section
/-! SUPPORT. The alarm points (R131) and the commands that move chamber time and set an alarm (R128, R132). -/

namespace Sys2Proof.Machine

namespace Claim

/-! ### What a halt leaves of the seats -/

theorem modFloor_seats (c : Claim) (f : Floor → Floor) : (c.modFloor f).st.seats = c.st.seats := rfl
theorem raise_seats (c : Claim) (e : EventFlag) : (c.raise e).st.seats = c.st.seats := rfl
theorem touch_seats (c : Claim) (n : Nat) : (c.touch n).st.seats = c.st.seats := congrArg State.seats (touch_st c n)
theorem touchAll_seats (c : Claim) (ns : List Nat) : (c.touchAll ns).st.seats = c.st.seats := congrArg State.seats (touchAll_st c ns)

/-- Steps that leave the seats, one after another. -/
theorem foldl_seats {α : Type} {f : Claim → α → Claim} (step : ∀ (c : Claim) (a : α), (f c a).st.seats = c.st.seats) (l : List α)
    (c : Claim) : (l.foldl f c).st.seats = c.st.seats := by
  induction l generalizing c with
  | nil => rfl
  | cons a l ih => rw [List.foldl_cons, ih, step]

theorem discardFrames_seats (c : Claim) : c.discardFrames.st.seats = c.st.seats := by
  unfold discardFrames
  dsimp only
  split
  · rfl
  · show (c.floor.stack.foldl _ c).st.seats = _
    refine foldl_seats (fun c fr => ?_) _ c
    exact touchAll_seats _ _

theorem setChairMode_seats (c : Claim) (i : Fin 2) (m : ChairState) : (c.setChairMode i m).st.seats = c.st.seats := by
  unfold setChairMode
  split
  · rfl
  · split <;> rfl

theorem releaseSlot_seats (c : Claim) (i : Fin 6) (why : Reason) : (c.releaseSlot i why).st.seats = c.st.seats := by
  unfold releaseSlot
  split
  · rfl
  · exact touch_seats _ _

theorem clearReplies_seats (c : Claim) (why : Reason) : (c.clearReplies why).st.seats = c.st.seats := by
  unfold clearReplies
  dsimp only
  split
  · rfl
  · show (c.floor.replies.foldl _ (c.modFloor fun f => { f with replies := [] })).st.seats = _
    refine (foldl_seats (fun c e => ?_) _ _).trans (modFloor_seats _ _)
    exact touch_seats _ _

theorem setPhase_seats (c : Claim) (p : Phase) : (c.setPhase p).st.seats = c.st.seats := by
  unfold setPhase
  split <;> rfl

theorem clearFloor_seats (c : Claim) : c.clearFloor.st.seats = c.st.seats := by
  unfold clearFloor
  dsimp only
  rw [clearReplies_seats, foldl_seats fun c x => releaseSlot_seats c _ _, foldl_seats fun c i => setChairMode_seats c _ _,
    discardFrames_seats]

theorem haltFloor_seats (c : Claim) : c.haltFloor.st.seats = c.st.seats := by
  unfold haltFloor
  split
  · rfl
  · rw [raise_seats, setPhase_seats, modFloor_seats, clearFloor_seats]

end Claim

/-! ### One alarm -/

/-- The floor after an alarm's action (R131). -/
def Floor.afterAlarm (f : Floor) : AlarmAction → Floor
  | .none => f
  | .haltFloor => f.halted
  | .closeList => { f with gate := .closed }

/-- The alarms, this one disarmed. -/
def TimeBase.disarmed (t : TimeBase) (i : Fin 3) : TimeBase :=
  { t with alarms := t.alarms.set i { t.alarms[i] with armed := false } }

/-- An alarm's flag and notice (R131). -/
def State.alarmTold (x : State) (i : Fin 3) (a : Alarm) : State :=
  (x.raise (alarmFlag i)).notify ⟨.alarm, .alarm i, some (codeIn alarmActionRow a.action), [a.target]⟩

theorem Floor.afterAlarm_requests (f : Floor) (a : AlarmAction) : (f.afterAlarm a).requests = f.requests := by
  cases a with
  | none | closeList => rfl
  | haltFloor =>
    show f.halted.requests = _
    unfold Floor.halted
    split <;> rfl

/-- A halted floor is in HALTED. -/
theorem Floor.halted_phase (f : Floor) : f.halted.phase = .halted := by
  unfold Floor.halted
  split
  · assumption
  · rfl

/-- No alarm ends HALTED. -/
theorem Floor.afterAlarm_halted {f : Floor} (h : f.phase = .halted) (a : AlarmAction) : (f.afterAlarm a).phase = .halted := by
  cases a with
  | none | closeList => exact h
  | haltFloor => exact f.halted_phase

/-- No alarm opens the gate. -/
theorem Floor.afterAlarm_closed {f : Floor} (h : f.gate = .closed) (a : AlarmAction) : (f.afterAlarm a).gate = .closed := by
  cases a with
  | none => exact h
  | closeList => rfl
  | haltFloor =>
    show f.halted.gate = _
    unfold Floor.halted
    split <;> exact h

namespace TimeBase

theorem disarmed_alarm (t : TimeBase) (i j : Fin 3) : (t.disarmed i).alarms[j] =
    if i = j then { t.alarms[j] with armed := false } else t.alarms[j] := by
  simp only [disarmed, Fin.getElem_fin, Vector.getElem_set, Fin.ext_iff]
  split
  · next same => simp only [same]
  · rfl

/-- An alarm keeps its target and its action. -/
theorem disarmed_target (t : TimeBase) (i j : Fin 3) : (t.disarmed i).alarms[j].target = t.alarms[j].target := by
  rw [disarmed_alarm]
  split <;> rfl
theorem disarmed_action (t : TimeBase) (i j : Fin 3) : (t.disarmed i).alarms[j].action = t.alarms[j].action := by
  rw [disarmed_alarm]
  split <;> rfl

end TimeBase

/-- A change of the Time Base on both sides. -/
theorem State.FloorFrame.withTime {s t : State} (h : s.FloorFrame t) (b : TimeBase) :
    ({ s with timeBase := b } : State).FloorFrame { t with timeBase := b } :=
  ⟨h.ports, rfl, h.pins, h.due, h.now, h.freeDraws, h.pending, h.trunks, h.seats, h.report, h.pendingWf, h.marksKept, h.imageMarked⟩

namespace Claim

/-- What an alarm does before its action. -/
def tellAlarm (c : Claim) (i : Fin 3) : Claim :=
  ((c.modAlarm i fun a => { a with armed := false }).raise (alarmFlag i)).notify
    ⟨.alarm, .alarm i, some (codeIn alarmActionRow c.st.timeBase.alarms[i].action), [c.st.timeBase.alarms[i].target]⟩

section FireAlarm

variable {c : Claim} {i : Fin 3}

theorem fireAlarm_none (a : c.st.timeBase.alarms[i].action = .none) : c.fireAlarm i = c.tellAlarm i := by
  simp only [fireAlarm, a, tellAlarm]
theorem fireAlarm_haltFloor (a : c.st.timeBase.alarms[i].action = .haltFloor) : c.fireAlarm i = (c.tellAlarm i).haltFloor := by
  simp only [fireAlarm, a, tellAlarm]
theorem fireAlarm_closeList (a : c.st.timeBase.alarms[i].action = .closeList) : c.fireAlarm i = (c.tellAlarm i).closeGate := by
  simp only [fireAlarm, a, tellAlarm]

end FireAlarm

variable (c : Claim) (i : Fin 3)

/-- The gate closed, or closed before. -/
theorem closeGate_floor : c.closeGate.floor = { c.floor with gate := .closed } := by
  unfold closeGate
  split
  · next closed => rw [← closed]
  · rfl

theorem closeGate_seats : c.closeGate.st.seats = c.st.seats := by
  unfold closeGate
  split <;> rfl

/-- The floor after an alarm (R131). -/
theorem fireAlarm_floor : (c.fireAlarm i).floor = c.floor.afterAlarm c.st.timeBase.alarms[i].action := by
  cases a : c.st.timeBase.alarms[i].action with
  | none => rw [fireAlarm_none a]; rfl
  | haltFloor => rw [fireAlarm_haltFloor a, haltFloor_floor]; rfl
  | closeList => rw [fireAlarm_closeList a, closeGate_floor]; rfl

theorem fireAlarm_seats : (c.fireAlarm i).st.seats = c.st.seats := by
  cases a : c.st.timeBase.alarms[i].action with
  | none => rw [fireAlarm_none a]; rfl
  | haltFloor => rw [fireAlarm_haltFloor a, haltFloor_seats]; rfl
  | closeList => rw [fireAlarm_closeList a, closeGate_seats]; rfl

theorem fireAlarm_tookEntry : (c.fireAlarm i).tookEntry = c.tookEntry := by
  cases a : c.st.timeBase.alarms[i].action with
  | none => rw [fireAlarm_none a]; rfl
  | haltFloor => rw [fireAlarm_haltFloor a, haltFloor_tookEntry]; rfl
  | closeList => rw [fireAlarm_closeList a, closeGate_tookEntry]; rfl

/-- An alarm changes the Time Base by its disarming alone; all else is the Floor Engine's. -/
theorem fireAlarm_frame : ({ c.st with timeBase := c.st.timeBase.disarmed i } : State).FloorFrame (c.fireAlarm i).st := by
  have told : ({ c.st with timeBase := c.st.timeBase.disarmed i } : State).FloorFrame (c.tellAlarm i).st := by
    refine notify_frame ?_ _
    refine raise_frame ?_ _
    exact .refl _
  cases a : c.st.timeBase.alarms[i].action with
  | none => rw [fireAlarm_none a]; exact told
  | haltFloor => rw [fireAlarm_haltFloor a]; exact haltFloor_frame told
  | closeList => rw [fireAlarm_closeList a]; exact closeGate_frame told

theorem fireAlarm_timeBase : (c.fireAlarm i).st.timeBase = c.st.timeBase.disarmed i := (c.fireAlarm_frame i).timeBase

/-- An alarm's flag. -/
theorem fireAlarm_flagged (l : Link) : (c.fireAlarm i).st.flagged l (alarmFlag i) := by
  have told : (c.tellAlarm i).st.flagged l (alarmFlag i) :=
    State.flagged_notify (State.flagged_raise _ l _) _
  cases a : c.st.timeBase.alarms[i].action with
  | none => rw [fireAlarm_none a]; exact told
  | haltFloor =>
    rw [fireAlarm_haltFloor a]
    exact State.flagged_of_grown (haltFloor_frame (.refl (c.tellAlarm i).st)).report told
  | closeList =>
    rw [fireAlarm_closeList a]
    exact State.flagged_of_grown (closeGate_frame (.refl (c.tellAlarm i).st)).report told

/-! ### Where no halt has an effect -/

/-- A claim that left the seats, the trunks and the images, and made nothing due. -/
structure Quiet (c d : Claim) : Prop where
  seats : d.st.seats = c.st.seats
  trunks : d.st.trunks = c.st.trunks
  touched : d.touched = c.touched
  due : c.SameDue d

theorem Quiet.refl (c : Claim) : c.Quiet c := ⟨rfl, rfl, rfl, .refl c⟩

theorem Quiet.trans {c d e : Claim} (h : c.Quiet d) (g : d.Quiet e) : c.Quiet e :=
  ⟨g.seats.trans h.seats, g.trunks.trans h.trunks, g.touched.trans h.touched, h.due.trans g.due⟩

/-- An alarm without a halt, or in HALTED, is quiet. -/
theorem fireAlarm_quiet (h : c.st.timeBase.alarms[i].action = .haltFloor → c.floor.phase = .halted) : c.Quiet (c.fireAlarm i) := by
  have told : c.Quiet (c.tellAlarm i) := ⟨rfl, rfl, rfl, rfl, rfl⟩
  cases a : c.st.timeBase.alarms[i].action with
  | none => rw [fireAlarm_none a]; exact told
  | haltFloor =>
    have nothing : (c.tellAlarm i).haltFloor = c.tellAlarm i := if_pos (h a)
    rw [fireAlarm_haltFloor a, nothing]
    exact told
  | closeList =>
    rw [fireAlarm_closeList a]
    unfold closeGate
    split
    · exact told
    · exact told.trans ⟨rfl, rfl, rfl, rfl, rfl⟩

/-- The reports of an alarm without a halt, or in HALTED (R24, R131). -/
theorem Shows.fireAlarm {c : Claim} {x : State} (shows_ : c.Shows x) {a : Alarm} (ha : c.st.timeBase.alarms[i].action = a.action)
    (ht : c.st.timeBase.alarms[i].target = a.target) (h : a.action = .haltFloor → c.floor.phase = .halted) :
    (c.fireAlarm i).st.report =
      if a.action = .closeList ∧ c.floor.gate = .opened then ((x.alarmTold i a).raise .list).report else (x.alarmTold i a).report := by
  have told : (c.tellAlarm i).Shows (x.alarmTold i a) := by
    unfold tellAlarm
    rw [ha, ht]
    have disarmed : (c.modAlarm i fun a => { a with armed := false }).Shows x := ⟨shows_.floor, shows_.report, shows_.time⟩
    exact (disarmed.raise _).notify _
  cases action : a.action with
  | none =>
    rw [fireAlarm_none (ha.trans action), if_neg (fun x => nomatch x.1)]
    exact told.report
  | haltFloor =>
    have nothing : (c.tellAlarm i).haltFloor = c.tellAlarm i := if_pos (h action)
    rw [fireAlarm_haltFloor (ha.trans action), nothing, if_neg (fun x => nomatch x.1)]
    exact told.report
  | closeList =>
    rw [fireAlarm_closeList (ha.trans action)]
    cases gate : c.floor.gate with
    | opened =>
      have closes : (c.tellAlarm i).closeGate = ((c.tellAlarm i).modFloor fun f => { f with gate := .closed }).raise .list :=
        if_neg (fun x : c.floor.gate = .closed => nomatch gate.symm.trans x)
      rw [closes, if_pos ⟨rfl, rfl⟩]
      exact ((told.modFloor _).raise .list).report
    | closed =>
      have nothing : (c.tellAlarm i).closeGate = c.tellAlarm i := if_pos gate
      rw [nothing, if_neg (fun x => nomatch x.2)]
      exact told.report

/-! ### The alarms of a list -/

/-- The alarms of a list fire. -/
def fireAll (c : Claim) (l : List (Fin 3)) : Claim := l.foldl Claim.fireAlarm c

theorem fireAll_cons (j : Fin 3) (l : List (Fin 3)) : c.fireAll (j :: l) = (c.fireAlarm j).fireAll l := rfl

/-- Other alarms stay due or not. -/
theorem fireAlarm_due {j : Fin 3} (other : i ≠ j) : (c.fireAlarm i).alarmDue j = c.alarmDue j := by
  show ((c.fireAlarm i).st.timeBase.alarms[j].armed &&
    reached (c.fireAlarm i).st.timeBase.chamberTime (c.fireAlarm i).st.timeBase.alarms[j].target) = _
  rw [fireAlarm_timeBase, TimeBase.disarmed_alarm, if_neg other]
  rfl

/-- The check fires the alarms due at its beginning, in ascending number. -/
theorem checkAlarms_eq : c.checkAlarms = c.fireAll c.st.firing := by
  have walk (l : List (Fin 3)) (c : Claim) (once : l.Nodup) :
      l.foldl (fun c i => if c.alarmDue i then c.fireAlarm i else c) c = c.fireAll (l.filter c.alarmDue) := by
    induction l generalizing c with
    | nil => rfl
    | cons j l ih =>
      obtain ⟨new, once⟩ := List.nodup_cons.mp once
      have same : l.filter (c.fireAlarm j).alarmDue = l.filter c.alarmDue :=
        List.filter_congr fun k hk => fireAlarm_due c j fun e => new (e ▸ hk)
      rw [List.foldl_cons, List.filter_cons]
      split
      · rw [ih _ once, same, fireAll_cons]
      · exact ih _ once
  exact walk _ c (List.nodup_finRange 3)

/-- The alarms after those of a list fired. -/
theorem fireAll_alarm (l : List (Fin 3)) : (c.fireAll l).st.timeBase.alarms[i] =
    if i ∈ l then { c.st.timeBase.alarms[i] with armed := false } else c.st.timeBase.alarms[i] := by
  induction l generalizing c with
  | nil => rfl
  | cons j l ih =>
    rw [fireAll_cons, ih, fireAlarm_timeBase, TimeBase.disarmed_alarm]
    simp only [List.mem_cons]
    by_cases own : i = j
    · subst own
      rw [if_pos rfl, ite_self, if_pos (Or.inl rfl : i = i ∨ i ∈ l)]
    · simp only [own, Ne.symm own, false_or, if_false]

/-- The alarms of a list change the Time Base in the alarms alone; all else is the Floor Engine's. -/
theorem fireAll_frame (l : List (Fin 3)) :
    ({ c.st with timeBase := { c.st.timeBase with alarms := (c.fireAll l).st.timeBase.alarms } } : State).FloorFrame
      (c.fireAll l).st := by
  induction l generalizing c with
  | nil => exact .refl _
  | cons j l ih =>
    have rest := ih (c.fireAlarm j)
    have first := (c.fireAlarm_frame j).withTime
      { c.st.timeBase with alarms := ((c.fireAlarm j).fireAll l).st.timeBase.alarms }
    rw [fireAlarm_timeBase] at rest
    exact first.trans rest

theorem fireAll_seats (l : List (Fin 3)) : (c.fireAll l).st.seats = c.st.seats := foldl_seats fireAlarm_seats l c

theorem fireAll_tookEntry (l : List (Fin 3)) : (c.fireAll l).tookEntry = c.tookEntry := foldl_tookEntry fireAlarm_tookEntry _ _

/-- The floor after the alarms of a list. -/
theorem fireAll_floor (l : List (Fin 3)) :
    (c.fireAll l).floor = l.foldl (fun f j => f.afterAlarm c.st.timeBase.alarms[j].action) c.floor := by
  induction l generalizing c with
  | nil => rfl
  | cons j l ih =>
    rw [fireAll_cons, ih, fireAlarm_floor, fireAlarm_timeBase, List.foldl_cons]
    simp only [TimeBase.disarmed_action]

/-- The flags of the alarms of a list. -/
theorem fireAll_flagged {l : List (Fin 3)} (h : i ∈ l) (link : Link) : (c.fireAll l).st.flagged link (alarmFlag i) := by
  induction l generalizing c with
  | nil => exact nomatch h
  | cons j l ih =>
    rcases List.mem_cons.mp h with rfl | later
    · exact State.flagged_of_grown ((c.fireAlarm i).fireAll_frame l).report (c.fireAlarm_flagged i link)
    · exact ih (c.fireAlarm j) later

/-- The alarms of a list without a halt, or in HALTED, are quiet. -/
theorem fireAll_quiet {l : List (Fin 3)} (h : (∃ j ∈ l, c.st.timeBase.alarms[j].action = .haltFloor) → c.floor.phase = .halted) :
    c.Quiet (c.fireAll l) := by
  induction l generalizing c with
  | nil => exact .refl c
  | cons j l ih =>
    refine (c.fireAlarm_quiet j fun a => h ⟨j, List.mem_cons_self, a⟩).trans (ih _ fun ⟨k, hk, a⟩ => ?_)
    rw [fireAlarm_timeBase, TimeBase.disarmed_action] at a
    rw [fireAlarm_floor]
    exact Floor.afterAlarm_halted (h ⟨k, List.mem_cons_of_mem _ hk, a⟩) _

end Claim

end Sys2Proof.Machine
end

section
/-! SUPPORT. The alarm check (R131), ALARM SET (R132) and TIME SET (R128). -/

namespace Sys2Proof.Machine

/-! ### The floor the alarms leave -/

namespace Floor

theorem halted_halted (f : Floor) : f.halted.halted = f.halted := if_pos f.halted_phase

theorem halted_gate (f : Floor) (g : Gate) : ({ f with gate := g } : Floor).halted = { f.halted with gate := g } := by
  unfold halted
  dsimp only
  split <;> rfl

theorem halted_gate_same (f : Floor) : f.halted.gate = f.gate := by
  unfold halted
  split <;> rfl

/-- The floor that alarms of these actions leave: halted by a halt, the gate closed by a close (R131). -/
def afterAlarms (f : Floor) (halts closes : Bool) : Floor :=
  { (if halts then f.halted else f) with gate := if closes then .closed else f.gate }

/-- One alarm's action before the others'. -/
theorem afterAlarm_afterAlarms (f : Floor) (a : AlarmAction) (halts closes : Bool) : (f.afterAlarm a).afterAlarms halts closes =
    f.afterAlarms (decide (a = .haltFloor) || halts) (decide (a = .closeList) || closes) := by
  cases a with
  | none => rfl
  | haltFloor => cases halts <;> simp [afterAlarms, afterAlarm, halted_halted, halted_gate_same]
  | closeList => cases halts <;> cases closes <;> simp [afterAlarms, afterAlarm, halted_gate]

/-- The actions one after another. -/
theorem foldl_afterAlarm (act : Fin 3 → AlarmAction) (l : List (Fin 3)) (f : Floor) :
    l.foldl (fun f j => f.afterAlarm (act j)) f =
      f.afterAlarms (l.any fun j => act j = .haltFloor) (l.any fun j => act j = .closeList) := by
  induction l generalizing f with
  | nil => rfl
  | cons j l ih => rw [List.foldl_cons, ih, afterAlarm_afterAlarms, List.any_cons, List.any_cons]

theorem afterAlarms_requests (f : Floor) (halts closes : Bool) : (f.afterAlarms halts closes).requests = f.requests := by
  cases halts with
  | false => rfl
  | true => exact f.afterAlarm_requests .haltFloor

end Floor

/-- The floor the alarms leave, in the words of the statements. -/
theorem State.alarmFloor_eq (s : State) :
    s.alarmFloor = s.floor.afterAlarms (s.firesAction .haltFloor) (s.firesAction .closeList) := by
  unfold alarmFloor Floor.afterAlarms
  dsimp only
  split
  · rw [Floor.halted_gate_same]
  · rfl

/-- The check leaves the floor of the alarms. -/
theorem Claim.checkAlarms_floor (c : Claim) : c.checkAlarms.floor = c.st.alarmFloor := by
  rw [checkAlarms_eq, fireAll_floor, Floor.foldl_afterAlarm fun j => c.st.timeBase.alarms[j].action, State.alarmFloor_eq]
  rfl

/-! ### The reports of the alarms -/

/-- The flags and notices of the alarms of a list. -/
def State.alarmsTold (x : State) (a : Fin 3 → Alarm) (l : List (Fin 3)) : State := l.foldl (fun x j => x.alarmTold j (a j)) x

namespace State

/-- A flag and a notice change the reports by the reports and the time alone. -/
theorem raise_report_congr {x y : State} (report : x.report = y.report) (e : EventFlag) : (x.raise e).report = (y.raise e).report := by
  unfold raise modBothReports
  rw [report]
theorem notify_report_congr {x y : State} (report : x.report = y.report) (time : x.time = y.time) (n : Notice) :
    (x.notify n).report = (y.notify n).report := by
  unfold notify modBothReports
  rw [report, time]

theorem alarmTold_modFloor (x : State) (j : Fin 3) (a : Alarm) (f : Floor → Floor) :
    (x.modFloor f).alarmTold j a = (x.alarmTold j a).modFloor f := rfl

theorem alarmTold_raise (x : State) (j : Fin 3) (a : Alarm) (e : EventFlag) :
    (x.raise e).alarmTold j a = (x.alarmTold j a).raise e := by
  unfold alarmTold
  rw [raise_comm, notify_raise]

theorem alarmsTold_modFloor (x : State) (a : Fin 3 → Alarm) (l : List (Fin 3)) (f : Floor → Floor) :
    (x.modFloor f).alarmsTold a l = (x.alarmsTold a l).modFloor f := by
  induction l generalizing x with
  | nil => rfl
  | cons j l ih => exact ih (x.alarmTold j (a j))

theorem alarmsTold_raise (x : State) (a : Fin 3 → Alarm) (l : List (Fin 3)) (e : EventFlag) :
    (x.raise e).alarmsTold a l = (x.alarmsTold a l).raise e := by
  induction l generalizing x with
  | nil => rfl
  | cons j l ih =>
    show ((x.raise e).alarmTold j (a j)).alarmsTold a l = _
    rw [alarmTold_raise, ih]
    rfl

theorem alarmsTold_report {x y : State} (a : Fin 3 → Alarm) (l : List (Fin 3)) (report : x.report = y.report) (time : x.time = y.time) :
    (x.alarmsTold a l).report = (y.alarmsTold a l).report := by
  induction l generalizing x y with
  | nil => exact report
  | cons j l ih =>
    refine ih (x := x.alarmTold j (a j)) (y := y.alarmTold j (a j)) ?_ time
    exact notify_report_congr (raise_report_congr report _) time _

/-- The reports of the alarms rest on the Time Base, the reports and the gate. -/
theorem alarmsReported_congr {s t : State} (timeBase : s.timeBase = t.timeBase) (report : s.report = t.report)
    (gate : s.floor.gate = t.floor.gate) : s.alarmsReported.report = t.alarmsReported.report := by
  have time : s.time = t.time := congrArg TimeBase.chamberTime timeBase
  have fires : s.firing = t.firing := by
    unfold firing fires
    rw [time, timeBase]
  have told : (s.alarmsTold (fun j => s.timeBase.alarms[j]) s.firing).report =
      (t.alarmsTold (fun j => t.timeBase.alarms[j]) t.firing).report := by
    rw [fires, timeBase]
    exact alarmsTold_report _ _ report time
  have closes : s.firesAction .closeList = t.firesAction .closeList := by
    unfold firesAction
    rw [fires, timeBase]
  unfold alarmsReported
  dsimp only
  rw [closes, gate]
  split
  · exact raise_report_congr told .list
  · exact told

end State

/-- The reports of alarms without a halt, or in HALTED: each one's flag and notice, and the LIST flag where the gate closes. -/
theorem Claim.Shows.fireAll {c : Claim} {x : State} (shows_ : c.Shows x) {a : Fin 3 → Alarm} {l : List (Fin 3)}
    (ha : ∀ j, c.st.timeBase.alarms[j].action = (a j).action) (ht : ∀ j, c.st.timeBase.alarms[j].target = (a j).target)
    (h : (∃ j ∈ l, (a j).action = .haltFloor) → c.floor.phase = .halted) :
    (c.fireAll l).st.report = if (∃ j ∈ l, (a j).action = .closeList) ∧ c.floor.gate = .opened then
      ((x.alarmsTold a l).raise .list).report else (x.alarmsTold a l).report := by
  induction l generalizing c x with
  | nil =>
    rw [if_neg fun ⟨⟨j, hj, _⟩, _⟩ => nomatch hj]
    exact shows_.report
  | cons j l ih =>
    have first := shows_.fireAlarm j (ha j) (ht j) fun action => h ⟨j, List.mem_cons_self, action⟩
    have floor : (c.fireAlarm j).floor = c.floor.afterAlarm (a j).action := by rw [fireAlarm_floor, ha]
    have rest (y : State) (told : (c.fireAlarm j).st.report = y.report) (time : y.time = x.time) :=
      ih (c := c.fireAlarm j) (x := y.modFloor fun _ => (c.fireAlarm j).floor)
        ⟨rfl, told, by
          show (c.fireAlarm j).st.timeBase.chamberTime = y.time
          rw [fireAlarm_timeBase, time, ← shows_.time]
          rfl⟩
        (fun k => by rw [fireAlarm_timeBase, TimeBase.disarmed_action]; exact ha k)
        (fun k => by rw [fireAlarm_timeBase, TimeBase.disarmed_target]; exact ht k)
        (fun ⟨k, hk, action⟩ => by
          rw [floor]
          exact Floor.afterAlarm_halted (h ⟨k, List.mem_cons_of_mem _ hk, action⟩) _)
    simp only [State.alarmsTold_modFloor, State.raise_modFloor, State.modFloor_report, floor] at rest
    have told : x.alarmsTold a (j :: l) = (x.alarmTold j (a j)).alarmsTold a l := rfl
    rw [fireAll_cons, told]
    by_cases closes : (a j).action = .closeList ∧ c.floor.gate = .opened
    · rw [if_pos closes] at first
      have shut : (c.floor.afterAlarm (a j).action).gate = .closed := by rw [closes.1]; rfl
      rw [rest _ first rfl, if_neg (fun open_ => absurd (shut.symm.trans open_.2) (by decide)), if_pos ⟨⟨j, List.mem_cons_self, closes.1⟩, closes.2⟩,
        State.alarmsTold_raise]
    · rw [if_neg closes] at first
      rw [rest _ first rfl]
      refine if_congr ?_ rfl rfl
      constructor
      · rintro ⟨⟨k, hk, action⟩, gate⟩
        refine ⟨⟨k, List.mem_cons_of_mem _ hk, action⟩, ?_⟩
        cases before : c.floor.gate with
        | opened => rfl
        | closed => exact nomatch (Floor.afterAlarm_closed before (a j).action).symm.trans gate
      · rintro ⟨⟨k, hk, action⟩, gate⟩
        have other : (a j).action ≠ .closeList := fun closing => closes ⟨closing, gate⟩
        rcases List.mem_cons.mp hk with rfl | later
        · exact absurd action other
        · refine ⟨⟨k, later, action⟩, ?_⟩
          cases kind : (a j).action with
          | none => exact gate
          | closeList => exact absurd kind other
          | haltFloor => exact (Floor.halted_gate_same _).trans gate

/-- An alarm of this action fires. -/
theorem State.firesAction_iff (s : State) (a : AlarmAction) :
    s.firesAction a = true ↔ ∃ j ∈ s.firing, s.timeBase.alarms[j].action = a := by
  simp [firesAction, List.any_eq_true]

/-- The reports of the check where no halt has an effect, in the words of the statements. -/
theorem Claim.checkAlarms_report (s : State) (h : s.firesAction .haltFloor = true → s.floor.phase = .halted) :
    (Claim.start s).checkAlarms.st.report = s.alarmsReported.report := by
  rw [checkAlarms_eq, (Shows.start s).fireAll (a := fun j => s.timeBase.alarms[j]) (fun _ => rfl) (fun _ => rfl)
    fun halts => h ((s.firesAction_iff _).mpr halts)]
  unfold State.alarmsReported
  dsimp only
  simp only [State.firesAction_iff]
  split <;> rfl

/-! ### The event of an alarm check -/

/-- An event is its body and what the Floor Engine adds at its end. -/
theorem State.event_after (s : State) (body : Claim → Claim) : (body (.start s)).st.FloorFrame (s.event body) :=
  (Claim.settleFloor_frame (.refl _)).trans (Claim.close_frame _ _)

/-- An event in which nothing is due and no image may change is its body. -/
theorem State.event_of_still {s : State} {body : Claim → Claim} (due : (Claim.start s).SameDue (body (.start s)))
    (requests : (body (.start s)).floor.requests = s.floor.requests) (took : (body (.start s)).tookEntry = false)
    (touched : (body (.start s)).touched = []) : s.event body = (body (.start s)).st := by
  unfold event
  rw [Claim.settleFloor_noDue _ due.fill due.serve]
  unfold Claim.close
  dsimp only
  have same : ¬ (s.floor.requests ≠ (body (.start s)).floor.requests ∨ (body (.start s)).tookEntry = true) := by
    simp [requests, took]
  rw [if_neg same, touched]
  rfl

namespace Claim

/-- After alarms the floor is HALTED, or nothing is due. -/
theorem fireAll_settled (c : Claim) (l : List (Fin 3)) (due : c.fillDue = false ∧ c.serveDue = false) :
    (c.fireAll l).settleFloor = { c.fireAll l with fillDue := false, serveDue := false } := by
  by_cases halts : ∃ j ∈ l, c.st.timeBase.alarms[j].action = .haltFloor
  · have floor := c.fireAll_floor l
    rw [Floor.foldl_afterAlarm fun j => c.st.timeBase.alarms[j].action] at floor
    have some_ : (l.any fun j => c.st.timeBase.alarms[j].action = .haltFloor) = true := by simpa using halts
    refine settleFloor_shut _ (.inl ?_)
    rw [floor, some_]
    exact Floor.halted_phase c.floor
  · have quiet := c.fireAll_quiet (l := l) fun some_ => absurd some_ halts
    exact settleFloor_noDue _ (quiet.due.fill.trans due.1) (quiet.due.serve.trans due.2)

/-- The request list stays. -/
theorem fireAll_requests (c : Claim) (l : List (Fin 3)) : (c.fireAll l).floor.requests = c.floor.requests := by
  rw [fireAll_floor, Floor.foldl_afterAlarm fun j => c.st.timeBase.alarms[j].action, Floor.afterAlarms_requests]

end Claim

section AlarmEvent

variable (s : State)

/-- The floor after an event of alarms. -/
theorem fireAll_event_floor (l : List (Fin 3)) : (s.event (·.fireAll l)).floor = ((Claim.start s).fireAll l).floor :=
  (State.event_of_quiet s _ _ rfl (Claim.fireAll_settled _ l ⟨rfl, rfl⟩) (Claim.fireAll_requests _ l)
    (Claim.fireAll_tookEntry _ l)).1

/-- The Time Base after an event of alarms. -/
theorem fireAll_event_timeBase (l : List (Fin 3)) :
    (s.event (·.fireAll l)).timeBase = ((Claim.start s).fireAll l).st.timeBase := (State.event_after s (·.fireAll l)).timeBase

/-- The event of an alarm check fires the alarms due. -/
theorem checkAlarms_event : s.event Claim.checkAlarms = s.event (·.fireAll s.firing) :=
  congrArg (fun c : Claim => Claim.close s.floor.requests c.settleFloor) (Claim.checkAlarms_eq (.start s))

/-- An alarm fires exactly when it is armed and reached. -/
theorem State.mem_firing (i : Fin 3) :
    i ∈ s.firing ↔ s.timeBase.alarms[i].armed = true ∧ reached s.time s.timeBase.alarms[i].target = true := by
  simp [firing, fires]

/-- The alarms after a check. -/
theorem checkAlarms_event_alarm (i : Fin 3) : (s.event Claim.checkAlarms).timeBase.alarms[i] =
    if s.timeBase.alarms[i].armed ∧ reached s.time s.timeBase.alarms[i].target then { s.timeBase.alarms[i] with armed := false }
    else s.timeBase.alarms[i] := by
  rw [checkAlarms_event, fireAll_event_timeBase, Claim.fireAll_alarm]
  simp only [State.mem_firing]

/-- The floor after a check. -/
theorem checkAlarms_event_floor : (s.event Claim.checkAlarms).floor = s.alarmFloor := by
  rw [checkAlarms_event, fireAll_event_floor, ← Claim.checkAlarms_eq (.start s)]
  exact Claim.checkAlarms_floor _

/-- The flags after a check. -/
theorem checkAlarms_event_flagged {i : Fin 3} (h : i ∈ s.firing) (l : Link) :
    (s.event Claim.checkAlarms).flagged l (alarmFlag i) := by
  rw [checkAlarms_event]
  exact State.event_flagged (Claim.fireAll_flagged _ i h l)

/-- A check changes the Time Base in its alarms, and else what the Floor Engine changes. -/
theorem checkAlarms_event_frame :
    ({ s with timeBase := { s.timeBase with alarms := (s.event Claim.checkAlarms).timeBase.alarms } } : State).FloorFrame
      (s.event Claim.checkAlarms) := by
  rw [checkAlarms_event, fireAll_event_timeBase]
  exact (Claim.fireAll_frame (.start s) s.firing).trans (State.event_after s (·.fireAll s.firing))

/-- A check leaves every seat's record but its image. -/
theorem checkAlarms_event_seat (n : Nat) :
    (s.event Claim.checkAlarms).seat n = { s.seat n with image := ((s.event Claim.checkAlarms).seat n).image } := by
  have seats : ((Claim.start s).fireAll s.firing).settleFloor.st.seats = s.seats := by
    rw [Claim.fireAll_settled _ _ ⟨rfl, rfl⟩]
    exact Claim.fireAll_seats _ _
  have seat : ((Claim.start s).fireAll s.firing).settleFloor.st.seat n = s.seat n := by
    unfold State.seat
    rw [seats]
  rw [checkAlarms_event]
  exact (Claim.close_seat s.floor.requests _ n).trans (by rw [seat]; rfl)

/-- A check in which no halt has an effect leaves the seats and the trunks, and reports the alarms. -/
theorem checkAlarms_event_quiet (h : s.firesAction .haltFloor = false ∨ s.floor.phase = .halted) :
    (s.event Claim.checkAlarms).seats = s.seats ∧ (s.event Claim.checkAlarms).trunks = s.trunks ∧
      (s.event Claim.checkAlarms).report = s.alarmsReported.report := by
  have halted : s.firesAction .haltFloor = true → s.floor.phase = .halted := fun fires =>
    h.resolve_left (by simp [fires])
  have quiet : (Claim.start s).Quiet ((Claim.start s).fireAll s.firing) :=
    Claim.fireAll_quiet _ fun halts => halted ((s.firesAction_iff _).mpr halts)
  have still : s.event (·.fireAll s.firing) = ((Claim.start s).fireAll s.firing).st :=
    State.event_of_still quiet.due (Claim.fireAll_requests _ _) (Claim.fireAll_tookEntry _ _) quiet.touched
  rw [checkAlarms_event, still]
  refine ⟨quiet.seats, quiet.trunks, ?_⟩
  rw [← Claim.checkAlarms_eq (.start s)]
  exact Claim.checkAlarms_report s halted

end AlarmEvent

/-- Settles O9: the alarms due fire, in an event after which nothing follows. -/
theorem alarmCheck : Obligations.AlarmCheck := by
  unfold Obligations.AlarmCheck
  intro k s due
  let m : State := { s with due := { s.due with alarmCheck := k } }
  have step : exec .alarmCheck s = .next (m.event Claim.checkAlarms) := by
    show execAlarmCheck s = _
    unfold execAlarmCheck
    rw [if_pos (by omega), due]
    rfl
  refine ⟨m.event Claim.checkAlarms, step, (checkAlarms_event_frame m).due, checkAlarms_event_alarm m, fun i armed reaches => ?_,
    checkAlarms_event_floor m, fun quiet => ?_⟩
  rotate_left
  · obtain ⟨seats, -, report⟩ := checkAlarms_event_quiet m quiet
    exact ⟨seats, report.trans (State.alarmsReported_congr rfl rfl rfl)⟩
  have fires : i ∈ m.firing := (m.mem_firing i).mpr ⟨armed, reaches⟩
  refine ⟨checkAlarms_event_flagged m fires, fun closes => ?_, fun halts => ?_⟩
  · rw [checkAlarms_event_floor, State.alarmFloor_eq, (m.firesAction_iff .closeList).mpr ⟨i, fires, closes⟩]
    rfl
  · rw [checkAlarms_event_floor, State.alarmFloor_eq, (m.firesAction_iff .haltFloor).mpr ⟨i, fires, halts⟩]
    exact m.floor.halted_phase

end Sys2Proof.Machine
end

section
/-! SUPPORT. The commands that set an alarm and move chamber time (R128, R132). -/

namespace Sys2Proof.Machine

/-! ### ALARM SET (R132) -/

/-- The alarms, one of them armed anew. -/
def State.armed (s : State) (i : Fin 3) (v : ChamberTime) (a : AlarmAction) : State :=
  { s with timeBase := { s.timeBase with alarms := s.timeBase.alarms.set i ⟨true, v, a⟩ } }

theorem State.armed_alarm (s : State) (i : Fin 3) (v : ChamberTime) (a : AlarmAction) :
    (s.armed i v a).timeBase.alarms[i] = ⟨true, v, a⟩ := by simp [armed]

/-- ALARM SET of a number above 2. -/
theorem alarmSetAction_beyond {p : List Byte} (h : 2 < u8 p 0) (s : State) : alarmSetAction p s = (s, .of .range) :=
  dif_neg (Nat.not_lt.mpr h)

/-- ALARM SET of an action that has no code. -/
theorem alarmSetAction_badAction {p : List Byte} (low : u8 p 0 ≤ 2) (h : 2 < u8 p 5) (s : State) :
    alarmSetAction p s = (s, .of .badArg) := by
  unfold alarmSetAction
  rw [dif_pos (by omega), show ofCode alarmActionRow (u8 p 5) = none from ofCode_beyond h]
  rfl

/-- ALARM SET of a good number and action goes by its target. -/
theorem alarmSetAction_good {p : List Byte} {i : Fin 3} {a : AlarmAction} (hi : u8 p 0 = i) (ha : alarmActionRow[u8 p 5]? = some a)
    (s : State) : alarmSetAction p s =
      (if reached s.time (u32 p 1) then (s.armed i (u32 p 1) a).event (·.fireAlarm i) else s.armed i (u32 p 1) a,
        .of .done [yesNo (reached s.time (u32 p 1))]) := by
  have low : u8 p 0 < 3 := hi ▸ i.isLt
  obtain rfl : i = ⟨u8 p 0, low⟩ := Fin.ext hi.symm
  unfold alarmSetAction
  rw [dif_pos low, show ofCode alarmActionRow (u8 p 5) = some a from ha]
  rfl

/-- The event of one alarm. -/
theorem fireAlarm_event (s : State) (i : Fin 3) : s.event (·.fireAlarm i) = s.event (·.fireAll [i]) := rfl

/-- Settles O12: by the checks in order, and the event of the one alarm. -/
theorem alarmSet : Obligations.AlarmSet := by
  unfold Obligations.AlarmSet
  intro s l c hc
  have acts : exec (.alarmSet l) s = .next ((alarmSetAction c.payload s).1.answer l c (alarmSetAction c.payload s).2) :=
    congrArg _ (hc.acts alarmSetAction)
  rw [acts]
  refine ⟨fun beyond => by rw [alarmSetAction_beyond beyond], fun low bad => by rw [alarmSetAction_badAction low bad],
    fun i a hi ha => ⟨fun ahead => ?_, fun reaches => ?_⟩⟩
  · rw [alarmSetAction_good hi ha, ahead, if_neg Bool.false_ne_true]
    rfl
  · rw [alarmSetAction_good hi ha, reaches, if_pos rfl]
    generalize hm : s.armed i (u32 c.payload 1) a = m
    have alarm : m.timeBase.alarms[i] = ⟨true, u32 c.payload 1, a⟩ := hm ▸ s.armed_alarm i _ a
    have floor : (m.event (·.fireAlarm i)).floor = s.floor.afterAlarm a := by
      rw [fireAlarm_event, fireAll_event_floor]
      show ((Claim.start m).fireAlarm i).floor = _
      rw [Claim.fireAlarm_floor, alarm, ← hm]
      rfl
    have timeBase : (m.event (·.fireAlarm i)).timeBase = m.timeBase.disarmed i := by
      rw [fireAlarm_event, fireAll_event_timeBase]
      exact Claim.fireAlarm_timeBase (.start m) i
    refine ⟨m.event (·.fireAlarm i), rfl, ?_, fun l' => State.event_flagged (Claim.fireAlarm_flagged (.start m) i l'),
      fun closes => ?_, fun halts => ?_, fun none_ => ?_, ?_⟩
    · rw [timeBase]
      unfold TimeBase.disarmed
      rw [alarm, ← hm]
      simp [State.armed]
    · rw [floor, closes]
      rfl
    · rw [floor, halts]
      exact s.floor.halted_phase
    · rw [floor, none_]
      rfl
    · have armed : s.ClaimFrame m := hm ▸ State.ClaimFrame.modAlarms s fun t => t.alarms.set i ⟨true, u32 c.payload 1, a⟩
      refine armed.trans (State.event_claim m _ ?_)
      exact Claim.fireAlarm_claim (.refl m) i

/-! ### TIME SET (R128) -/

/-- A point keeps its distance from the present when both move (R85). -/
theorem reached_shift (now point x : ChamberTime) : reached (now + x) (point + x) = reached now point := by
  unfold reached
  rw [show now + x - (point + x) = now - point by bv_omega]

/-- How many alarms are armed. -/
theorem State.armedCount_eq (s : State) : s.armedCount = (List.finRange 3).countP fun i => s.timeBase.alarms[i].armed := by
  have list : s.timeBase.alarms.toList = (List.finRange 3).map fun i => s.timeBase.alarms[i] := by
    refine List.ext_getElem (by simp) fun j h1 h2 => ?_
    simp
  unfold armedCount
  rw [list, ← List.countP_eq_length_filter, List.countP_map]
  rfl

/-- A check disarms as many alarms as fire. -/
theorem State.armedCount_checkAlarms (s : State) : s.armedCount - (s.event Claim.checkAlarms).armedCount = s.firing.length := by
  have left : (s.event Claim.checkAlarms).armedCount =
      ((List.finRange 3).filter fun i => !s.fires i).countP fun i => s.timeBase.alarms[i].armed := by
    rw [armedCount_eq, List.countP_filter]
    refine List.countP_congr fun i _ => ?_
    rw [checkAlarms_event_alarm]
    unfold fires
    by_cases fires_ : s.timeBase.alarms[i].armed = true ∧ reached s.time s.timeBase.alarms[i].target = true
    · rw [if_pos fires_, fires_.1, fires_.2]
      simp
    · rw [if_neg fires_]
      have stays : (s.timeBase.alarms[i].armed && reached s.time s.timeBase.alarms[i].target) = false := by
        simpa using fires_
      rw [stays]
      simp
  have fired : ((List.finRange 3).filter s.fires).countP (fun i => s.timeBase.alarms[i].armed) = s.firing.length := by
    rw [← firing, List.countP_eq_length]
    exact fun i hi => ((s.mem_firing i).mp hi).1
  have parts := List.countP_eq_countP_filter_add (List.finRange 3) (fun i => s.timeBase.alarms[i].armed) s.fires
  rw [← armedCount_eq, fired] at parts
  rw [left]
  omega

/-- Chamber time moved, with the points of the parts, before the alarms are checked. -/
def State.timeMoved (s : State) (v : ChamberTime) : State :=
  (s.modTime fun t => { t with chamberTime := v }).shiftPoints (v - s.time)

theorem State.setTime_eq (s : State) (v : ChamberTime) : s.setTime v =
    (((s.timeMoved v).event Claim.checkAlarms).raise .timebase).notify ⟨.timebase, .none, some setCode, [s.time, v]⟩ := rfl

theorem State.timeMoved_seat (s : State) (v : ChamberTime) (n : Nat) : (s.timeMoved v).seat n =
    { s.seat n with refusalUntil := (s.seat n).refusalUntil.map (· + (v - s.time)) } := State.shiftPoints_seat _ _ n

theorem State.timeMoved_trunk (s : State) (v : ChamberTime) (i : TrunkNo) : (s.timeMoved v).trunk i =
    { s.trunk i with fifo := (s.trunk i).fifo.map fun r => { r with stamp := r.stamp + (v - s.time) } } :=
  State.shiftPoints_trunk _ _ i

theorem State.timeMoved_port (s : State) (v : ChamberTime) (l : Link) : (s.timeMoved v).port l =
    { s.port l with lastValid := (s.port l).lastValid + (v - s.time) } := by cases l <;> rfl

/-- TIME SET to another time. -/
theorem timeSetAction_other {p : List Byte} {s : State} (other : u32 p 0 ≠ s.time) : timeSetAction p s =
    (s.setTime (u32 p 0), .of .done (be32 s.time ++ [be8 (s.timeMoved (u32 p 0)).firing.length])) := by
  have count : s.armedCount - (s.setTime (u32 p 0)).armedCount = (s.timeMoved (u32 p 0)).firing.length := by
    rw [← State.armedCount_checkAlarms (s.timeMoved (u32 p 0)), State.setTime_eq]
    generalize (s.timeMoved (u32 p 0)).event Claim.checkAlarms = t
    rfl
  unfold timeSetAction
  dsimp only
  rw [if_neg other, count]

/-- The alarms' reports leave the Time Base. -/
theorem State.alarmsReported_timeBase (s : State) : s.alarmsReported.timeBase = s.timeBase := by
  have told (l : List (Fin 3)) (x : State) : (x.alarmsTold (fun j => s.timeBase.alarms[j]) l).timeBase = x.timeBase := by
    induction l generalizing x with
    | nil => rfl
    | cons j l ih => exact ih (x.alarmTold j _)
  unfold alarmsReported
  dsimp only
  split
  · exact told s.firing s
  · exact told s.firing s

/-- Settles O10: the points move with chamber time, and the alarms are checked in one event. -/
theorem timeSet : Obligations.TimeSet := by
  unfold Obligations.TimeSet
  refine ⟨reached_shift, fun s l c hc => ?_⟩
  have acts : exec (.timeSet l) s = .next ((timeSetAction c.payload s).1.answer l c (timeSetAction c.payload s).2) :=
    congrArg _ (hc.acts timeSetAction)
  rw [acts]
  refine ⟨fun same => ?_, fun other v d m hv hd hm => ?_⟩
  · unfold timeSetAction
    dsimp only
    rw [if_pos same]
  rw [timeSetAction_other other, ← hv]
  generalize hx : s.timeMoved v = x
  have timeBase : x.timeBase = m.timeBase := by rw [← hx, hm]; rfl
  have floor : x.floor = m.floor := by rw [← hx, hm, hd]; rfl
  have report : x.report = m.report := by rw [← hx, hm]; rfl
  have time : x.time = v := by rw [← hx]; rfl
  have alarms : x.timeBase.alarms = s.timeBase.alarms := by rw [← hx]; rfl
  have firing : x.firing = m.firing := by
    unfold State.firing State.fires State.time
    rw [timeBase]
  have halts : x.firesAction .haltFloor = m.firesAction .haltFloor := by
    unfold State.firesAction
    rw [firing, timeBase]
  have closes : x.firesAction .closeList = m.firesAction .closeList := by
    unfold State.firesAction
    rw [firing, timeBase]
  have fires (i : Fin 3) : i ∈ x.firing ↔ s.timeBase.alarms[i].armed = true ∧ reached v s.timeBase.alarms[i].target = true := by
    rw [State.mem_firing, alarms, time]
  have still : m.firesAction .haltFloor = false ∨ s.floor.phase = .halted → x.firesAction .haltFloor = false ∨ x.floor.phase = .halted := by
    rw [halts, floor, hm]
    exact id
  have quiet := fun h => checkAlarms_event_quiet x (still h)
  have frame := checkAlarms_event_frame x
  have flagged := fun i h l' => checkAlarms_event_flagged x (i := i) h l'
  have seat := checkAlarms_event_seat x
  have left : (x.event Claim.checkAlarms).floor = m.alarmFloor := by
    rw [checkAlarms_event_floor, State.alarmFloor_eq, State.alarmFloor_eq, floor, halts, closes]
  have alarm := checkAlarms_event_alarm x
  simp only [time, alarms] at alarm
  rw [State.setTime_eq, hx]
  generalize x.event Claim.checkAlarms = t at frame flagged seat left alarm quiet
  refine ⟨(t.raise .timebase).notify ⟨.timebase, .none, some setCode, [s.time, v]⟩, by rw [firing], ?_, alarm,
    fun i armed reaches l' => State.flagged_notify (State.flagged_of_grown (State.FloorFrame.raise _ _).report
      (flagged i ((fires i).mpr ⟨armed, reaches⟩) l')) _,
    fun l' => State.flagged_notify (State.flagged_raise _ l' _) _, left, fun n => ?_, fun i => ?_, fun l' => ?_, ?_, ?_, ?_, ?_, ?_, ?_,
    fun h => ⟨fun n => ?_, fun i => ?_, ?_⟩⟩
  · refine frame.timeBase.trans ?_
    rw [← hx]
    rfl
  · refine (seat n).trans ?_
    rw [← hx, State.timeMoved_seat, ← hd]
    rfl
  · refine (frame.trunks i).trans ?_
    change ({ x.trunk i with pending := (t.trunk i).pending } : TrunkEngine) = _
    rw [← hx, State.timeMoved_trunk, ← hd]
    rfl
  · show t.port l' = _
    have port : t.port l' = x.port l' := by
      unfold State.port
      rw [frame.ports]
    rw [port, ← hx, State.timeMoved_port, ← hd]
  · refine (congrArg LinkPorts.control frame.ports).trans ?_
    rw [← hx]; rfl
  · refine (congrArg LinkPorts.takeoverOpen frame.ports).trans ?_
    rw [← hx]; rfl
  · refine (congrArg LinkPorts.takeoverInterval frame.ports).trans ?_
    rw [← hx]; rfl
  · exact frame.due.trans (by rw [← hx]; rfl)
  · exact frame.pins.trans (by rw [← hx]; rfl)
  · exact frame.now.trans (by rw [← hx]; rfl)
  all_goals obtain ⟨seats, trunks, reports⟩ := quiet h
  · have same : t.seat n = x.seat n := by
      unfold State.seat
      rw [seats]
    refine (congrArg SeatRecord.image same).trans ?_
    rw [← hx, State.timeMoved_seat]
  · have same : t.trunk i = x.trunk i := by
      unfold State.trunk
      rw [trunks]
    refine (congrArg TrunkEngine.pending same).trans ?_
    rw [← hx, State.timeMoved_trunk]
  · have gate : x.floor.gate = m.floor.gate := congrArg Floor.gate floor
    have told := reports.trans (State.alarmsReported_congr timeBase report gate)
    have now : (t.raise .timebase).time = (m.alarmsReported.raise .timebase).time := by
      have kept : m.alarmsReported.time = m.time := congrArg TimeBase.chamberTime m.alarmsReported_timeBase
      have left : t.time = m.time := by
        refine (congrArg TimeBase.chamberTime frame.timeBase).trans ?_
        change x.timeBase.chamberTime = m.timeBase.chamberTime
        rw [timeBase]
      exact left.trans kept.symm
    exact State.notify_report_congr (State.raise_report_congr told _) now _

end Sys2Proof.Machine
end

section
/-! SUPPORT. What the Floor Engine's operations leave of the seats: closes and departures leave every record, grants change the
grant counts of present seats alone (R49). -/

namespace Sys2Proof.Machine

namespace Claim

/-! ### Operations that leave the seats -/

theorem notify_seats (c : Claim) (n : Notice) : (c.notify n).st.seats = c.st.seats := rfl
theorem fillPoint_seats (c : Claim) : c.fillPoint.st.seats = c.st.seats := rfl
theorem servePoint_seats (c : Claim) : c.servePoint.st.seats = c.st.seats := rfl
theorem trackHead_seats (c : Claim) (f : Claim → Claim) : (c.trackHead f).st.seats = (f c).st.seats :=
  congrArg State.seats (trackHead_st c f)

theorem beginRound_seats (c : Claim) (n : Nat) : (c.beginRound n).st.seats = c.st.seats := by
  unfold beginRound
  exact (setPhase_seats _ _).trans (modFloor_seats _ _)

theorem endRound_seats (c : Claim) : c.endRound.st.seats = c.st.seats := by
  unfold endRound
  dsimp only
  rw [fillPoint_seats, setPhase_seats, modFloor_seats, notify_seats]

theorem closeSlot_seats (c : Claim) (i : Fin 6) (why : Reason) : (c.closeSlot i why).st.seats = c.st.seats := by
  unfold closeSlot
  split
  · rfl
  · dsimp only
    split
    · rw [beginRound_seats, fillPoint_seats, releaseSlot_seats]
    · split
      · rw [endRound_seats, fillPoint_seats, releaseSlot_seats]
      · rw [fillPoint_seats, releaseSlot_seats]

theorem grantReply_seats (c : Claim) (n : Nat) : (c.grantReply n).st.seats = c.st.seats := by
  unfold grantReply
  split
  · rfl
  · dsimp only
    rw [raise_seats, raise_seats, notify_seats, touch_seats, modFloor_seats]

theorem serve_seats (c : Claim) : c.serve.st.seats = c.st.seats := by
  unfold serve
  split
  · rfl
  · split
    · exact endRound_seats c
    · split
      · split
        · exact grantReply_seats c _
        · rfl
      · rfl

theorem dequeue_seats (c : Claim) (n : Nat) (why : Reason) : (c.dequeue n why).st.seats = c.st.seats := by
  unfold dequeue
  split
  · rw [touch_seats, notify_seats, trackHead_seats, modFloor_seats]
  · rfl

theorem dropReply_seats (c : Claim) (n : Nat) (why : Reason) : (c.dropReply n why).st.seats = c.st.seats := by
  unfold dropReply
  split
  · rfl
  · rw [servePoint_seats, touch_seats, raise_seats, notify_seats, modFloor_seats]

theorem dropReplies_seats (c : Claim) (ns : List Nat) (why : Reason) : (c.dropReplies ns why).st.seats = c.st.seats :=
  foldl_seats (fun c n => dropReply_seats c n why) _ c

theorem closeSlotOf_seats (c : Claim) (n : Nat) (why : Reason) : (c.closeSlotOf n why).st.seats = c.st.seats := by
  unfold closeSlotOf
  split
  · exact closeSlot_seats c _ why
  · rfl

theorem closeChair_seats (c : Claim) (i : Fin 2) (why : Reason) : (c.closeChair i why).st.seats = c.st.seats := by
  unfold closeChair
  split
  · rfl
  · rw [touch_seats, raise_seats, notify_seats, modFloor_seats]

theorem closeChairOf_seats (c : Claim) (n : Nat) (why : Reason) : (c.closeChairOf n why).st.seats = c.st.seats := by
  unfold closeChairOf
  split
  · exact closeChair_seats c _ why
  · rfl

theorem dropHeld_seats (c : Claim) (n : Nat) (why : Reason) : (c.dropHeld n why).st.seats = c.st.seats := by
  unfold dropHeld
  split
  · dsimp only
    rw [touch_seats, raise_seats, foldl_seats fun c e => notify_seats c _, foldl_seats fun c h => notify_seats c _, modFloor_seats]
  · rfl

theorem removeSeat_seats (c : Claim) (n : Nat) (why : Reason) : (c.removeSeat n why).st.seats = c.st.seats := by
  unfold removeSeat
  rw [dropHeld_seats, closeChairOf_seats, closeSlotOf_seats, dropReply_seats, dequeue_seats]

theorem removeSeats_seats (c : Claim) (ns : List Nat) (why : Reason) : (c.removeSeats ns why).st.seats = c.st.seats := by
  unfold removeSeats
  rw [foldl_seats fun c n => removeSeat_seats c n why, dropReplies_seats]

end Claim

/-- No seat has this number. -/
theorem State.modSeat_outside (s : State) {n : Nat} (h : seatIndex n = none) (f : SeatRecord → SeatRecord) : s.modSeat n f = s := by
  unfold modSeat
  rw [h]

/-! ### Grants -/

/-- Of every seat's record the grant count alone changed, and that of a present seat alone. -/
def State.Granted (s t : State) : Prop := ∀ n,
  t.seat n = { s.seat n with grantCount := (t.seat n).grantCount } ∧
    (s.isHere n = false → (t.seat n).grantCount = (s.seat n).grantCount)

namespace State.Granted

variable {s t u : State}

theorem ofSeats (h : t.seats = s.seats) : s.Granted t := fun n => by
  have same : t.seat n = s.seat n := by unfold State.seat; rw [h]
  rw [same]
  exact ⟨rfl, fun _ => rfl⟩

theorem refl (s : State) : s.Granted s := ofSeats rfl

theorem isHere (h : s.Granted t) (n : Nat) : t.isHere n = s.isHere n := by
  unfold State.isHere
  rw [(h n).1]

theorem trans (h : s.Granted t) (g : t.Granted u) : s.Granted u := fun n => by
  refine ⟨?_, fun away => ?_⟩
  · conv_lhs => rw [(g n).1, (h n).1]
  · rw [(g n).2 ((h.isHere n).trans away), (h n).2 away]

/-- The record of an absent seat stays. -/
theorem absent (h : s.Granted t) {n : Nat} (away : s.isHere n = false) : t.seat n = s.seat n := by
  rw [(h n).1, (h n).2 away]

end State.Granted

namespace Claim

/-- The grant of a SPEAK slot to a present seat. -/
theorem grantSpeak_granted (c : Claim) {n : Nat} (here : c.st.isHere n = true) (o : Origin) (a : Option Nat) :
    c.st.Granted (c.grantSpeak n o a).st := by
  have kept (d : Claim) (h : d.st.seats = c.st.seats) :
      c.st.Granted (d.modSeat n fun r => { r with grantCount := min 15 (r.grantCount + 1) }).st := fun m => by
    have seat : d.st.seat m = c.st.seat m := by unfold State.seat; rw [h]
    rw [← seat]
    by_cases own : m = n
    · subst own
      refine ⟨?_, fun away => absurd (here.symm.trans away) (by decide)⟩
      by_cases known : (seatIndex m).isSome
      · have granted : (d.modSeat m fun r => { r with grantCount := min 15 (r.grantCount + 1) }).st.seat m = _ :=
          State.seat_modSeat_self d.st known _
        rw [granted]
      · have outside : seatIndex m = none := by simpa using known
        have granted : (d.modSeat m fun r => { r with grantCount := min 15 (r.grantCount + 1) }).st.seat m = d.st.seat m :=
          congrArg (·.seat m) (d.st.modSeat_outside outside _)
        rw [granted]
    · have same : (d.modSeat n fun r => { r with grantCount := min 15 (r.grantCount + 1) }).st.seat m = d.st.seat m :=
        State.seat_modSeat_ne d.st own _
      rw [same]
      exact ⟨rfl, fun _ => rfl⟩
  unfold grantSpeak
  split
  · exact .refl _
  · dsimp only
    generalize hd : c.trackHead _ = d
    have left : d.st.seats = c.st.seats := by rw [← hd, trackHead_seats, modFloor_seats]
    refine (kept d left).trans (.ofSeats ?_)
    rw [raise_seats, notify_seats]
    split
    · exact (raise_seats _ _).trans (touch_seats _ _)
    · exact touch_seats _ _

/-- The fill grants to present seats. -/
theorem fillLoop_granted (k : Nat) (c : Claim) : c.st.Granted (fillLoop k c).st := by
  induction k generalizing c with
  | zero => exact .refl _
  | succ k ih =>
    unfold fillLoop
    split
    · exact .refl _
    · next e found =>
      have here : c.st.isHere e.seat = true := List.find?_some (p := fun e : RequestEntry => c.st.isHere e.seat) found
      split
      · exact (c.grantSpeak_granted here .auto none).trans (ih _)
      · split
        · exact .refl _
        · dsimp only
          have closed (i : Fin 6) : c.st.Granted (c.closeSlot i .evict).st := .ofSeats (closeSlot_seats c i .evict)
          split
          · refine (closed _).trans ((grantSpeak_granted _ ?_ .auto none).trans (ih _))
            rw [(closed _).isHere]
            exact here
          · exact closed _

theorem fill_granted (c : Claim) : c.st.Granted c.fill.st := by
  unfold fill
  split
  · exact fillLoop_granted _ c
  · exact .refl _

/-- What follows an event grants to present seats. -/
theorem settleFloor_granted (c : Claim) : c.st.Granted c.settleFloor.st := by
  unfold settleFloor
  dsimp only
  split
  · split
    · split
      · exact c.fill_granted.trans (.ofSeats (serve_seats _))
      · exact c.fill_granted
    · exact .refl _
  · split
    · split
      · exact (State.Granted.ofSeats (serve_seats c)).trans (fill_granted _)
      · exact .ofSeats (serve_seats c)
    · exact .refl _
  · exact .refl _
  · exact .refl _

end Claim

/-- What the end of an event leaves of a seat: all but its grant count and its image. -/
theorem State.event_seat_granted (s : State) (body : Claim → Claim) (n : Nat) : (s.event body).seat n =
    { (body (.start s)).st.seat n with
      grantCount := ((s.event body).seat n).grantCount, image := ((s.event body).seat n).image } := by
  have closed := Claim.close_seat s.floor.requests (body (.start s)).settleFloor n
  rw [(Claim.settleFloor_granted (body (.start s)) n).1] at closed
  have count : ((s.event body).seat n).grantCount = ((body (.start s)).settleFloor.st.seat n).grantCount := by
    unfold event
    rw [Claim.close_seat]
  rw [count]
  exact closed

/-- The end of an event leaves of an absent seat all but its image. -/
theorem State.event_seat_absent {s : State} {body : Claim → Claim} {n : Nat} (away : (body (.start s)).st.isHere n = false) :
    (s.event body).seat n = { (body (.start s)).st.seat n with image := ((s.event body).seat n).image } := by
  have closed := Claim.close_seat s.floor.requests (body (.start s)).settleFloor n
  rw [(Claim.settleFloor_granted (body (.start s))).absent away] at closed
  exact closed

end Sys2Proof.Machine
end

section
/-! SUPPORT. The passes of an advance: the deadline pass (R76, R77) and the end of the refusal displays (R18). -/

namespace Sys2Proof.Machine

/-! ### Slots changed place by place -/

/-- Insertion and a map that keeps the order. -/
theorem insertBy_map {α β : Type} {le : α → α → Bool} {le' : β → β → Bool} {g : α → β} (h : ∀ x y, le' (g x) (g y) = le x y) (x : α)
    (l : List α) : insertBy le' (g x) (l.map g) = (insertBy le x l).map g := by
  induction l with
  | nil => rfl
  | cons y l ih =>
    simp only [List.map_cons, insertBy, h]
    split
    · rfl
    · rw [ih, List.map_cons]

/-- Ordering and a map that keeps the order. -/
theorem sortBy_map {α β : Type} {le : α → α → Bool} {le' : β → β → Bool} {g : α → β} (h : ∀ x y, le' (g x) (g y) = le x y)
    (l : List α) : sortBy le' (l.map g) = (sortBy le l).map g := by
  induction l with
  | nil => rfl
  | cons x l ih =>
    show insertBy le' (g x) (sortBy le' (l.map g)) = (insertBy le x (sortBy le l)).map g
    rw [ih, insertBy_map h]

namespace Floor

variable {f g : Floor} {φ : Fin 6 → DelegateSlot → DelegateSlot}

theorem openSlots_of_map (h : ∀ j : Fin 6, g.slots[j] = f.slots[j].map (φ j)) :
    g.openSlots = f.openSlots.map fun x => (x.1, φ x.1 x.2) := by
  unfold openSlots
  rw [List.map_filterMap]
  refine List.filterMap_congr fun j _ => ?_
  rw [h]
  cases f.slots[j] <;> rfl

/-- A change of the slots that keeps their ages keeps their order. -/
theorem slotsByAge_of_map (h : ∀ j : Fin 6, g.slots[j] = f.slots[j].map (φ j)) {now now' : ChamberTime}
    (ages : ∀ j d, age now' (φ j d).grantedAt = age now d.grantedAt) :
    g.slotsByAge now' = (f.slotsByAge now).map fun x => (x.1, φ x.1 x.2) := by
  unfold slotsByAge
  rw [openSlots_of_map h]
  refine sortBy_map (fun x y => ?_) f.openSlots
  simp only [ages]

/-- A change of the slots that keeps their kinds, seats and ages keeps the principal's place. -/
theorem principal_of_map (h : ∀ j : Fin 6, g.slots[j] = f.slots[j].map (φ j)) {now now' : ChamberTime}
    (ages : ∀ j d, age now' (φ j d).grantedAt = age now d.grantedAt) (kinds : ∀ j d, (φ j d).kind = d.kind)
    (seats : ∀ j d, (φ j d).seat = d.seat) (phase : g.phase = f.phase)
    (targets : g.replies.head?.map (·.target) = f.replies.head?.map (·.target)) :
    g.principal now' = (f.principal now).map fun x => (x.1, φ x.1 x.2) := by
  have oldest : g.oldestSpeak now' = (f.oldestSpeak now).map fun x => (x.1, φ x.1 x.2) := by
    unfold oldestSpeak
    rw [slotsByAge_of_map h ages, List.find?_map]
    simp only [Function.comp_def, kinds]
  have target : g.targetSlot = f.targetSlot.map fun x => (x.1, φ x.1 x.2) := by
    have byTarget (x : Floor) : x.targetSlot = (x.replies.head?.map (·.target)).bind fun n =>
        x.openSlots.find? fun y => y.2.kind = .speak ∧ y.2.seat = n := by
      unfold targetSlot
      cases x.replies.head? <;> rfl
    rw [byTarget, byTarget, targets]
    cases f.replies.head?.map (·.target) with
    | none => rfl
    | some n =>
      simp only [Option.bind_some]
      rw [openSlots_of_map h, List.find?_map]
      simp only [Function.comp_def, kinds, seats]
  unfold principal
  rw [phase]
  cases f.phase with
  | openFloor =>
    dsimp only
    rw [target, oldest]
    cases f.targetSlot <;> rfl
  | replyRound => exact oldest
  | interrupted | halted => rfl

end Floor

/-! ### A slot in overtime -/

/-- The floor with the slot in place i in overtime. -/
def Floor.overtimeSet (f : Floor) (i : Fin 6) (d : DelegateSlot) : Floor :=
  { f with slots := f.slots.set i (some { d with overtime := true }) }

/-- The overtime flag makes no difference to the principal's place. -/
theorem Floor.overtimeSet_principal {f : Floor} {i : Fin 6} {d : DelegateSlot} (hd : f.slots[i] = some d) (now : ChamberTime) (j : Fin 6) :
    ((f.overtimeSet i d).principal now).any (·.1 = j) = (f.principal now).any (·.1 = j) := by
  have changed := principal_of_map (f := f) (g := f.overtimeSet i d) (now := now) (now' := now)
    (φ := fun j x => if j = i then { x with overtime := true } else x)
    (fun j => by
      simp only [overtimeSet, Fin.getElem_fin, Vector.getElem_set]
      by_cases own : j = i
      · subst own
        have here : f.slots[j.val] = some d := hd
        simp [here]
      · have other : ¬ i.val = j.val := fun e => own (Fin.ext e.symm)
        simp [own, other])
    (fun j x => by split <;> rfl) (fun j x => by split <;> rfl) (fun j x => by split <;> rfl) rfl rfl
  rw [changed, Option.any_map]

/-- A change of the floor that a later one undoes. -/
theorem State.modFloor_modFloor_of {s : State} {f g : Floor → Floor} (h : g (f s.floor) = g s.floor) :
    (s.modFloor f).modFloor g = s.modFloor g := by
  unfold modFloor
  dsimp only
  rw [h]

/-- The close of a slot that just went into overtime is the close of the slot. -/
theorem State.slotClosed_overtime {x : State} {i : Fin 6} {d : DelegateSlot} (hd : x.floor.slots[i] = some d) (why : Byte) :
    (x.modFloor (·.overtimeSet i d)).slotClosed i { d with overtime := true } why = x.slotClosed i d why := by
  have slots : (x.floor.overtimeSet i d).slots.set i none = x.floor.slots.set i none := by simp [Floor.overtimeSet]
  have principal : ((x.floor.overtimeSet i d).principal x.time).any (·.1 = i) = (x.floor.principal x.time).any (·.1 = i) :=
    Floor.overtimeSet_principal hd x.time i
  have freed : ((x.modFloor (·.overtimeSet i d)).notify ⟨.released, .seat d.seat, some why,
      [detailOf i, detailOf (x.time - d.grantedAt).toNat]⟩ |>.raise .floor).modFloor (fun f => { f with slots := f.slots.set i none }) =
      ((x.notify ⟨.released, .seat d.seat, some why, [detailOf i, detailOf (x.time - d.grantedAt).toNat]⟩).raise .floor).modFloor
        fun f => { f with slots := f.slots.set i none } := by
    rw [notify_modFloor, raise_modFloor]
    refine modFloor_modFloor_of ?_
    exact congrArg (fun v => ({ x.floor with slots := v } : Floor)) slots
  unfold slotClosed
  dsimp only
  refine if_congr (and_congr Iff.rfl (and_congr Iff.rfl ?_)) ?_ (if_congr Iff.rfl ?_ ?_)
  · rw [← principal]; rfl
  · exact congrArg (·.roundBegun d.seat) freed
  · exact congrArg State.roundEnded freed
  · exact freed

/-! ### One slot of the deadline pass (R76, R77) -/

/-- The slot expires in a pass at this time. -/
def DelegateSlot.expires (now : ChamberTime) (d : DelegateSlot) : Bool := d.deadline.any (reached now) && !d.overtime

namespace Claim

/-- A slot and its seat in overtime, with the notice (R77). -/
def setOvertime (c : Claim) (i : Fin 6) (d : DelegateSlot) : Claim :=
  ((((c.modFloor (·.overtimeSet i d)).modSeat d.seat fun r => { r with overtimeMark := true }).raise .overtime).notify
    (.ofSeat .overtime d.seat (codeIn expiryRow c.policy.expiryAction) [detailOf i, detailCode (codeIn slotKindRow d.kind)])).touch d.seat

section Pass

variable {c : Claim} {i : Fin 6} {d : DelegateSlot}

theorem passSlot_free (h : c.floor.slots[i] = none) : c.passSlot i = c := by
  unfold passSlot
  rw [h]

theorem passSlot_stays (h : c.floor.slots[i] = some d) (stays : d.expires c.time = false) : c.passSlot i = c.touch d.seat := by
  have not_ : ¬ (d.deadline.any (reached c.time) = true ∧ (!d.overtime) = true) := by
    simpa [DelegateSlot.expires] using stays
  unfold passSlot
  rw [h]
  exact if_neg not_

theorem passSlot_expires (h : c.floor.slots[i] = some d) (expires : d.expires c.time = true) : c.passSlot i =
    if c.policy.expiryAction = .close then ((c.touch d.seat).setOvertime i d).closeSlot i .time
    else (c.touch d.seat).setOvertime i d := by
  have does : d.deadline.any (reached c.time) = true ∧ (!d.overtime) = true := by
    simpa [DelegateSlot.expires] using expires
  have here : (c.touch d.seat).floor.slots[i] = some d := by rw [touch_floor]; exact h
  have policy : (c.touch d.seat).policy = c.policy := congrArg Floor.policy (touch_floor c d.seat)
  unfold passSlot
  rw [h]
  dsimp only
  rw [if_pos does]
  unfold expire
  rw [here, ← policy]
  rfl

end Pass

variable (c : Claim) (i : Fin 6)

theorem setOvertime_floor (d : DelegateSlot) : (c.setOvertime i d).floor = c.floor.overtimeSet i d := by
  unfold setOvertime
  rw [touch_floor, notify_floor, raise_floor, modSeat_floor, modFloor_floor]

/-- The close of a slot frees its place alone. -/
theorem closeSlot_slots (why : Reason) : (c.closeSlot i why).floor.slots = c.floor.slots.set i none := by
  cases hd : c.floor.slots[i] with
  | none =>
    have same : c.floor.slots.set i none = c.floor.slots := by
      conv_lhs => rw [← hd]
      exact Vector.set_getElem_self _
    unfold closeSlot
    rw [hd, same]
  | some d =>
    rw [((Shows.self c).closeSlot hd why).floor]
    unfold State.slotClosed
    dsimp only
    split
    · rfl
    · split <;> rfl

/-- The close of an open slot is a fill point. -/
theorem closeSlot_fillPoint {c : Claim} {i : Fin 6} {d : DelegateSlot} (hd : c.floor.slots[i] = some d) (why : Reason) :
    (c.closeSlot i why).fillDue = true := by
  unfold closeSlot
  rw [hd]
  dsimp only
  split
  · simp [beginRound, setPhase]
    split <;> rfl
  · split <;> rfl

theorem closeSlot_fillDue {c : Claim} {i : Fin 6} (why : Reason) (h : c.fillDue = true) : (c.closeSlot i why).fillDue = true := by
  cases hd : c.floor.slots[i] with
  | none =>
    unfold closeSlot
    rw [hd]
    exact h
  | some d => exact closeSlot_fillPoint hd why

/-- What a pass over one slot leaves: chamber time, the policy, the other slots, the flags and marks that are set, and the fill point
that is due. -/
structure Passed (c d : Claim) (i : Fin 6) : Prop where
  frame : c.st.FloorFrame d.st
  steady : c.floor.Steady d.floor
  slots : ∀ j, j ≠ i → d.floor.slots[j] = c.floor.slots[j]
  marks : ∀ n, (c.st.seat n).overtimeMark = true → (d.st.seat n).overtimeMark = true
  fill : c.fillDue = true → d.fillDue = true

namespace Passed

variable {c d : Claim} {i : Fin 6}

/-- A claim of the same floor and seats. -/
theorem ofSame (frame : c.st.FloorFrame d.st) (floor : d.floor = c.floor) (seats : d.st.seats = c.st.seats)
    (fill : d.fillDue = c.fillDue) : c.Passed d i where
  frame := frame
  steady := floor ▸ .refl _
  slots _ _ := by rw [floor]
  marks n := by
    have same : d.st.seat n = c.st.seat n := by unfold State.seat; rw [seats]
    rw [same]
    exact id
  fill := fill.trans

theorem trans {e : Claim} (h : c.Passed d i) (g : d.Passed e i) : c.Passed e i where
  frame := h.frame.trans g.frame
  steady := h.steady.trans g.steady
  slots j other := (g.slots j other).trans (h.slots j other)
  marks n m := g.marks n (h.marks n m)
  fill f := g.fill (h.fill f)

/-- A seat touched. -/
theorem touch (c : Claim) (n : Nat) (i : Fin 6) : c.Passed (c.touch n) i :=
  .ofSame (touch_frame (.refl _) n) (touch_floor c n) (touch_seats c n) (touch_fillDue c n)

/-- The mark of a seat is set by an overtime and by nothing removed. -/
theorem modSeat_marks (c : Claim) (n m : Nat) (h : (c.st.seat m).overtimeMark = true) :
    ((c.modSeat n fun r => { r with overtimeMark := true }).st.seat m).overtimeMark = true := by
  by_cases own : m = n
  · subst own
    by_cases known : (seatIndex m).isSome
    · exact congrArg SeatRecord.overtimeMark (State.seat_modSeat_self c.st known _)
    · have outside : seatIndex m = none := by simpa using known
      have same : (c.modSeat m fun r => { r with overtimeMark := true }).st = c.st := c.st.modSeat_outside outside fun r => { r with overtimeMark := true }
      rw [same]
      exact h
  · have same : (c.modSeat n fun r => { r with overtimeMark := true }).st.seat m = c.st.seat m := State.seat_modSeat_ne c.st own _
    rw [same]
    exact h

/-- The overtime of the slot in the place. -/
theorem setOvertime (c : Claim) (i : Fin 6) (d : DelegateSlot) : c.Passed (c.setOvertime i d) i where
  frame := by
    unfold Claim.setOvertime
    refine touch_frame (notify_frame (raise_frame ?_ _) _) _
    exact modSeat_frame (modFloor_frame (.refl _) _) _ _ (fun r => by rfl) fun r => by rfl
  steady := by
    rw [setOvertime_floor]
    exact .ofSame rfl rfl rfl rfl rfl rfl rfl
  slots j other := by
    rw [setOvertime_floor]
    have place : ¬ i.val = j.val := fun e => other (Fin.ext e.symm)
    simp [Floor.overtimeSet, place]
  marks n m := by
    unfold Claim.setOvertime
    have seats (x : Claim) (e : EventFlag) (k : Notice) : (((x.raise e).notify k).touch d.seat).st.seat n = x.st.seat n := by
      unfold State.seat
      rw [touch_seats]
      rfl
    rw [seats]
    exact modSeat_marks _ _ n m
  fill f := (touch_fillDue _ _).trans f

/-- The close of the slot in the place. -/
theorem closeSlot (c : Claim) (i : Fin 6) (why : Reason) : c.Passed (c.closeSlot i why) i where
  frame := closeSlot_frame (.refl _) i why
  steady := closeSlot_steady c i why
  slots j other := by
    have place : ¬ i.val = j.val := fun e => other (Fin.ext e.symm)
    rw [closeSlot_slots]
    simp [place]
  marks n := by
    have same : (c.closeSlot i why).st.seat n = c.st.seat n := by unfold State.seat; rw [closeSlot_seats]
    rw [same]
    exact id
  fill := closeSlot_fillDue why

/-- One slot of a pass. -/
theorem passSlot (c : Claim) (i : Fin 6) : c.Passed (c.passSlot i) i := by
  cases hd : c.floor.slots[i] with
  | none =>
    rw [passSlot_free hd]
    exact .ofSame (.refl _) rfl rfl rfl
  | some d =>
    cases expires : d.expires c.time with
    | false =>
      rw [passSlot_stays hd expires]
      exact touch c _ i
    | true =>
      rw [passSlot_expires hd expires]
      have marked := (touch c d.seat i).trans (setOvertime _ i d)
      split
      · exact marked.trans (closeSlot _ i .time)
      · exact marked

end Passed

/-- A pass over the places of a list. -/
def passSlots (c : Claim) (l : List (Fin 6)) : Claim := l.foldl passSlot c

/-- What a pass over some places leaves. -/
structure PassedAll (c d : Claim) (l : List (Fin 6)) : Prop where
  frame : c.st.FloorFrame d.st
  steady : c.floor.Steady d.floor
  slots : ∀ j, j ∉ l → d.floor.slots[j] = c.floor.slots[j]
  marks : ∀ n, (c.st.seat n).overtimeMark = true → (d.st.seat n).overtimeMark = true
  fill : c.fillDue = true → d.fillDue = true

theorem passSlots_passed (c : Claim) (l : List (Fin 6)) : c.PassedAll (c.passSlots l) l := by
  induction l generalizing c with
  | nil => exact ⟨.refl _, .refl _, fun _ _ => rfl, fun _ => id, id⟩
  | cons i l ih =>
    have first := Passed.passSlot c i
    have rest := ih (c.passSlot i)
    refine ⟨first.frame.trans rest.frame, first.steady.trans rest.steady, fun j other => ?_, fun n m => rest.marks n (first.marks n m),
      fun f => rest.fill (first.fill f)⟩
    obtain ⟨here, later⟩ := not_or.mp (fun h => other (List.mem_cons.mpr h))
    exact (rest.slots j later).trans (first.slots j here)

/-- A pass comes to each of its places with the slot as it was. -/
theorem passSlots_at {c : Claim} {l : List (Fin 6)} (once : l.Nodup) {i : Fin 6} (hi : i ∈ l) : ∃ (d : Claim) (before after : List (Fin 6)),
    c.PassedAll d before ∧ i ∉ before ∧ c.passSlots l = (d.passSlot i).passSlots after := by
  obtain ⟨before, after, rfl⟩ := List.append_of_mem hi
  refine ⟨c.passSlots before, before, after, c.passSlots_passed before, fun early => ?_, ?_⟩
  · exact List.disjoint_of_nodup_append once early List.mem_cons_self
  · unfold passSlots
    rw [List.foldl_append, List.foldl_cons]

end Claim

/-- The close of a slot sets the FLOOR flag. -/
theorem State.slotClosed_flagged (x : State) (i : Fin 6) (d : DelegateSlot) (why : Byte) (l : Link) :
    (x.slotClosed i d why).flagged l .floor := by
  unfold slotClosed
  dsimp only
  have freed (n : Notice) : ((x.notify n).raise .floor).flagged l .floor := flagged_raise _ l _
  split
  · exact flagged_notify (flagged_raise _ l _) _
  · split
    · exact flagged_raise _ l _
    · exact freed _

end Sys2Proof.Machine
end

section
/-! SUPPORT. The passes of an advance, settled: the deadline pass (R76, R77) and the end of the refusal displays (R18). -/

namespace Sys2Proof.Machine

namespace Claim

/-! ### The slots after a pass -/

/-- A slot after the overtime of those that expire. -/
def overtimeOf (now : ChamberTime) (d : DelegateSlot) : DelegateSlot := { d with overtime := d.overtime || d.deadline.any (reached now) }

theorem overtimeOf_stays {now : ChamberTime} {d : DelegateSlot} (h : d.expires now = false) : overtimeOf now d = d := by
  have same : (d.overtime || d.deadline.any (reached now)) = d.overtime := by
    unfold DelegateSlot.expires at h
    cases hd : d.overtime
    · simpa [hd] using h
    · rfl
  unfold overtimeOf
  rw [same]

theorem overtimeOf_expires {now : ChamberTime} {d : DelegateSlot} (h : d.expires now = true) :
    overtimeOf now d = { d with overtime := true } := by
  have set : (d.overtime || d.deadline.any (reached now)) = true := by
    unfold DelegateSlot.expires at h
    obtain ⟨reaches, -⟩ := Bool.and_eq_true_iff.mp h
    rw [reaches, Bool.or_true]
  unfold overtimeOf
  rw [set]

/-- A place set to what it holds. -/
theorem set_same {α : Type} {n : Nat} {v : Vector α n} {i : Fin n} {x : α} (h : v[i] = x) : v.set i x = v := by
  subst h
  exact Vector.set_getElem_self _

/-- Under WARN a pass over one slot sets its overtime flag if it expires. -/
theorem passSlot_floor_warn (c : Claim) (i : Fin 6) (warn : c.policy.expiryAction = .warn) : (c.passSlot i).floor =
    { c.floor with slots := c.floor.slots.set i (c.floor.slots[i].map (overtimeOf c.time)) } := by
  cases hd : c.floor.slots[i] with
  | none => rw [passSlot_free hd, Option.map_none, set_same hd]
  | some d =>
    cases expires : d.expires c.time with
    | false => rw [passSlot_stays hd expires, touch_floor, Option.map_some, overtimeOf_stays expires, set_same hd]
    | true =>
      have notClose : ¬ c.policy.expiryAction = .close := by rw [warn]; decide
      rw [passSlot_expires hd expires, if_neg notClose, setOvertime_floor, touch_floor, Option.map_some, overtimeOf_expires expires]
      rfl

/-- Under CLOSE, in OPEN with no replies waiting, a pass over one slot frees its place if it expires. -/
theorem passSlot_floor_close (c : Claim) (i : Fin 6) (close : c.policy.expiryAction = .close) (open_ : c.floor.phase = .openFloor)
    (noReply : c.floor.replies = []) : (c.passSlot i).floor =
    { c.floor with slots := c.floor.slots.set i (c.floor.slots[i].bind fun d => if d.expires c.time then none else some d) } := by
  cases hd : c.floor.slots[i] with
  | none => rw [passSlot_free hd, Option.bind_none, set_same hd]
  | some d =>
    cases expires : d.expires c.time with
    | false => rw [passSlot_stays hd expires, touch_floor, Option.bind_some, expires, if_neg Bool.false_ne_true, set_same hd]
    | true =>
      have floor : ((c.touch d.seat).setOvertime i d).floor = c.floor.overtimeSet i d := by rw [setOvertime_floor, touch_floor]
      have place : ((c.touch d.seat).setOvertime i d).floor.slots[i] = some { d with overtime := true } := by
        rw [floor]
        simp [Floor.overtimeSet]
      have left := closeSlot_floor_noReplies _ place (by rw [floor]; exact open_) (by rw [floor]; exact noReply) .time
      rw [passSlot_expires hd expires, if_pos close, left, floor, Option.bind_some, expires, if_pos rfl]
      simp [Floor.overtimeSet]

/-- Places of a list changed one after another. -/
theorem passSlots_floor {g : Option DelegateSlot → Option DelegateSlot} {ok : Floor → Prop} {now : ChamberTime}
    (step : ∀ (c : Claim) (i : Fin 6), ok c.floor → c.time = now →
      (c.passSlot i).floor = { c.floor with slots := c.floor.slots.set i (g c.floor.slots[i]) })
    (keeps : ∀ (f : Floor) (v : Vector (Option DelegateSlot) 6), ok f → ok { f with slots := v }) {l : List (Fin 6)} (once : l.Nodup)
    {c : Claim} (here : ok c.floor) (time : c.time = now) :
    (c.passSlots l).floor = { c.floor with slots := Vector.ofFn fun j => if j ∈ l then g c.floor.slots[j] else c.floor.slots[j] } := by
  induction l generalizing c with
  | nil =>
    have same : (Vector.ofFn fun j : Fin 6 => if j ∈ ([] : List (Fin 6)) then g c.floor.slots[j] else c.floor.slots[j]) = c.floor.slots :=
      Vector.ext fun j hj => by simp
    rw [same]
    rfl
  | cons i l ih =>
    obtain ⟨new, once⟩ := List.nodup_cons.mp once
    have first := step c i here time
    have next_ : (c.passSlot i).time = now :=
      (congrArg TimeBase.chamberTime (Passed.passSlot c i).frame.timeBase).trans time
    have rest := ih once (c := c.passSlot i) (by rw [first]; exact keeps _ _ here) next_
    show ((c.passSlot i).passSlots l).floor = _
    rw [rest, first]
    dsimp only
    congr 1
    refine Vector.ext fun j hj => ?_
    simp only [Vector.getElem_ofFn, Fin.getElem_fin, Vector.getElem_set, List.mem_cons]
    by_cases own : (⟨j, hj⟩ : Fin 6) = i
    · subst own
      simp [new]
    · have place : ¬ i.val = j := fun e => own (Fin.ext e.symm)
      simp [own, place]

/-- The open places, oldest slot first, each once. -/
theorem slotsByAge_places_nodup (f : Floor) (now : ChamberTime) : ((f.slotsByAge now).map (·.1)).Nodup := by
  have perm : ((f.slotsByAge now).map (·.1)).Perm (f.openSlots.map (·.1)) := (sortBy_perm _ _).map _
  rw [perm.nodup_iff]
  unfold Floor.openSlots
  have places : (slotPlaces.filterMap fun i => f.slots[i].map fun d => (i, d)).map (·.1) = slotPlaces.filter fun i => f.slots[i].isSome := by
    rw [List.map_filterMap, ← List.filterMap_eq_filter]
    refine List.filterMap_congr fun i _ => ?_
    cases h : f.slots[i] <;> simp [Option.guard, h]
  rw [places]
  exact (List.nodup_finRange 6).filter _

theorem mem_slotsByAge_places {f : Floor} {now : ChamberTime} {i : Fin 6} :
    i ∈ (f.slotsByAge now).map (·.1) ↔ ∃ d, f.slots[i] = some d := by
  simp only [List.mem_map, Prod.exists, Floor.mem_slotsByAge]
  exact ⟨fun ⟨j, d, h, e⟩ => ⟨d, e ▸ h⟩, fun ⟨d, h⟩ => ⟨i, d, h, rfl⟩⟩

/-- A pass over the open places changes them all. -/
theorem passSlots_all {g : Option DelegateSlot → Option DelegateSlot} (none_ : g none = none) (f : Floor) (now : ChamberTime) :
    (Vector.ofFn fun j => if j ∈ (f.slotsByAge now).map (·.1) then g f.slots[j] else f.slots[j]) = f.slots.map g := by
  refine Vector.ext fun j hj => ?_
  simp only [Vector.getElem_ofFn, Vector.getElem_map]
  split
  · rfl
  · next closed =>
    cases h : f.slots[(⟨j, hj⟩ : Fin 6)] with
    | none => exact none_.symm
    | some d => exact absurd (mem_slotsByAge_places.mpr ⟨d, h⟩) closed

/-- The floor after a deadline pass under WARN (R77). -/
theorem deadlinePass_floor_warn (c : Claim) (warn : c.policy.expiryAction = .warn) :
    c.deadlinePass.floor = { c.floor with slots := c.floor.slots.map (Option.map (overtimeOf c.time)) } := by
  have left := passSlots_floor (g := Option.map (overtimeOf c.time)) (ok := fun f => f.policy.expiryAction = .warn) (now := c.time)
    (fun d i h time => by rw [← time]; exact passSlot_floor_warn d i h) (fun _ _ h => h) (slotsByAge_places_nodup c.floor c.time)
    (c := c) warn rfl
  rw [passSlots_all rfl] at left
  exact left

/-- The floor after a deadline pass under CLOSE, in OPEN with no replies waiting (R53, R77). -/
theorem deadlinePass_floor_close (c : Claim) (close : c.policy.expiryAction = .close) (open_ : c.floor.phase = .openFloor)
    (noReply : c.floor.replies = []) : c.deadlinePass.floor = { c.floor with
      slots := c.floor.slots.map fun x => x.bind fun d => if d.expires c.time then none else some d } := by
  have left := passSlots_floor (g := fun x => x.bind fun d => if d.expires c.time then none else some d)
    (ok := fun f => f.policy.expiryAction = .close ∧ f.phase = .openFloor ∧ f.replies = []) (now := c.time)
    (fun d i h time => by rw [← time]; exact passSlot_floor_close d i h.1 h.2.1 h.2.2) (fun _ _ h => h)
    (slotsByAge_places_nodup c.floor c.time) (c := c) ⟨close, open_, noReply⟩ rfl
  rw [passSlots_all (g := fun x => x.bind fun d => if d.expires c.time then none else some d) rfl] at left
  exact left

/-! ### What a pass makes of an expiring slot -/

/-- An expiring slot goes into overtime, with its mark and flag, and under CLOSE is a fill point with the FLOOR flag. -/
theorem deadlinePass_expired (c : Claim) {i : Fin 6} {d : DelegateSlot} (hd : c.floor.slots[i] = some d) (expires : d.expires c.time = true) :
    ((seatIndex d.seat).isSome → (c.deadlinePass.st.seat d.seat).overtimeMark = true) ∧ (∀ l, c.deadlinePass.st.flagged l .overtime) ∧
      (c.policy.expiryAction = .close → (∀ l, c.deadlinePass.st.flagged l .floor) ∧ c.deadlinePass.fillDue = true) := by
  obtain ⟨e, before, after, reach, new, pass⟩ := passSlots_at (c := c) (slotsByAge_places_nodup c.floor c.time)
    (mem_slotsByAge_places.mpr ⟨d, hd⟩)
  have here : e.floor.slots[i] = some d := (reach.slots i new).trans hd
  have time : e.time = c.time := congrArg TimeBase.chamberTime reach.frame.timeBase
  have policy : e.policy = c.policy := reach.steady.policy
  have rest := passSlots_passed (e.passSlot i) after
  have whole : c.deadlinePass = (e.passSlot i).passSlots after := pass
  rw [whole]
  generalize hm : (e.touch d.seat).setOvertime i d = m at *
  have place : m.floor.slots[i] = some { d with overtime := true } := by
    rw [← hm, setOvertime_floor]
    simp [Floor.overtimeSet]
  have step : e.passSlot i = if c.policy.expiryAction = .close then m.closeSlot i .time else m := by
    rw [passSlot_expires here (time ▸ expires), policy, hm]
  have mark (known : (seatIndex d.seat).isSome) : (m.st.seat d.seat).overtimeMark = true := by
    rw [← hm]
    unfold setOvertime
    have seats (x : Claim) (f : EventFlag) (k : Notice) : (((x.raise f).notify k).touch d.seat).st.seat d.seat = x.st.seat d.seat := by
      unfold State.seat
      rw [touch_seats]
      rfl
    rw [seats]
    exact congrArg SeatRecord.overtimeMark (State.seat_modSeat_self _ known _)
  have flag (l : Link) : m.st.flagged l .overtime := by
    rw [← hm]
    unfold setOvertime
    rw [touch_st]
    exact State.flagged_notify (State.flagged_raise _ l _) _
  have kept : m.PassedAll (e.passSlot i) [i] := by
    rw [step]
    split
    · have closed := Passed.closeSlot m i .time
      exact ⟨closed.frame, closed.steady, fun j other => closed.slots j (by simpa using other), closed.marks, closed.fill⟩
    · exact ⟨.refl _, .refl _, fun _ _ => rfl, fun _ => id, id⟩
  refine ⟨fun known => rest.marks _ (kept.marks _ (mark known)),
    fun l => State.flagged_of_grown rest.frame.report (State.flagged_of_grown kept.frame.report (flag l)), fun close => ?_⟩
  rw [if_pos close] at step
  refine ⟨fun l => State.flagged_of_grown rest.frame.report ?_, rest.fill ?_⟩
  · rw [step]
    have closed := (Shows.self m).closeSlot place .time
    exact (State.flagged_congr closed.report l .floor).mpr (State.slotClosed_flagged _ _ _ _ l)
  · rw [step]
    exact closeSlot_fillPoint place .time

/-! ### A pass in which one slot expires -/

theorem passSlot_tookEntry (c : Claim) (i : Fin 6) : (c.passSlot i).tookEntry = c.tookEntry := by
  cases hd : c.floor.slots[i] with
  | none => rw [passSlot_free hd]
  | some d =>
    cases expires : d.expires c.time with
    | false => rw [passSlot_stays hd expires, touch_tookEntry]
    | true =>
      have marked : ((c.touch d.seat).setOvertime i d).tookEntry = c.tookEntry := by simp [setOvertime]
      rw [passSlot_expires hd expires]
      split
      · rw [closeSlot_tookEntry, marked]
      · exact marked

theorem deadlinePass_tookEntry (c : Claim) : c.deadlinePass.tookEntry = c.tookEntry := foldl_tookEntry passSlot_tookEntry _ c

/-- A pass over places where nothing expires. -/
theorem Shows.passSlots {c : Claim} {x : State} (h : c.Shows x) {l : List (Fin 6)}
    (stay : ∀ j ∈ l, ∀ d, x.floor.slots[j] = some d → d.expires x.time = false) : (c.passSlots l).Shows x := by
  induction l generalizing c with
  | nil => exact h
  | cons j l ih =>
    refine ih (c := c.passSlot j) ?_ fun k hk => stay k (List.mem_cons_of_mem _ hk)
    cases hd : c.floor.slots[j] with
    | none => rw [passSlot_free hd]; exact h
    | some d =>
      have stays : d.expires c.time = false := by
        rw [h.time]
        exact stay j List.mem_cons_self d (h.floor ▸ hd)
      rw [passSlot_stays hd stays]
      exact h.touch d.seat

/-- The expiry of one slot under CLOSE (R77). -/
theorem Shows.passSlot_close {c : Claim} {x : State} (h : c.Shows x) {i : Fin 6} {d : DelegateSlot} (hd : x.floor.slots[i] = some d)
    (expires : d.expires x.time = true) (close : x.floor.policy.expiryAction = .close) : (c.passSlot i).Shows
    (((x.raise .overtime).notify ⟨.overtime, .seat d.seat, some 1, [detailOf i, detailCode (codeIn slotKindRow d.kind)]⟩).slotClosed
      i d 3) := by
  have here : c.floor.slots[i] = some d := h.floor ▸ hd
  have closing : (c.touch d.seat).policy.expiryAction = .close := by
    show (c.touch d.seat).floor.policy.expiryAction = _
    rw [touch_floor, h.floor]
    exact close
  have marked := (((((h.touch d.seat).modFloor (·.overtimeSet i d)).modSeat d.seat fun r => { r with overtimeMark := true }).raise
    .overtime).notify (.ofSeat .overtime d.seat (codeIn expiryRow .close) [detailOf i, detailCode (codeIn slotKindRow d.kind)])).touch
    d.seat
  have overtime : ((c.touch d.seat).setOvertime i d).Shows (((x.raise .overtime).notify
      ⟨.overtime, .seat d.seat, some 1, [detailOf i, detailCode (codeIn slotKindRow d.kind)]⟩).modFloor (·.overtimeSet i d)) := by
    unfold setOvertime
    rw [closing, ← State.notify_modFloor, ← State.raise_modFloor]
    exact marked
  have closed := overtime.closeSlot (i := i) (d := { d with overtime := true }) (by simp [Floor.overtimeSet]) .time
  rw [State.slotClosed_overtime (x := (x.raise .overtime).notify _) hd] at closed
  rw [passSlot_expires here (h.time ▸ expires), if_pos (by rw [h.policy]; exact close)]
  exact closed

end Claim

theorem State.slotClosed_slots (x : State) (i : Fin 6) (d : DelegateSlot) (why : Byte) :
    (x.slotClosed i d why).floor.slots = x.floor.slots.set i none := by
  unfold slotClosed
  dsimp only
  split
  · rfl
  · split <;> rfl

theorem State.slotClosed_requests (x : State) (i : Fin 6) (d : DelegateSlot) (why : Byte) :
    (x.slotClosed i d why).floor.requests = x.floor.requests := by
  unfold slotClosed
  dsimp only
  split
  · rfl
  · split <;> rfl

/-- The close of a slot changes the floor and the reports alone. -/
theorem State.slotClosed_rest (x : State) (i : Fin 6) (d : DelegateSlot) (why : Byte) : x.slotClosed i d why =
    { x with floor := (x.slotClosed i d why).floor, report := (x.slotClosed i d why).report } := by
  unfold slotClosed
  dsimp only
  split
  · rfl
  · split <;> rfl

/-- A pass in which one slot expires under CLOSE is its overtime and its close (R53, R77). -/
theorem Claim.Shows.deadlinePass_one {c : Claim} {x : State} (h : c.Shows x) {i : Fin 6} {d : DelegateSlot}
    (hd : x.floor.slots[i] = some d) (expires : d.expires x.time = true) (close : x.floor.policy.expiryAction = .close)
    (others : ∀ (j : Fin 6) (e : DelegateSlot), j ≠ i → x.floor.slots[j] = some e → e.expires x.time = false) : c.deadlinePass.Shows
    (((x.raise .overtime).notify ⟨.overtime, .seat d.seat, some 1, [detailOf i, detailCode (codeIn slotKindRow d.kind)]⟩).slotClosed
      i d 3) := by
  have once := slotsByAge_places_nodup c.floor c.time
  have member : i ∈ (c.floor.slotsByAge c.time).map (·.1) := mem_slotsByAge_places.mpr ⟨d, h.floor ▸ hd⟩
  have whole : c.deadlinePass = c.passSlots ((c.floor.slotsByAge c.time).map (·.1)) := rfl
  rw [whole]
  generalize (c.floor.slotsByAge c.time).map (·.1) = l at once member
  obtain ⟨before, after, rfl⟩ := List.append_of_mem member
  have split_ : c.passSlots (before ++ i :: after) = ((c.passSlots before).passSlot i).passSlots after := by
    unfold Claim.passSlots
    rw [List.foldl_append, List.foldl_cons]
  have early : ∀ j ∈ before, j ≠ i := fun j hj e =>
    List.disjoint_of_nodup_append once (e ▸ hj) List.mem_cons_self
  have late : ∀ j ∈ after, j ≠ i := fun j hj e =>
    (List.nodup_cons.mp (List.nodup_append.mp once).2.1).1 (e ▸ hj)
  rw [split_]
  refine ((h.passSlots fun j hj e he => others j e (early j hj) he).passSlot_close hd expires close).passSlots fun j hj e he => ?_
  have place : ¬ i.val = j.val := fun same => late j hj (Fin.ext same.symm)
  have kept : x.floor.slots[j] = some e := by
    rw [State.slotClosed_slots] at he
    simpa [Vector.getElem_set, place] using he
  have time (y : State) (i : Fin 6) (d : DelegateSlot) (why : Byte) : (y.slotClosed i d why).time = y.time := by
    rw [State.slotClosed_rest]
    rfl
  rw [time]
  exact others j e (late j hj) kept

/-- Under WARN a pass makes nothing due. -/
theorem Claim.passSlots_due_warn (l : List (Fin 6)) (c : Claim) (warn : c.policy.expiryAction = .warn) : c.SameDue (c.passSlots l) := by
  induction l generalizing c with
  | nil => exact .refl c
  | cons i l ih =>
    have step : c.SameDue (c.passSlot i) := by
      cases hd : c.floor.slots[i] with
      | none => rw [passSlot_free hd]; exact .refl c
      | some d =>
        cases expires : d.expires c.time with
        | false => rw [passSlot_stays hd expires]; exact ⟨touch_fillDue _ _, touch_serveDue _ _⟩
        | true =>
          have notClose : ¬ c.policy.expiryAction = .close := by rw [warn]; decide
          rw [passSlot_expires hd expires, if_neg notClose]
          exact ⟨by simp [setOvertime], by simp [setOvertime]⟩
    refine step.trans (ih (c.passSlot i) ?_)
    have policy : (c.passSlot i).policy = c.policy := (Passed.passSlot c i).steady.policy
    rw [policy]
    exact warn

/-- The first present reply entry rests on the reply list and the presences. -/
theorem State.firstPresentReply_congr {s t : State} (replies : s.floor.replies = t.floor.replies)
    (here : ∀ n, s.isHere n = t.isHere n) : s.firstPresentReply = t.firstPresentReply := by
  unfold firstPresentReply
  simp only [replies, here]

/-! ### The end of the refusal displays (R18) -/

/-- The refusal displays of these seats end. -/
def Claim.endRefusalsOf (c : Claim) (l : List (SeatRecord × Nat)) : Claim :=
  l.foldl (fun c x => (c.modSeat x.2 fun r => { r with refusalUntil := none }).touch x.2) c

theorem Claim.Shows.endRefusalsOf {c : Claim} {x : State} (h : c.Shows x) (l : List (SeatRecord × Nat)) : (c.endRefusalsOf l).Shows x := by
  induction l generalizing c with
  | nil => exact h
  | cons y l ih => exact ih ((h.modSeat y.2 fun r => { r with refusalUntil := none }).touch y.2)

/-- The display of a seat after the displays of a list ended. -/
theorem Claim.endRefusalsOf_refusal (c : Claim) (l : List (SeatRecord × Nat)) (n : Nat) :
    ((c.endRefusalsOf l).st.seat n).refusalUntil =
      if (seatIndex n).isSome ∧ n ∈ l.map (·.2) then none else (c.st.seat n).refusalUntil := by
  induction l generalizing c with
  | nil => simp [endRefusalsOf]
  | cons x l ih =>
    have rest := ih ((c.modSeat x.2 fun r => { r with refusalUntil := none }).touch x.2)
    have one : (((c.modSeat x.2 fun r => { r with refusalUntil := none }).touch x.2).st.seat n).refusalUntil =
        if (seatIndex n).isSome ∧ n = x.2 then none else (c.st.seat n).refusalUntil := by
      rw [touch_st]
      show ((c.st.modSeat x.2 _).seat n).refusalUntil = _
      by_cases own : n = x.2
      · subst own
        by_cases known : (seatIndex x.2).isSome
        · rw [State.seat_modSeat_self c.st known, if_pos ⟨known, rfl⟩]
        · rw [State.modSeat_outside _ (by simpa using known), if_neg fun h => known h.1]
      · rw [State.seat_modSeat_ne c.st own, if_neg fun h => own h.2]
    refine rest.trans ?_
    rw [one]
    simp only [List.map_cons, List.mem_cons]
    grind

theorem Claim.endRefusalsOf_due (c : Claim) (l : List (SeatRecord × Nat)) :
    c.SameDue (c.endRefusalsOf l) ∧ (c.endRefusalsOf l).tookEntry = c.tookEntry := by
  refine ⟨SameDue.foldl (fun c x => ⟨by simp, by simp⟩) l c, foldl_tookEntry (fun c x => by simp) l c⟩

/-- The seats have the numbers 1 to 480. -/
theorem seatIndex_bounds {n : Nat} (known : (seatIndex n).isSome) : 1 ≤ n ∧ n ≤ 480 := by
  by_contra outside
  unfold seatIndex at known
  rw [dif_neg outside] at known
  exact absurd known (by decide)

/-- A seat's display runs out in the pass exactly when it is reached. -/
theorem State.runsOut_iff (s : State) (now : ChamberTime) (n : Nat) :
    ((seatIndex n).isSome = true ∧ n ∈ (s.seatList.filter fun x => x.1.refusalUntil.any (reached now)).map (·.2)) ↔
      (s.seat n).refusalUntil.any (reached now) = true := by
  simp only [List.mem_map, List.mem_filter, Prod.exists, State.mem_seatList]
  constructor
  · rintro ⟨-, r, m, ⟨⟨-, -, rfl⟩, out⟩, rfl⟩
    exact out
  · intro out
    have known : (seatIndex n).isSome := by
      by_contra outside
      have none_ : seatIndex n = none := by simpa using outside
      unfold State.seat at out
      rw [none_] at out
      exact absurd out Bool.false_ne_true
    obtain ⟨low, high⟩ := seatIndex_bounds known
    exact ⟨known, _, n, ⟨⟨low, high, rfl⟩, out⟩, rfl⟩

/-- Settles O44: by the slots that expire, each in its turn. -/
theorem advancePasses : Obligations.AdvancePasses := by
  unfold Obligations.AdvancePasses
  have pass (k : Nat) (s : State) (due : s.due.deadlinePass = k + 1) : exec .deadlinePass s =
      .next (({ s with due := { s.due with deadlinePass := k } } : State).event Claim.deadlinePass) := by
    show execDeadlinePass s = _
    unfold execDeadlinePass
    rw [if_pos (by omega), due]
    rfl
  have refusals (k : Nat) (s : State) (due : s.due.refusalEnd = k + 1) : exec .refusalEnd s =
      .next (({ s with due := { s.due with refusalEnd := k } } : State).event Claim.endRefusals) := by
    show execRefusalEnd s = _
    unfold execRefusalEnd
    rw [if_pos (by omega), due]
    rfl
  have event (m : State) : m.FloorFrame (m.event Claim.deadlinePass) := by
    refine State.event_frame m _ ?_
    exact Claim.deadlinePass_frame (c := .start m) (.refl m)
  have expires {now : ChamberTime} {d : DelegateSlot} (fresh : d.overtime = false) (reaches : d.deadline.any (reached now) = true) :
      d.expires now = true := by simp [DelegateSlot.expires, fresh, reaches]
  have mark (m : State) {i : Fin 6} {d : DelegateSlot} (hd : m.floor.slots[i] = some d) (ex : d.expires m.time = true) (low : 1 ≤ d.seat)
      (high : d.seat ≤ 480) : ((m.event Claim.deadlinePass).seat d.seat).overtimeMark = true := by
    rw [m.event_seat_granted Claim.deadlinePass d.seat]
    exact (Claim.deadlinePass_expired (.start m) hd ex).1 (seatIndex_isSome low high)
  refine ⟨fun k s due warn => ?_, fun k s due close => ?_, fun k s due => ?_⟩
  · let m : State := { s with due := { s.due with deadlinePass := k } }
    refine ⟨m.event Claim.deadlinePass, pass k s due, (event m).due, ?_, fun i d hd fresh reaches low high =>
      ⟨mark m hd (expires fresh reaches) low high, fun l =>
        State.event_flagged ((Claim.deadlinePass_expired (.start m) hd (expires fresh reaches)).2.1 l)⟩⟩
    have floor := Claim.deadlinePass_floor_warn (.start m) warn
    have undue : m.versionDue (Claim.start m).deadlinePass = false := by
      refine State.versionDue_kept (Claim.Shows.self _) ?_ (Claim.deadlinePass_tookEntry _)
      show (Claim.start m).deadlinePass.floor.requests = _
      rw [floor]
    have shown := State.event_undue (body := Claim.deadlinePass) (Claim.Shows.self _) (Claim.passSlots_due_warn _ (.start m) warn)
    rw [undue] at shown
    exact shown.1.trans floor
  · let m : State := { s with due := { s.due with deadlinePass := k } }
    refine ⟨m.event Claim.deadlinePass, pass k s due, (event m).due, fun i d hd fresh reaches low high =>
      ⟨mark m hd (expires fresh reaches) low high, fun l => ?_⟩, fun open_ noReply => ⟨fun manual => ?_, fun auto six some_ room => ?_⟩,
      fun i d hd fresh reaches others => ?_⟩
    · obtain ⟨-, overtime, closing⟩ := Claim.deadlinePass_expired (.start m) hd (expires fresh reaches)
      exact ⟨State.event_flagged (overtime l), State.event_flagged ((closing close).1 l)⟩
    · have floor := Claim.deadlinePass_floor_close (.start m) close open_ noReply
      have phase : (Claim.start m).deadlinePass.floor.phase = .openFloor := by rw [floor]; exact open_
      have policy : (Claim.start m).deadlinePass.policy.grantMode = .manual := by
        show (Claim.start m).deadlinePass.floor.policy.grantMode = _
        rw [floor]
        exact manual
      have undue : m.versionDue (Claim.start m).deadlinePass = false := by
        refine State.versionDue_kept (Claim.Shows.self _) ?_ (Claim.deadlinePass_tookEntry _)
        show (Claim.start m).deadlinePass.floor.requests = _
        rw [floor]
      have shown := State.event_shown (body := Claim.deadlinePass) (Claim.Shows.self _) (Claim.settleFloor_manual _ phase policy)
      rw [undue] at shown
      have words (d : DelegateSlot) : (if d.expires s.time then none else some d) =
          if d.overtime = false ∧ d.deadline.any (reached s.time) = true then none else some d := by
        refine if_congr ?_ rfl rfl
        simp [DelegateSlot.expires, and_comm]
      refine shown.1.trans (floor.trans ?_)
      simp only [← words]
      rfl
    · obtain ⟨i, d, hd, fresh, reaches⟩ := some_
      have floor := Claim.deadlinePass_floor_close (.start m) close open_ noReply
      have phase : (Claim.start m).deadlinePass.floor.phase = .openFloor := by rw [floor]; exact open_
      have policy : (Claim.start m).deadlinePass.floor.policy = s.floor.policy := by rw [floor]
      have replies : (Claim.start m).deadlinePass.floor.replies = [] := by rw [floor]; exact noReply
      have fill := ((Claim.deadlinePass_expired (.start m) hd (expires fresh reaches)).2.2 close).2
      have settles := State.event_settles (body := Claim.deadlinePass) (Claim.Shows.self (Claim.start m).deadlinePass) (fun _ => fill)
        (fun _ => .inl fill) rfl
      rw [State.firstPresent_eq_none]
      refine settles.filled ?_ ?_ ?_ ?_ ?_ <;> rw [State.counted_floor]
      · exact phase
      · exact (congrArg Policy.grantMode policy).trans auto
      · exact (congrArg Policy.floorMax policy).trans_le six
      · exact replies
      · exact room.trans_eq (congrArg Policy.floorMax policy).symm
    · have stay (j : Fin 6) (e : DelegateSlot) (other : j ≠ i) (he : s.floor.slots[j] = some e) : e.expires s.time = false := by
        rcases others j e other he with late | ahead
        · simp [DelegateSlot.expires, late]
        · simp [DelegateSlot.expires, ahead]
      have start : (Claim.start m).Shows s := ⟨rfl, rfl, rfl⟩
      have shows_ := start.deadlinePass_one hd (expires fresh reaches) close stay
      have fill := ((Claim.deadlinePass_expired (.start m) hd (expires fresh reaches)).2.2 close).2
      have undue : m.versionDue (Claim.start m).deadlinePass = false :=
        State.versionDue_kept shows_ (State.slotClosed_requests _ _ _ _) (Claim.deadlinePass_tookEntry _)
      have settles := State.event_settles (body := Claim.deadlinePass) shows_ (fun _ => fill) (fun _ => .inl fill) ?_
      · rw [undue] at settles
        exact settles
      · refine State.firstPresentReply_congr (congrArg Floor.replies shows_.floor) fun n => ?_
        have frame : m.FloorFrame (Claim.start m).deadlinePass.st := Claim.deadlinePass_frame (c := .start m) (.refl m)
        rw [Claim.isHere_of_frame frame, State.slotClosed_rest]
        rfl
  · let m : State := { s with due := { s.due with refusalEnd := k } }
    have whole : Claim.endRefusals (.start m) = (Claim.start m).endRefusalsOf (m.seatList.filter fun x => x.1.refusalUntil.any (reached m.time)) := rfl
    have shows_ : (Claim.endRefusals (.start m)).Shows m := by
      rw [whole]
      exact (Claim.Shows.start m).endRefusalsOf _
    obtain ⟨dueSame, took⟩ := (Claim.start m).endRefusalsOf_due (m.seatList.filter fun x => x.1.refusalUntil.any (reached m.time))
    have shown := State.event_undue (body := Claim.endRefusals) shows_ (by rw [whole]; exact dueSame)
    have undue : m.versionDue (Claim.endRefusals (.start m)) = false :=
      State.versionDue_kept shows_ rfl (by rw [whole]; exact took)
    rw [undue] at shown
    have frame : m.FloorFrame (m.event Claim.endRefusals) := by
      refine State.event_frame m _ ?_
      exact Claim.endRefusals_frame (c := .start m) (.refl m)
    refine ⟨m.event Claim.endRefusals, refusals k s due, frame.due, shown.1, shown.2, fun n => ?_⟩
    rw [m.event_seat_granted Claim.endRefusals n, whole]
    refine (Claim.endRefusalsOf_refusal _ _ n).trans ?_
    exact if_congr (m.runsOut_iff s.time n) rfl rfl

end Sys2Proof.Machine
end

section
/-! SUPPORT. Grants of SPEAK slots within an event (R49), and with them the displacement check (R52). -/

namespace Sys2Proof.Machine

/-! ### The grant within an event and the grant -/

/-- A list without an entry of the seat. -/
theorem Floor.filter_of_requestOf_none {f : Floor} {n : Nat} (h : f.requestOf n = none) : f.requests.filter (·.seat ≠ n) = f.requests := by
  refine List.filter_eq_self.mpr fun e he => ?_
  have other := List.find?_eq_none.mp h e he
  simpa using other

/-- The seat's entry is off the list. -/
theorem Floor.requestOf_filter (f : Floor) (n : Nat) (v : Vector (Option DelegateSlot) 6) :
    ({ f with requests := f.requests.filter (·.seat ≠ n), slots := v } : Floor).requestOf n = none := by
  unfold Floor.requestOf
  rw [List.find?_eq_none]
  intro e he
  have other := (List.mem_filter.mp he).2
  simpa using other

/-- Changes that agree on the floor. -/
theorem State.modFloor_congr {s : State} {f g : Floor → Floor} (h : f s.floor = g s.floor) : s.modFloor f = s.modFloor g := by
  unfold modFloor
  rw [h]

/-- The version is counted at the end of the event for the entry that a grant took (R22, R49). -/
theorem State.speakEntered_counted (x : State) (j : Fin 6) (n : Nat) (o : Origin) (a : Nat) :
    (x.speakEntered j n o a).counted (decide (x.floor.requestOf n ≠ none)) = x.speakGranted j n o a := by
  unfold speakEntered speakGranted counted
  by_cases none_ : x.floor.requestOf n = none
  · have same := Floor.filter_of_requestOf_none none_
    simp only [none_, if_true, ne_eq, not_true_eq_false, decide_false, Bool.false_eq_true, if_false]
    rw [notify_modFloor, raise_modFloor]
    refine modFloor_congr ?_
    exact congrArg (fun r => ({ x.floor with
      requests := r, slots := x.floor.slots.set j (some (slotNow x.time x.floor.policy.warnLead n .speak o a)) } : Floor)) same
  · simp only [none_, if_false, ne_eq, not_false_eq_true, decide_true, if_true]
    simp only [notify_modFloor, raise_modFloor, notify_raise]
    rw [raise_comm _ .list .floor, raise_raise]
    rfl

namespace Claim

/-- A grant takes an entry off the list where the seat has one. -/
theorem grantSpeak_tookEntry (c : Claim) {j : Fin 6} (hj : c.floor.freeSlot = some j) (n : Nat) (o : Origin) (a : Option Nat) :
    (c.grantSpeak n o a).tookEntry = (c.tookEntry || (c.floor.requestOf n).isSome) := by
  unfold grantSpeak
  rw [hj]
  dsimp only
  rw [raise_tookEntry, notify_tookEntry]
  cases (c.floor.requestOf n).isSome with
  | true => simp
  | false => simp

/-- A grant counts for the seat (R49). -/
theorem grantSpeak_grantCount (c : Claim) {j : Fin 6} (hj : c.floor.freeSlot = some j) {n : Nat} (known : (seatIndex n).isSome)
    (o : Origin) (a : Option Nat) : ((c.grantSpeak n o a).st.seat n).grantCount = min 15 ((c.st.seat n).grantCount + 1) := by
  have counted (d e : Claim) (h : d.st.seats = c.st.seats)
      (he : e.st.seats = (d.modSeat n fun r => { r with grantCount := min 15 (r.grantCount + 1) }).st.seats) :
      (e.st.seat n).grantCount = min 15 ((c.st.seat n).grantCount + 1) := by
    have last : e.st.seat n = (d.modSeat n fun r => { r with grantCount := min 15 (r.grantCount + 1) }).st.seat n := by
      unfold State.seat
      rw [he]
    have first : d.st.seat n = c.st.seat n := by unfold State.seat; rw [h]
    rw [last, ← first]
    exact congrArg SeatRecord.grantCount (State.seat_modSeat_self d.st known _)
  unfold grantSpeak
  rw [hj]
  dsimp only
  generalize hd : c.trackHead _ = d
  refine counted d _ (by rw [← hd, trackHead_seats, modFloor_seats]) ?_
  rw [raise_seats, notify_seats]
  split
  · exact (raise_seats _ _).trans (touch_seats _ _)
  · exact touch_seats _ _

/-- The grant ends the seat's waiting. -/
theorem grantSpeak_requestOf (c : Claim) {j : Fin 6} (hj : c.floor.freeSlot = some j) (n : Nat) (o : Origin) (a : Option Nat) :
    (c.grantSpeak n o a).floor.requestOf n = none := by
  obtain ⟨d, floor⟩ := c.grantSpeak_floor hj n o a
  rw [floor]
  exact Floor.requestOf_filter _ _ _

/-- A grant takes no other seat's entry. -/
theorem grantSpeak_requestOf_none (c : Claim) {m : Nat} (h : c.floor.requestOf m = none) (n : Nat) (o : Origin) (a : Option Nat) :
    (c.grantSpeak n o a).floor.requestOf m = none := by
  cases hj : c.floor.freeSlot with
  | none =>
    unfold grantSpeak
    rw [hj]
    exact h
  | some j =>
    obtain ⟨d, floor⟩ := c.grantSpeak_floor hj n o a
    rw [floor]
    unfold Floor.requestOf
    rw [List.find?_eq_none]
    exact fun e he => List.find?_eq_none.mp h e (List.mem_filter.mp he).1

/-- The close of a slot leaves the request list. -/
theorem closeSlot_requests (c : Claim) (i : Fin 6) (why : Reason) : (c.closeSlot i why).floor.requests = c.floor.requests := by
  cases hd : c.floor.slots[i] with
  | none =>
    unfold closeSlot
    rw [hd]
  | some d => rw [((Shows.self c).closeSlot hd why).floor, State.slotClosed_requests]

/-- The seat is none of the waiting ones, and its count stays. -/
structure CountKept (c d : Claim) (m : Nat) : Prop where
  waits : d.floor.requestOf m = none
  count : (d.st.seat m).grantCount = (c.st.seat m).grantCount

/-- The fill grants to waiting seats alone. -/
theorem fillLoop_count (k : Nat) {c : Claim} {m : Nat} (h : c.floor.requestOf m = none) : c.CountKept (fillLoop k c) m := by
  have granted (c : Claim) (h : c.floor.requestOf m = none) {n : Nat} (hn : n ≠ m) :
      c.CountKept (c.grantSpeak n .auto none) m := by
    refine ⟨c.grantSpeak_requestOf_none h n _ _, ?_⟩
    unfold grantSpeak
    split
    · rfl
    · dsimp only
      generalize hd : c.trackHead _ = d
      have first : d.st.seat m = c.st.seat m := by
        unfold State.seat
        rw [← hd, trackHead_seats, modFloor_seats]
      have last (e : Claim) (he : e.st.seats = (d.modSeat n fun r => { r with grantCount := min 15 (r.grantCount + 1) }).st.seats) :
          (e.st.seat m).grantCount = (c.st.seat m).grantCount := by
        have same : e.st.seat m = (d.modSeat n fun r => { r with grantCount := min 15 (r.grantCount + 1) }).st.seat m := by
          unfold State.seat
          rw [he]
        rw [same, ← first]
        exact congrArg SeatRecord.grantCount (State.seat_modSeat_ne d.st hn.symm _)
      refine last _ ?_
      rw [raise_seats, notify_seats]
      split
      · exact (raise_seats _ _).trans (touch_seats _ _)
      · exact touch_seats _ _
  induction k generalizing c with
  | zero => exact ⟨h, rfl⟩
  | succ k ih =>
    unfold fillLoop
    split
    · exact ⟨h, rfl⟩
    · next e found =>
      have other : e.seat ≠ m := by
        have entry : e ∈ c.floor.requests := List.mem_of_find?_eq_some found
        simpa using List.find?_eq_none.mp h e entry
      split
      · have one := granted c h other
        have rest := ih one.waits
        exact ⟨rest.waits, rest.count.trans one.count⟩
      · split
        · exact ⟨h, rfl⟩
        · next i _ =>
          have closed : (c.closeSlot i .evict).floor.requestOf m = none := by
            unfold Floor.requestOf
            rw [closeSlot_requests]
            exact h
          have count : ((c.closeSlot i .evict).st.seat m).grantCount = (c.st.seat m).grantCount := by
            unfold State.seat
            rw [closeSlot_seats]
          dsimp only
          split
          · have one := granted _ closed other
            have rest := ih one.waits
            exact ⟨rest.waits, rest.count.trans (one.count.trans count)⟩
          · exact ⟨closed, count⟩

/-- What follows an event leaves the grant count of a seat that does not wait. -/
theorem settleFloor_count {c : Claim} {m : Nat} (h : c.floor.requestOf m = none) :
    (c.settleFloor.st.seat m).grantCount = (c.st.seat m).grantCount := by
  have filled (c : Claim) (h : c.floor.requestOf m = none) : (c.fill.st.seat m).grantCount = (c.st.seat m).grantCount := by
    unfold fill
    split
    · exact (fillLoop_count _ h).count
    · rfl
  have served (c : Claim) : (c.serve.st.seat m).grantCount = (c.st.seat m).grantCount := by
    unfold State.seat
    rw [serve_seats]
  have still (c : Claim) (h : c.floor.requestOf m = none) : c.serve.floor.requestOf m = none := by
    unfold serve
    split
    · exact h
    · split
      · unfold endRound
        show ((c.notify _).modFloor _ |>.setPhase .openFloor).floor.requestOf m = none
        rw [setPhase_floor]
        exact h
      · split
        · split
          · next e _ =>
            cases hj : c.floor.freeSlot with
            | none =>
              unfold grantReply
              rw [hj]
              exact h
            | some j =>
              rw [((Shows.self c).grantReply hj e.seat).floor]
              exact h
          · exact h
        · exact h
  unfold settleFloor
  dsimp only
  split
  · split
    · split
      · exact (served _).trans (filled c h)
      · exact filled c h
    · rfl
  · split
    · split
      · exact (filled _ (still c h)).trans (served c)
      · exact served c
    · rfl
  · rfl
  · rfl

end Claim

/-- The grant count of a seat that does not wait at the end of an event's body. -/
theorem State.event_count {s : State} {body : Claim → Claim} {m : Nat} (h : (body (.start s)).floor.requestOf m = none) :
    ((s.event body).seat m).grantCount = ((body (.start s)).st.seat m).grantCount :=
  (congrArg SeatRecord.grantCount (Claim.close_seat _ _ m)).trans (Claim.settleFloor_count h)

/-- The first present entry is its seat's entry. -/
theorem State.requestOf_of_firstPresent {s : State} {e : RequestEntry} (h : s.firstPresent = some e) :
    s.floor.requestOf e.seat = some e := by
  obtain ⟨here, before, after, list, away⟩ := List.find?_eq_some_iff_append.mp h
  unfold Floor.requestOf
  rw [List.find?_eq_some_iff_append]
  refine ⟨decide_eq_true rfl, before, after, list, fun x hx => ?_⟩
  have absent := away x hx
  by_cases own : x.seat = e.seat
  · rw [own] at absent
    exact absurd here (by simpa using absent)
  · simpa using own

/-- A present seat is a seat. -/
theorem seatIndex_of_isHere {s : State} {n : Nat} (h : s.isHere n = true) : (seatIndex n).isSome := by
  by_contra outside
  have none_ : seatIndex n = none := by simpa using outside
  have absent : (s.seat n).presence = .absent := by
    unfold State.seat
    rw [none_]
    rfl
  simp [State.isHere, absent] at h

end Sys2Proof.Machine
end

section
/-! SUPPORT. The displacement check (R51, R52). -/

namespace Sys2Proof.Machine

/-- The slot that displacement would close, in the words of the statement (R51). -/
def State.oldestQualified (s : State) : Option (Fin 6 × DelegateSlot) :=
  (s.floor.slotsByAge s.time).find? fun x => x.2.kind = .speak ∧ x.2.grantedAt ≠ s.time ∧
    reached s.time x.2.grantedAt ∧ reached s.time (after x.2.grantedAt s.floor.policy.minTenure)

namespace Claim

/-- On a floor just full under DISPLACE the oldest slot that qualifies is displaced. -/
theorem displaced_eq {c : Claim} (displace : c.policy.fullPolicy = .displace) (full : c.floor.openCount = c.policy.floorMax) :
    c.displaced = c.st.oldestQualified.map (·.1) := by
  unfold displaced State.oldestQualified
  rw [if_pos ⟨displace, full⟩]
  congr 2
  funext x
  rw [Bool.eq_iff_iff]
  simp only [qualifies, Bool.and_eq_true, decide_eq_true_eq]
  exact ⟨fun ⟨⟨⟨kind, tenure⟩, new⟩, old⟩ => ⟨kind, by simpa using new, old, tenure⟩,
    fun ⟨kind, new, old, tenure⟩ => ⟨⟨⟨kind, tenure⟩, by simpa using new⟩, old⟩⟩

/-- Otherwise none is. -/
theorem displaced_none {c : Claim} (h : c.policy.fullPolicy = .wait ∨ c.floor.openCount ≠ c.policy.floorMax) : c.displaced = none := by
  unfold displaced
  refine if_neg fun ⟨displace, full⟩ => ?_
  rcases h with wait | other
  · exact absurd (wait.symm.trans displace) (by decide)
  · exact other full

/-- In a round with replies waiting the serve point stays in the round. -/
theorem serve_round {c : Claim} (round : c.floor.phase = .replyRound) (waiting : c.floor.replies ≠ []) :
    c.serve.floor.phase = .replyRound := by
  unfold serve
  split
  · exact round
  · split
    · split
      · next e _ =>
        cases hj : c.floor.freeSlot with
        | none =>
          unfold grantReply
          rw [hj]
          exact round
        | some j =>
          rw [((Shows.self c).grantReply hj e.seat).floor]
          exact round
      · exact round
    · exact round

end Claim

/-- The body of the displacement check. -/
def Claim.checkDisplacement (c : Claim) : Claim := if c.displacementDue then c.fillPoint else c

/-- A check without effect. -/
theorem checkDisplacement_still {m : State} (h : (Claim.start m).displacementDue = false) : m.event Claim.checkDisplacement = m := by
  have body : Claim.checkDisplacement (.start m) = .start m := if_neg (by rw [h]; decide)
  have still := State.event_of_still (s := m) (body := Claim.checkDisplacement) (by rw [body]; exact .refl _) (by rw [body])
    (by rw [body]) (by rw [body])
  rw [still, body]

section Displaces

variable {m : State} {e : RequestEntry} {i : Fin 6} {d : DelegateSlot} (auto : m.floor.policy.grantMode = .auto)
  (displace : m.floor.policy.fullPolicy = .displace) (open_ : m.floor.phase = .openFloor)
  (full : m.floor.openCount = m.floor.policy.floorMax) (first : m.firstPresent = some e)

include auto displace open_ full first in
/-- The check is a fill point exactly when a slot qualifies. -/
theorem displacementDue_eq : (Claim.start m).displacementDue = m.oldestQualified.isSome := by
  have displaced := Claim.displaced_eq (c := .start m) displace full
  unfold Claim.displacementDue
  rw [displaced, show (Claim.start m).policy.grantMode = .auto from auto, show (Claim.start m).floor.phase = .openFloor from open_]
  simp [first]

include auto displace open_ full first in
/-- The fill of the check closes the slot that qualifies first. -/
theorem checkDisplacement_fill (old : m.oldestQualified = some (i, d)) : ∃ k, (Claim.checkDisplacement (.start m)).fill =
    if ((Claim.start m).fillPoint.closeSlot i .evict).floor.phase = .openFloor then
      Claim.fillLoop k (((Claim.start m).fillPoint.closeSlot i .evict).grantSpeak e.seat .auto none)
    else (Claim.start m).fillPoint.closeSlot i .evict := by
  have body : Claim.checkDisplacement (.start m) = (Claim.start m).fillPoint :=
    if_pos (by rw [displacementDue_eq (m := m) auto displace open_ full first, old]; rfl)
  have some_ : m.floor.requests.length ≠ 0 := fun empty => by
    have entry : e ∈ m.floor.requests := List.mem_of_find?_eq_some first
    rw [List.length_eq_zero_iff.mp empty] at entry
    exact nomatch entry
  obtain ⟨k, hk⟩ := Nat.exists_eq_succ_of_ne_zero some_
  have displaced : (Claim.start m).fillPoint.displaced = some i := by
    refine (Claim.displaced_eq (c := (Claim.start m).fillPoint) displace full).trans ?_
    show m.oldestQualified.map (·.1) = some i
    rw [old]
    rfl
  have noRoom : ¬ (Claim.start m).fillPoint.floor.openCount < (Claim.start m).fillPoint.policy.floorMax :=
    fun room => absurd full (Nat.ne_of_lt room)
  refine ⟨k, ?_⟩
  rw [body]
  have fills : (Claim.start m).fillPoint.fill = Claim.fillLoop m.floor.requests.length (Claim.start m).fillPoint := if_pos ⟨open_, auto⟩
  rw [fills, hk]
  show Claim.fillLoop (k + 1) _ = _
  have here : (Claim.start m).fillPoint.st.firstPresent = some e := first
  conv_lhs => rw [Claim.fillLoop, here]
  dsimp only
  rw [if_neg noRoom, displaced]

end Displaces

/-- The event of a close (R53), in a state that shows another's floor and reports. -/
theorem closeSlot_event_settles {m s : State} (start : (Claim.start m).Shows s) (seats : m.seats = s.seats) {i : Fin 6}
    {d : DelegateSlot} (hd : s.floor.slots[i] = some d) (why : Reason) :
    (s.slotClosed i d (codeIn reasonRow why)).Settles (m.event fun x => x.fillPoint.closeSlot i why) := by
  have closed : ((Claim.start m).fillPoint.closeSlot i why).Shows (s.slotClosed i d (codeIn reasonRow why)) := start.fillPoint.closeSlot hd why
  have place : (Claim.start m).fillPoint.floor.slots[i] = some d := by
    rw [show (Claim.start m).fillPoint.floor = s.floor from start.floor]
    exact hd
  have due : ((Claim.start m).fillPoint.closeSlot i why).fillDue = true := Claim.closeSlot_fillPoint place why
  have frame : m.FloorFrame ((Claim.start m).fillPoint.closeSlot i why).st :=
    Claim.closeSlot_frame (Claim.fillPoint_frame (.refl m)) i why
  have here : ((Claim.start m).fillPoint.closeSlot i why).st.firstPresentReply =
      (s.slotClosed i d (codeIn reasonRow why)).firstPresentReply := by
    refine State.firstPresentReply_congr (congrArg Floor.replies closed.floor) fun n => ?_
    rw [Claim.isHere_of_frame frame, State.slotClosed_rest]
    unfold State.isHere State.seat
    rw [seats]
  have undue : m.versionDue ((Claim.start m).fillPoint.closeSlot i why) = false := by
    refine State.versionDue_kept closed ?_ (by simp)
    exact (State.slotClosed_requests _ _ _ _).trans (congrArg Floor.requests start.floor).symm
  have settles := State.event_settles (s := m) (body := fun x => x.fillPoint.closeSlot i why) closed (fun _ => due) (fun _ => .inl due) here
  rw [undue] at settles
  exact settles

/-- A grant counts the version where the seat has an entry on the list (R22, R49). -/
theorem versionDue_granted {s x : State} {c : Claim} (h : c.Shows x) (same : x.floor.requests = s.floor.requests)
    (took : c.tookEntry = false) {j : Fin 6} (free : x.floor.freeSlot = some j) (n : Nat) (o : Origin) (a : Option Nat) :
    s.versionDue (c.grantSpeak n o a) = decide (x.floor.requestOf n ≠ none) := by
  have here : c.floor.freeSlot = some j := by rw [h.floor]; exact free
  unfold State.versionDue
  rw [c.grantSpeak_tookEntry here, took, Bool.false_or, h.floor]
  cases entry : x.floor.requestOf n with
  | some e => simp
  | none =>
    obtain ⟨d, floor⟩ := c.grantSpeak_floor here n o a
    have kept : (c.grantSpeak n o a).floor.requests = s.floor.requests := by
      rw [floor, h.floor]
      exact (Floor.filter_of_requestOf_none entry).trans same
    simp [kept]

/-- In OPEN a close that begins no round frees the place alone. -/
theorem slotClosed_floor_quiet {s : State} (open_ : s.floor.phase = .openFloor) {i : Fin 6} (d : DelegateSlot) {why : Byte}
    (quiet : s.floor.replies = [] ∨ (s.floor.principal s.time).any (·.1 = i) = false) :
    (s.slotClosed i d why).floor = { s.floor with slots := s.floor.slots.set i none } := by
  have noRound : ¬ (s.floor.phase = .openFloor ∧ s.floor.replies ≠ [] ∧ (s.floor.principal s.time).any (·.1 = i) = true) := by
    rintro ⟨-, waiting, principal⟩
    rcases quiet with none_ | other
    · exact waiting none_
    · exact absurd (other.symm.trans principal) (by decide)
  have noEnd : ¬ (s.floor.phase = .replyRound ∧ s.floor.replies = [] ∧ d.kind = .reply) := fun ends =>
    absurd (open_.symm.trans ends.1) (by decide)
  unfold State.slotClosed
  dsimp only
  rw [if_neg noRound, if_neg noEnd]
  rfl

/-- The floor after a grant that takes an entry. -/
theorem State.speakGranted_floor {x : State} {n : Nat} (waits : x.floor.requestOf n ≠ none) (j : Fin 6) (o : Origin) (a : Nat) :
    (x.speakGranted j n o a).floor = { x.floor with
      slots := x.floor.slots.set j (some (slotNow x.time x.floor.policy.warnLead n .speak o a))
      requests := x.floor.requests.filter (·.seat ≠ n), listVersion := x.floor.listVersion + 1 } := by
  unfold speakGranted
  dsimp only
  rw [if_neg waits]
  rfl

section Displaced

variable {m s : State} {e : RequestEntry} {i : Fin 6} {d : DelegateSlot} (start : (Claim.start m).Shows s)
  (auto : m.floor.policy.grantMode = .auto) (displace : m.floor.policy.fullPolicy = .displace) (open_ : m.floor.phase = .openFloor)
  (full : m.floor.openCount = m.floor.policy.floorMax) (first : m.firstPresent = some e)

include auto displace open_ full first in
/-- What follows the check in OPEN is its fill, and the serve point of a round that this began. -/
theorem checkDisplacement_settled (old : m.oldestQualified = some (i, d)) : (Claim.checkDisplacement (.start m)).settleFloor =
    { (if (Claim.checkDisplacement (.start m)).fill.floor.phase = .replyRound then (Claim.checkDisplacement (.start m)).fill.serve
      else (Claim.checkDisplacement (.start m)).fill) with fillDue := false, serveDue := false } := by
  have body : Claim.checkDisplacement (.start m) = (Claim.start m).fillPoint :=
    if_pos (by rw [displacementDue_eq auto displace open_ full first, old]; rfl)
  have phase : (Claim.start m).fillPoint.floor.phase = .openFloor := open_
  rw [body]
  unfold Claim.settleFloor
  simp only [phase]
  rfl

include start auto displace open_ full first in
/-- A displacement that begins the reply round is the close of the slot, with the serve point that follows. -/
theorem checkDisplacement_round (old : m.oldestQualified = some (i, d)) (hd : s.floor.slots[i] = some d)
    (begins : s.floor.phase = .openFloor ∧ s.floor.replies ≠ [] ∧ (s.floor.principal s.time).any (·.1 = i) = true) :
    m.event Claim.checkDisplacement = m.event fun x => x.fillPoint.closeSlot i .evict := by
  obtain ⟨k, fill⟩ := checkDisplacement_fill auto displace open_ full first old
  have settled := checkDisplacement_settled auto displace open_ full first old
  have closed : ((Claim.start m).fillPoint.closeSlot i .evict).Shows (s.slotClosed i d 4) := start.fillPoint.closeSlot hd .evict
  have place : (Claim.start m).fillPoint.floor.slots[i] = some d := by
    rw [show (Claim.start m).fillPoint.floor = s.floor from start.floor]
    exact hd
  have due : ((Claim.start m).fillPoint.closeSlot i .evict).fillDue = true := Claim.closeSlot_fillPoint place .evict
  have begun : s.slotClosed i d 4 = _ := if_pos begins
  have floor : ((Claim.start m).fillPoint.closeSlot i .evict).floor.phase = .replyRound ∧
      ((Claim.start m).fillPoint.closeSlot i .evict).floor.replies ≠ [] := by
    rw [closed.floor, begun]
    exact ⟨rfl, begins.2.1⟩
  generalize hc : (Claim.start m).fillPoint.closeSlot i .evict = c at *
  obtain ⟨round, replies⟩ := floor
  have notOpen : c.serve.floor.phase ≠ .openFloor := by
    rw [Claim.serve_round round replies]
    decide
  have stays : ¬ c.floor.phase = .openFloor := by
    rw [round]
    decide
  rw [if_neg stays] at fill
  have settle : (Claim.checkDisplacement (.start m)).settleFloor = c.settleFloor := by
    rw [settled, fill, if_pos round, Claim.settleFloor_round c round (.inl due), if_neg notOpen]
  unfold State.event
  rw [settle, ← hc]

include start auto displace open_ full first in
/-- A displacement that begins no round, where no other present entry waits, is the close of the slot and the grant. -/
theorem checkDisplacement_grant (old : m.oldestQualified = some (i, d)) (hd : s.floor.slots[i] = some d) {j : Fin 6}
    (quiet : s.floor.replies = [] ∨ (s.floor.principal s.time).any (·.1 = i) = false)
    (free : (s.slotClosed i d 4).floor.freeSlot = some j)
    (alone : ∀ x ∈ m.floor.requests, x.seat ≠ e.seat → m.isHere x.seat = false) :
    (Claim.checkDisplacement (.start m)).settleFloor =
      { ((Claim.start m).fillPoint.closeSlot i .evict).grantSpeak e.seat .auto none with fillDue := false, serveDue := false } := by
  obtain ⟨k, fill⟩ := checkDisplacement_fill auto displace open_ full first old
  have settled := checkDisplacement_settled auto displace open_ full first old
  have closed : ((Claim.start m).fillPoint.closeSlot i .evict).Shows (s.slotClosed i d 4) := start.fillPoint.closeSlot hd .evict
  have openHere : s.floor.phase = .openFloor := (congrArg Floor.phase start.floor).symm.trans open_
  have phase : (s.slotClosed i d 4).floor.phase = .openFloor := by
    rw [slotClosed_floor_quiet openHere d quiet]
    exact openHere
  have requests : (s.slotClosed i d 4).floor.requests = m.floor.requests :=
    (State.slotClosed_requests _ _ _ _).trans (congrArg Floor.requests start.floor).symm
  have frame : m.FloorFrame (((Claim.start m).fillPoint.closeSlot i .evict).grantSpeak e.seat .auto none).st :=
    Claim.grantSpeak_frame (Claim.closeSlot_frame (Claim.fillPoint_frame (.refl m)) i .evict) _ _ _
  generalize (Claim.start m).fillPoint.closeSlot i .evict = c at *
  obtain ⟨y, granted⟩ := c.grantSpeak_floor (j := j) (by rw [closed.floor]; exact free) e.seat .auto none
  have nothing : Claim.fillLoop k (c.grantSpeak e.seat .auto none) = c.grantSpeak e.seat .auto none := by
    refine fillLoop_nothing k _ (.inl (State.firstPresent_eq_none.mpr fun x hx => ?_))
    rw [Claim.isHere_of_frame frame]
    rw [show (c.grantSpeak e.seat .auto none).st.floor = _ from granted] at hx
    obtain ⟨member, other⟩ := List.mem_filter.mp hx
    rw [closed.floor, requests] at member
    exact alone x member (by simpa using other)
  have here : c.floor.phase = .openFloor := by
    rw [closed.floor]
    exact phase
  have notRound : ¬ (c.grantSpeak e.seat .auto none).floor.phase = .replyRound := by
    rw [granted, here]
    decide
  rw [if_pos here, nothing] at fill
  rw [settled, fill, if_neg notRound]

end Displaced

/-- Settles O45: by the conditions of R52, and the one turn of the fill that they start. -/
theorem displacementCheck : Obligations.DisplacementCheck := by
  unfold Obligations.DisplacementCheck
  intro k s due
  let m : State := { s with due := { s.due with displacement := k } }
  have step : exec .displacementCheck s = .next (m.event Claim.checkDisplacement) := by
    show execDisplacementCheck s = _
    unfold execDisplacementCheck
    rw [if_pos (by omega), due]
    rfl
  rw [step]
  refine ⟨fun idle => ?_, fun auto displace open_ full e first oldest hold => ?_⟩
  · rw [checkDisplacement_still (m := m)]
    unfold Claim.displacementDue
    rcases idle with manual | wait | shut | room | none_
    · simp [show (Claim.start m).policy.grantMode = .manual from manual]
    · rw [Claim.displaced_none (c := .start m) (.inl wait)]
      simp
    · simp [show (Claim.start m).floor.phase ≠ .openFloor from shut]
    · rw [Claim.displaced_none (c := .start m) (.inr room)]
      simp
    · simp [show (Claim.start m).st.firstPresent = none from none_]
  have hold : oldest = m.oldestQualified := hold
  refine ⟨fun none_ => ?_, fun i d some_ => ?_⟩
  · rw [checkDisplacement_still (m := m)]
    rw [displacementDue_eq (m := m) auto displace open_ full first, ← hold, none_]
    rfl
  have old : m.oldestQualified = some (i, d) := hold.symm.trans some_
  have hd : s.floor.slots[i] = some d := Floor.mem_slotsByAge.mp (List.mem_of_find?_eq_some old)
  have start : (Claim.start m).Shows s := ⟨rfl, rfl, rfl⟩
  have frame : m.FloorFrame (m.event Claim.checkDisplacement) := by
    refine State.event_frame m _ ?_
    unfold Claim.checkDisplacement
    split
    · exact Claim.fillPoint_frame (.refl m)
    · exact .refl m
  refine ⟨m.event Claim.checkDisplacement, rfl, frame.due, fun waiting principal => ?_, fun j quiet free alone => ?_⟩
  · rw [checkDisplacement_round start auto displace open_ full first old hd ⟨open_, waiting, principal⟩]
    exact closeSlot_event_settles start rfl hd .evict
  · have settle := checkDisplacement_grant start auto displace open_ full first old hd quiet free alone
    have closed : ((Claim.start m).fillPoint.closeSlot i .evict).Shows (s.slotClosed i d 4) := start.fillPoint.closeSlot hd .evict
    have seats : ((Claim.start m).fillPoint.closeSlot i .evict).st.seats = s.seats := Claim.closeSlot_seats _ _ _
    have took : ((Claim.start m).fillPoint.closeSlot i .evict).tookEntry = false := Claim.closeSlot_tookEntry _ _ _
    generalize (Claim.start m).fillPoint.closeSlot i .evict = c at *
    have freeHere : c.floor.freeSlot = some j := by rw [closed.floor]; exact free
    have entry : s.floor.requestOf e.seat = some e := State.requestOf_of_firstPresent first
    have waits : (s.slotClosed i d 4).floor.requestOf e.seat = some e := by
      unfold Floor.requestOf
      rw [State.slotClosed_requests]
      exact entry
    have floor := slotClosed_floor_quiet (why := 4) open_ d quiet
    have granted := closed.grantSpeak free e.seat .auto none
    rw [waits, floor] at granted
    have settleShows : (Claim.checkDisplacement (.start m)).settleFloor.Shows
        ((s.slotClosed i d 4).speakEntered j e.seat .auto (e.allowance.getD s.floor.policy.speakAllow)) := by
      rw [settle]
      exact granted.of_st rfl
    obtain ⟨left, report⟩ := m.event_counted Claim.checkDisplacement settleShows
    have due_ : m.versionDue (Claim.checkDisplacement (.start m)).settleFloor = decide ((s.slotClosed i d 4).floor.requestOf e.seat ≠ none) := by
      rw [settle, waits]
      exact versionDue_granted closed (State.slotClosed_requests _ _ _ _) took free e.seat .auto none |>.trans (by rw [waits])
    rw [due_, State.speakEntered_counted] at left report
    refine ⟨left.trans ?_, report, ?_⟩
    · rw [State.speakGranted_floor (by rw [waits]; simp), floor, State.slotClosed_rest]
      rfl
    · have count : ((m.event Claim.checkDisplacement).seat e.seat).grantCount =
          ((Claim.checkDisplacement (.start m)).settleFloor.st.seat e.seat).grantCount := by
        unfold State.event
        rw [Claim.close_seat]
      rw [count, settle]
      refine (c.grantSpeak_grantCount freeHere (seatIndex_of_isHere (s := s) (List.find?_some (p := fun x : RequestEntry => s.isHere x.seat) first)) .auto none).trans ?_
      unfold State.seat
      rw [seats]

end Sys2Proof.Machine
end

section
/-! SUPPORT. Seats that leave the floor (R6, R7, R15): what the removals take off the floor, and that nothing puts it back. -/

namespace Sys2Proof.Machine

namespace Floor

/-- Nothing of this floor is new: g holds no slot, entry or held seat that f does not. -/
structure Within (f g : Floor) : Prop where
  slots : ∀ (i : Fin 6) (d : DelegateSlot), g.slots[i] = some d → f.slots[i] = some d
  chairs : ∀ (i : Fin 2) (d : ChairSlot), g.chairs[i] = some d → f.chairs[i] = some d
  requests : ∀ e ∈ g.requests, e ∈ f.requests
  replies : ∀ e ∈ g.replies, e ∈ f.replies
  stack : ∀ n, g.stack.any (·.holds n) = true → f.stack.any (·.holds n) = true

/-- The seat is nowhere on the floor. -/
structure Lacks (f : Floor) (n : Nat) : Prop where
  slots : ∀ (i : Fin 6) (d : DelegateSlot), f.slots[i] = some d → d.seat ≠ n
  chairs : ∀ (i : Fin 2) (d : ChairSlot), f.chairs[i] = some d → d.seat ≠ n
  requests : ∀ e ∈ f.requests, e.seat ≠ n
  replies : ∀ e ∈ f.replies, e.seat ≠ n
  stack : f.stack.any (·.holds n) = false

namespace Within

variable {f g h : Floor}

theorem refl (f : Floor) : f.Within f := ⟨fun _ _ => id, fun _ _ => id, fun _ => id, fun _ => id, fun _ => id⟩

theorem trans (a : f.Within g) (b : g.Within h) : f.Within h :=
  ⟨fun i d x => a.slots i d (b.slots i d x), fun i d x => a.chairs i d (b.chairs i d x), fun e x => a.requests e (b.requests e x),
    fun e x => a.replies e (b.replies e x), fun n x => a.stack n (b.stack n x)⟩

/-- A seat that is nowhere stays nowhere. -/
theorem lacks (a : f.Within g) {n : Nat} (l : f.Lacks n) : g.Lacks n :=
  ⟨fun i d x => l.slots i d (a.slots i d x), fun i d x => l.chairs i d (a.chairs i d x), fun e x => l.requests e (a.requests e x),
    fun e x => l.replies e (a.replies e x), by
      rw [Bool.eq_false_iff]
      exact fun x => Bool.eq_false_iff.mp l.stack (a.stack n x)⟩

/-- A seat with one slot keeps to one. -/
theorem oneSlot (a : f.Within g) {n : Nat} (l : f.oneSlot n) : g.oneSlot n :=
  ⟨fun i j d e x y => l.1 i j d e (a.slots i d x) (a.slots j e y), fun i j d e x y => l.2 i j d e (a.chairs i d x) (a.chairs j e y)⟩

/-- A place set empty holds what it held. -/
theorem set_none {α : Type} {k : Nat} {v : Vector (Option α) k} {i j : Fin k} {x : α} (h : (v.set i none)[j] = some x) : v[j] = some x := by
  simp only [Fin.getElem_fin, Vector.getElem_set] at h
  split at h
  · exact nomatch h
  · exact h

end Within

/-- What a seat that is nowhere has of the floor: nothing (R15). -/
theorem Lacks.idle {s : State} {n : Nat} (l : s.floor.Lacks n) : s.floorState n = .idle := by
  have request : s.floor.requestOf n = none := List.find?_eq_none.mpr fun e he => by simpa using l.requests e he
  have reply : s.floor.replyOf n = none := List.find?_eq_none.mpr fun e he => by simpa using l.replies e he
  have slot : s.floor.slotOf n = none := by
    refine List.find?_eq_none.mpr fun i _ => ?_
    cases hd : s.floor.slots[i] with
    | none => simp
    | some d => simpa using l.slots i d hd
  have chair : s.floor.chairOf n = none := by
    refine List.find?_eq_none.mpr fun i _ => ?_
    cases hd : s.floor.chairs[i] with
    | none => simp
    | some d => simpa using l.chairs i d hd
  unfold State.floorState
  rw [request, reply, slot, chair, l.stack]
  rfl

end Floor

theorem State.slotClosed_within (x : State) (i : Fin 6) (d : DelegateSlot) (why : Byte) : x.floor.Within (x.slotClosed i d why).floor := by
  have freed (f : Floor) : f.Within { f with slots := f.slots.set i none } :=
    ⟨fun j e h => Floor.Within.set_none h, fun _ _ => id, fun _ => id, fun _ => id, fun _ => id⟩
  unfold slotClosed
  dsimp only
  split
  · exact (freed x.floor).trans ⟨fun _ _ => id, fun _ _ => id, fun _ => id, fun _ => id, fun _ => id⟩
  · split
    · exact (freed x.floor).trans ⟨fun _ _ => id, fun _ _ => id, fun _ => id, fun _ => id, fun _ => id⟩
    · exact freed x.floor

namespace Claim

variable (c : Claim)

/-! ### One removal at a time -/

theorem closeSlot_within (i : Fin 6) (why : Reason) : c.floor.Within (c.closeSlot i why).floor := by
  cases hd : c.floor.slots[i] with
  | none =>
    unfold closeSlot
    rw [hd]
    exact .refl _
  | some d =>
    rw [((Shows.self c).closeSlot hd why).floor]
    exact State.slotClosed_within _ _ _ _

theorem dequeue_floor (n : Nat) (why : Reason) :
    (c.dequeue n why).floor = { c.floor with requests := c.floor.requests.filter (·.seat ≠ n) } := by
  cases found : c.floor.requestOf n with
  | none =>
    have same := Floor.filter_of_requestOf_none found
    unfold dequeue
    rw [found]
    show c.floor = _
    rw [same]
  | some e =>
    rw [((Shows.self c).dequeue (by rw [show c.st.floor.requestOf n = _ from found]; simp) why).floor]
    rfl

theorem dropReply_floor (n : Nat) (why : Reason) :
    (c.dropReply n why).floor = { c.floor with replies := c.floor.replies.filter (·.seat ≠ n) } := by
  cases found : c.floor.replyOf n with
  | none =>
    have same : c.floor.replies.filter (·.seat ≠ n) = c.floor.replies := by
      refine List.filter_eq_self.mpr fun e he => ?_
      simpa using List.find?_eq_none.mp found e he
    unfold dropReply
    rw [found, same]
  | some e =>
    rw [((Shows.self c).dropReply (show c.st.floor.replyOf n = some e from found) why).floor]
    rfl

theorem dropHeld_floor (n : Nat) (why : Reason) : (c.dropHeld n why).floor = { c.floor with stack := c.floor.stack.map fun fr => { fr with
    records := fr.records.filter (·.seat ≠ n), entries := fr.entries.filter (·.seat ≠ n) } } := by
  unfold dropHeld
  split
  · have walk {α : Type} (g : α → Notice) (l : List α) (c : Claim) : (l.foldl (fun c a => c.notify (g a)) c).floor = c.floor := by
      induction l generalizing c with
      | nil => rfl
      | cons a l ih => exact ih _
    dsimp only
    rw [touch_floor, raise_floor, walk, walk, modFloor_floor]
  · next none_ =>
    have same : (c.floor.stack.map fun fr => { fr with
        records := fr.records.filter (·.seat ≠ n), entries := fr.entries.filter (·.seat ≠ n) }) = c.floor.stack := by
      refine (List.map_congr_left fun fr hfr => ?_).trans (List.map_id _)
      have free : fr.holds n = false := by
        simp only [Bool.not_eq_true, List.any_eq_false] at none_
        simpa using none_ fr hfr
      obtain ⟨noRecord, noEntry⟩ := Bool.or_eq_false_iff.mp free
      have records : fr.records.filter (·.seat ≠ n) = fr.records :=
        List.filter_eq_self.mpr fun h hh => by simpa using List.any_eq_false.mp noRecord h hh
      have entries : fr.entries.filter (·.seat ≠ n) = fr.entries :=
        List.filter_eq_self.mpr fun h hh => by simpa using List.any_eq_false.mp noEntry h hh
      rw [records, entries]
      rfl
    rw [same]

theorem closeSlotOf_within (n : Nat) (why : Reason) : c.floor.Within (c.closeSlotOf n why).floor := by
  unfold closeSlotOf
  split
  · exact c.closeSlot_within _ _
  · exact .refl _

theorem closeChairOf_floor (n : Nat) (why : Reason) : (c.closeChairOf n why).floor = match c.floor.chairOf n with
    | some i => { c.floor with chairs := c.floor.chairs.set i none }
    | none => c.floor := by
  unfold closeChairOf
  cases c.floor.chairOf n with
  | none => rfl
  | some i => exact c.closeChair_floor i why

theorem dequeue_within (n : Nat) (why : Reason) : c.floor.Within (c.dequeue n why).floor := by
  rw [dequeue_floor]
  exact ⟨fun _ _ => id, fun _ _ => id, fun e he => (List.mem_filter.mp he).1, fun _ => id, fun _ => id⟩

theorem dropReply_within (n : Nat) (why : Reason) : c.floor.Within (c.dropReply n why).floor := by
  rw [dropReply_floor]
  exact ⟨fun _ _ => id, fun _ _ => id, fun _ => id, fun e he => (List.mem_filter.mp he).1, fun _ => id⟩

theorem closeChairOf_within (n : Nat) (why : Reason) : c.floor.Within (c.closeChairOf n why).floor := by
  rw [closeChairOf_floor]
  split
  · exact ⟨fun _ _ => id, fun _ _ h => Floor.Within.set_none h, fun _ => id, fun _ => id, fun _ => id⟩
  · exact .refl _

theorem dropHeld_within (n : Nat) (why : Reason) : c.floor.Within (c.dropHeld n why).floor := by
  rw [dropHeld_floor]
  refine ⟨fun _ _ => id, fun _ _ => id, fun _ => id, fun _ => id, fun m held => ?_⟩
  simp only [List.any_map, List.any_eq_true, Function.comp_def, StackFrame.holds, Bool.or_eq_true, List.mem_filter] at held ⊢
  obtain ⟨fr, hfr, ⟨h, ⟨hh, -⟩, own⟩ | ⟨e, ⟨he, -⟩, own⟩⟩ := held
  · exact ⟨fr, hfr, .inl ⟨h, hh, own⟩⟩
  · exact ⟨fr, hfr, .inr ⟨e, he, own⟩⟩

/-- A removal takes off the floor. -/
theorem removeSeat_within (n : Nat) (why : Reason) : c.floor.Within (c.removeSeat n why).floor := by
  unfold removeSeat
  exact ((((c.dequeue_within n why).trans (dropReply_within _ n why)).trans (closeSlotOf_within _ n why)).trans
    (closeChairOf_within _ n why)).trans (dropHeld_within _ n why)

/-- The slot of a seat with one slot is closed. -/
theorem closeSlotOf_slots {c : Claim} {n : Nat} (one : c.floor.oneSlot n) (why : Reason) (i : Fin 6) (d : DelegateSlot)
    (hd : (c.closeSlotOf n why).floor.slots[i] = some d) : d.seat ≠ n := by
  intro own
  have before := (c.closeSlotOf_within n why).slots i d hd
  unfold closeSlotOf at hd
  cases found : c.floor.slotOf n with
  | none =>
    have empty := List.find?_eq_none.mp found i (List.mem_finRange i)
    rw [before] at empty
    simp [own] at empty
  | some j =>
    obtain ⟨x, hx, seat⟩ := Floor.slotOf_some found
    have same := one.1 i j d x before hx own seat
    rw [found] at hd
    dsimp only at hd
    rw [closeSlot_slots, same] at hd
    simp at hd

/-- The chair slot of a seat with one chair slot is closed. -/
theorem closeChairOf_chairs {c : Claim} {n : Nat} (one : c.floor.oneSlot n) (why : Reason) (i : Fin 2) (d : ChairSlot)
    (hd : (c.closeChairOf n why).floor.chairs[i] = some d) : d.seat ≠ n := by
  intro own
  have before := (c.closeChairOf_within n why).chairs i d hd
  rw [closeChairOf_floor] at hd
  cases found : c.floor.chairOf n with
  | none =>
    have empty := List.find?_eq_none.mp found i (List.mem_finRange i)
    rw [before] at empty
    simp [own] at empty
  | some j =>
    obtain ⟨x, hx, seat⟩ := Floor.chairOf_some found
    have same := one.2 i j d x before hx own seat
    rw [found] at hd
    dsimp only at hd
    rw [same] at hd
    simp at hd

/-- After its removal a seat waits for no reply. -/
theorem removeSeat_replies (n : Nat) (why : Reason) : ∀ e ∈ (c.removeSeat n why).floor.replies, e.seat ≠ n := by
  intro x hx
  have d := closeSlotOf_within ((c.dequeue n why).dropReply n why) n why
  have e := closeChairOf_within (((c.dequeue n why).dropReply n why).closeSlotOf n why) n why
  have f := dropHeld_within ((((c.dequeue n why).dropReply n why).closeSlotOf n why).closeChairOf n why) n why
  have early := d.replies x (e.replies x (f.replies x hx))
  rw [dropReply_floor] at early
  simpa using (List.mem_filter.mp early).2

/-- A seat with at most one slot of each kind is nowhere after its removal (R6, R15). -/
theorem removeSeat_lacks {n : Nat} (one : c.floor.oneSlot n) (why : Reason) : (c.removeSeat n why).floor.Lacks n := by
  have a := c.dequeue_within n why
  have b := dropReply_within (c.dequeue n why) n why
  have d := closeSlotOf_within ((c.dequeue n why).dropReply n why) n why
  have e := closeChairOf_within (((c.dequeue n why).dropReply n why).closeSlotOf n why) n why
  have f := dropHeld_within ((((c.dequeue n why).dropReply n why).closeSlotOf n why).closeChairOf n why) n why
  have oneB := (a.trans b).oneSlot one
  have oneD := d.oneSlot oneB
  refine ⟨fun i x hx => closeSlotOf_slots oneB why i x (e.slots i x (f.slots i x hx)), fun i x hx =>
    closeChairOf_chairs oneD why i x (f.chairs i x hx), fun x hx => ?_, c.removeSeat_replies n why, ?_⟩
  · have early := b.requests x (d.requests x (e.requests x (f.requests x hx)))
    rw [dequeue_floor] at early
    simpa using (List.mem_filter.mp early).2
  · unfold removeSeat
    rw [dropHeld_floor]
    simp [StackFrame.holds, List.any_eq_false]

end Claim

end Sys2Proof.Machine
end

section
/-! SUPPORT. SEAT UNBIND (R6) and SEAT ENABLE (R7). -/

namespace Sys2Proof.Machine

namespace Claim

/-! ### What follows an event brings no seat back that left the lists -/

/-- A slot opened for another seat. -/
theorem lacks_granted {f g : Floor} {m : Nat} (l : f.Lacks m) {j : Fin 6} {d : DelegateSlot} (other : d.seat ≠ m)
    (slots : g.slots = f.slots.set j (some d)) (chairs : g.chairs = f.chairs) (requests : ∀ e ∈ g.requests, e ∈ f.requests)
    (replies : ∀ e ∈ g.replies, e ∈ f.replies) (stack : g.stack = f.stack) : g.Lacks m := by
  refine ⟨fun i x hx => ?_, fun i x hx => l.chairs i x (chairs ▸ hx), fun e he => l.requests e (requests e he),
    fun e he => l.replies e (replies e he), stack ▸ l.stack⟩
  rw [slots] at hx
  simp only [Fin.getElem_fin, Vector.getElem_set] at hx
  split at hx
  · obtain rfl := Option.some.inj hx
    exact other
  · exact l.slots i x hx

theorem grantSpeak_lacks {c : Claim} {m : Nat} (l : c.floor.Lacks m) {n : Nat} (other : n ≠ m) (o : Origin) (a : Option Nat) :
    (c.grantSpeak n o a).floor.Lacks m := by
  cases hj : c.floor.freeSlot with
  | none =>
    unfold grantSpeak
    rw [hj]
    exact l
  | some j =>
    rw [((Shows.self c).grantSpeak hj n o a).floor]
    generalize (a <|> (c.st.floor.requestOf n).bind (·.allowance)).getD c.st.floor.policy.speakAllow = k
    unfold State.speakEntered
    refine lacks_granted l (j := j) (d := slotNow c.st.time c.st.floor.policy.warnLead n .speak o k) other ?_ ?_ (fun e he => ?_)
      (fun e he => ?_) ?_
    · split <;> rfl
    · split <;> rfl
    · split at he <;> exact (List.mem_filter.mp he).1
    · split at he <;> exact he
    · split <;> rfl

theorem grantReply_lacks {c : Claim} {m : Nat} (l : c.floor.Lacks m) {n : Nat} (other : n ≠ m) : (c.grantReply n).floor.Lacks m := by
  cases hj : c.floor.freeSlot with
  | none =>
    unfold grantReply
    rw [hj]
    exact l
  | some j =>
    rw [((Shows.self c).grantReply hj n).floor]
    exact lacks_granted l (j := j) (d := slotNow c.st.time c.st.floor.policy.warnLead n .reply .auto c.st.floor.policy.replyAllow) other rfl rfl (fun _ => id) (fun e he => (List.mem_filter.mp he).1)
      rfl

theorem endRound_lacks {c : Claim} {m : Nat} (l : c.floor.Lacks m) : c.endRound.floor.Lacks m := by
  have floor : c.endRound.floor = { c.floor with subject := none, phase := .openFloor } := by
    unfold endRound
    dsimp only
    rw [fillPoint_floor, setPhase_floor, modFloor_floor, notify_floor]
  rw [floor]
  exact ⟨l.slots, l.chairs, l.requests, l.replies, l.stack⟩

theorem fillLoop_lacks (k : Nat) {c : Claim} {m : Nat} (l : c.floor.Lacks m) : (fillLoop k c).floor.Lacks m := by
  induction k generalizing c with
  | zero => exact l
  | succ k ih =>
    unfold fillLoop
    split
    · exact l
    · next e found =>
      have other : e.seat ≠ m := l.requests e (List.mem_of_find?_eq_some found)
      split
      · exact ih (grantSpeak_lacks l other .auto none)
      · split
        · exact l
        · next i _ =>
          have closed := (c.closeSlot_within i .evict).lacks l
          dsimp only
          split
          · exact ih (grantSpeak_lacks closed other .auto none)
          · exact closed

theorem fill_lacks {c : Claim} {m : Nat} (l : c.floor.Lacks m) : c.fill.floor.Lacks m := by
  unfold fill
  split
  · exact fillLoop_lacks _ l
  · exact l

theorem serve_lacks {c : Claim} {m : Nat} (l : c.floor.Lacks m) : c.serve.floor.Lacks m := by
  unfold serve
  split
  · exact l
  · split
    · exact endRound_lacks l
    · split
      · split
        · next e found => exact grantReply_lacks l (l.replies e (List.mem_of_find?_eq_some found))
        · exact l
      · exact l

theorem settleFloor_lacks {c : Claim} {m : Nat} (l : c.floor.Lacks m) : c.settleFloor.floor.Lacks m := by
  unfold settleFloor
  dsimp only
  split
  · split
    · split
      · exact serve_lacks (fill_lacks l)
      · exact fill_lacks l
    · exact l
  · split
    · split
      · exact fill_lacks (serve_lacks l)
      · exact serve_lacks l
    · exact l
  · exact l
  · exact l

end Claim

/-- A seat that the body of an event leaves nowhere is nowhere after the event. -/
theorem State.event_lacks {s : State} {body : Claim → Claim} {m : Nat} (l : (body (.start s)).floor.Lacks m) : (s.event body).floor.Lacks m := by
  obtain ⟨floor, -⟩ := s.event_counted body (Claim.Shows.self _)
  rw [floor, State.counted_floor]
  have settled := Claim.settleFloor_lacks l
  exact ⟨settled.slots, settled.chairs, settled.requests, settled.replies, settled.stack⟩

/-- The first present reply entry rests on the presences of the seats on the reply list. -/
theorem State.firstPresentReply_congr_mem {s t : State} (replies : s.floor.replies = t.floor.replies)
    (here : ∀ e ∈ s.floor.replies, s.isHere e.seat = t.isHere e.seat) : s.firstPresentReply = t.firstPresentReply := by
  unfold firstPresentReply
  rw [← replies]
  exact List.find?_congr here

/-- A removal changes the floor and the reports alone. -/
theorem State.seatRemoved_seats (s : State) (n : Nat) (why : Byte) : (s.seatRemoved n why).seats = s.seats := by
  have walk {α : Type} (g : α → Notice) (l : List α) (x : State) : (l.foldl (fun x a => x.notify (g a)) x).seats = x.seats := by
    rw [State.foldl_notify_rest]
  have held (x : State) : (x.heldDropped n why).seats = x.seats := by
    unfold heldDropped
    dsimp only
    split
    · rw [walk, walk]
    · rw [modFloor_seats, raise_seats, walk, walk]
  have chair (x : State) : (match x.floor.chairOf n with
      | none => x
      | some j => ((x.notify ⟨.chairClose, .seat n, some why, [detailOf j]⟩).raise .floor).modFloor
        fun f => { f with chairs := f.chairs.set j none }).seats = x.seats := by split <;> rfl
  have slot (x : State) : (match (x.floor.slotOf n).bind fun i => x.floor.slots[i].map fun d => (i, d) with
      | none => x
      | some (i, d) => x.slotClosed i d why).seats = x.seats := by
    split
    · rfl
    · rw [slotClosed_rest]
  have reply (x : State) : (match x.floor.replyOf n with
      | none => x
      | some e => ((x.notify ⟨.replyDropped, .seat n, some why, [detailOf e.target]⟩).raise .reply).modFloor
        fun f => { f with replies := f.replies.filter (·.seat ≠ n) }).seats = x.seats := by split <;> rfl
  have request : (if s.floor.requestOf n = none then s else
      (s.notify ⟨.dequeued, .seat n, some why, []⟩).modFloor fun f =>
        { f with requests := f.requests.filter (·.seat ≠ n) }).seats = s.seats := by split <;> rfl
  exact (held _).trans ((chair _).trans ((slot _).trans ((reply _).trans request)))

/-! ### SEAT UNBIND (R6) -/

/-- What a removal counts of the version: the words of the statements. -/
theorem State.versionDue_shows {s x : State} {c : Claim} (h : c.Shows x) (took : c.tookEntry = false) :
    x.counted (s.versionDue c) = x.listTold s := by
  rw [State.listTold_eq]
  unfold versionDue
  rw [took, Bool.or_false, h.floor]
  congr 2
  exact propext ne_comm

/-- A pair released changes the trunks and the seat alone. -/
theorem Claim.Shows.releasePair {c : Claim} {x : State} (h : c.Shows x) (n : Nat) : (c.releasePair n).Shows x := by
  unfold Claim.releasePair
  split
  · exact h
  · exact (h.modTrunk _ _).modSeat n _

/-- The claim of SEAT UNBIND removes the seat from the floor. -/
theorem Claim.Shows.unbind {c : Claim} {x : State} (h : c.Shows x) (n : Nat) : (c.unbind n).Shows (x.seatRemoved n 11) := by
  unfold Claim.unbind
  exact (((h.removeSeat n .unbind).releasePair n).modSeat n _).fillPoint

/-- The seat's record after its pair is released. -/
theorem Claim.releasePair_seat (c : Claim) {n : Nat} (known : (seatIndex n).isSome) :
    (c.releasePair n).st.seat n = { c.st.seat n with binding := none } := by
  unfold Claim.releasePair
  cases hb : (c.st.seat n).binding with
  | none => simp only [← hb]
  | some b => exact State.seat_modSeat_self _ known _

theorem Claim.releasePair_seat_ne (c : Claim) {n m : Nat} (other : m ≠ n) : (c.releasePair n).st.seat m = c.st.seat m := by
  unfold Claim.releasePair
  split
  · rfl
  · exact State.seat_modSeat_ne _ other _

/-- The seat's record after its unbinding (R6). -/
theorem Claim.unbind_seat (c : Claim) {n : Nat} (known : (seatIndex n).isSome) : (c.unbind n).st.seat n =
    { c.st.seat n with binding := none, kind := none, presence := .absent, refusalUntil := none, image := .dark } := by
  have before : (c.removeSeat n .unbind).st.seat n = c.st.seat n := by unfold State.seat; rw [removeSeat_seats]
  have last : (c.unbind n).st.seat n = { ((c.removeSeat n .unbind).releasePair n).st.seat n with
      kind := none, presence := .absent, refusalUntil := none, image := .dark } := State.seat_modSeat_self _ known _
  rw [last, releasePair_seat _ known, before]

theorem Claim.unbind_seat_ne (c : Claim) {n m : Nat} (other : m ≠ n) : (c.unbind n).st.seat m = c.st.seat m := by
  have before : (c.removeSeat n .unbind).st.seat m = c.st.seat m := by unfold State.seat; rw [removeSeat_seats]
  have last : (c.unbind n).st.seat m = ((c.removeSeat n .unbind).releasePair n).st.seat m := State.seat_modSeat_ne _ other _
  rw [last, releasePair_seat_ne _ other, before]

/-- The image of an unbound seat stays dark (R16). -/
theorem State.settleImage_dark {s : State} {m : Nat} (unbound : (s.seat m).binding = none) (dark : (s.seat m).image = .dark) (n : Nat) :
    (s.settleImage n).seat m = s.seat m := by
  by_cases own : n = m
  · subst own
    have same : s.image n = (s.seat n).image := by
      rw [dark]
      unfold image
      simp [unbound]
    unfold settleImage
    rw [if_pos same]
  · have marked (t : State) (label : Bool) : (t.markSeat n label).seat m = t.seat m := by
      unfold seat
      rw [markSeat_seats]
    unfold settleImage
    split
    · rfl
    · dsimp only
      split
      · exact seat_modSeat_ne s (Ne.symm own) _
      · rw [marked, seat_modSeat_ne s (Ne.symm own)]

theorem State.foldl_settleImage_dark (l : List Nat) {s : State} {m : Nat} (unbound : (s.seat m).binding = none)
    (dark : (s.seat m).image = .dark) : (l.foldl settleImage s).seat m = s.seat m := by
  induction l generalizing s with
  | nil => rfl
  | cons n l ih =>
    have one := settleImage_dark unbound dark n
    rw [List.foldl_cons, ih (by rw [one]; exact unbound) (by rw [one]; exact dark), one]

/-- The pair's position is marked with the label flag, where its trunk takes the mark (R146). -/
theorem Claim.releasePair_marked {c : Claim} {n : Nat} {b : Binding} (hb : (c.st.seat n).binding = some b)
    (takes : (c.st.trunk b.trunk).takesMark b.position = true) :
    ∃ x ∈ ((c.releasePair n).st.trunk b.trunk).pending, x.position = b.position ∧ x.label = true := by
  have trunk : (c.releasePair n).st.trunk b.trunk = (c.st.trunk b.trunk).mark b.position true := by
    unfold Claim.releasePair
    rw [hb]
    exact (congrArg (·[b.trunk]) (State.modSeat_trunks _ _ _)).trans (State.trunk_modTrunk_self _ _ _)
  rw [trunk]
  obtain ⟨x, hx, position, label⟩ := TrunkEngine.mark_entered _ b.position true takes
  exact ⟨x, hx, position, label rfl⟩

/-- A seat's record changed leaves the trunks. -/
theorem Claim.modSeat_trunk (c : Claim) (n : Nat) (f : SeatRecord → SeatRecord) (i : TrunkNo) :
    (c.modSeat n f).st.trunk i = c.st.trunk i := congrArg (fun v : Vector TrunkEngine 4 => v[i]) (State.modSeat_trunks c.st n f)

theorem Claim.unbind_trunk (c : Claim) (n : Nat) (i : TrunkNo) :
    (c.unbind n).st.trunk i = ((c.removeSeat n .unbind).releasePair n).st.trunk i := Claim.modSeat_trunk _ _ _ _

theorem Claim.releasePair_tookEntry (c : Claim) (n : Nat) : (c.releasePair n).tookEntry = c.tookEntry := by
  unfold releasePair
  split <;> rfl

/-- The release of the pair leaves the floor. -/
theorem Claim.unbind_floor (c : Claim) (n : Nat) : (c.unbind n).floor = (c.removeSeat n .unbind).floor := by
  unfold Claim.unbind Claim.releasePair
  rw [fillPoint_floor, modSeat_floor]
  split
  · rfl
  · rw [modSeat_floor]
    rfl

section UnbindEvent

variable (s : State) {n : Nat} (known : (seatIndex n).isSome)

include known in
/-- The seat after SEAT UNBIND. -/
theorem unbind_event_seat : (s.event (·.unbind n)).seat n =
    { s.seat n with binding := none, kind := none, presence := .absent, refusalUntil := none, image := .dark } := by
  have record := Claim.unbind_seat (.start s) known
  have away : (Claim.unbind (.start s) n).st.isHere n = false := by
    unfold State.isHere
    rw [record]
    rfl
  have settled := ((Claim.settleFloor_granted (Claim.unbind (.start s) n)).absent away).trans record
  have counted (c : Claim) (before : List RequestEntry) (h : c.st.seat n =
      { s.seat n with binding := none, kind := none, presence := .absent, refusalUntil := none, image := .dark }) :
      (Claim.close before c).seat n = c.st.seat n := by
    unfold Claim.close
    dsimp only
    have kept (t : State) (ht : t.seat n = c.st.seat n) : (c.touched.foldl State.settleImage t).seat n = c.st.seat n :=
      (State.foldl_settleImage_dark _ (by rw [ht, h]) (by rw [ht, h])).trans ht
    split
    · exact kept _ rfl
    · exact kept _ rfl
  exact (counted _ _ settled).trans settled

/-- The other seats after SEAT UNBIND. -/
theorem unbind_event_seat_ne {m : Nat} (other : m ≠ n) : (s.seat m).sameButFloor ((s.event (·.unbind n)).seat m) := by
  unfold SeatRecord.sameButFloor
  rw [State.event_seat_granted, Claim.unbind_seat_ne (.start s) other]

/-- The removal and the release leave every trunk but its pending updates. -/
theorem unbind_event_marked {b : Binding} (hb : (s.seat n).binding = some b) (takes : (s.trunk b.trunk).takesMark b.position = true) :
    ∃ x ∈ ((s.event (·.unbind n)).trunk b.trunk).pending, x.position = b.position ∧ x.label = true := by
  have removed : s.FloorFrame ((Claim.start s).removeSeat n .unbind).st := Claim.removeSeat_frame (c := .start s) (.refl s) n .unbind
  obtain ⟨x, hx, position, label⟩ := Claim.releasePair_marked ((removed.binding n).1.trans hb)
    ((removed.takesMark b.trunk b.position).trans takes)
  have after : (Claim.unbind (.start s) n).st.FloorFrame (s.event (·.unbind n)) := State.event_after s (·.unbind n)
  obtain ⟨y, hy, same, kept⟩ := after.marksKept b.trunk x (by rw [Claim.unbind_trunk]; exact hx)
  exact ⟨y, hy, same.trans position, kept label⟩

/-- The floor and the reports after SEAT UNBIND. -/
theorem unbind_event_settles : ((s.seatRemoved n 11).listTold s).Settles (s.event (·.unbind n)) := by
  have shows_ := (Claim.Shows.start s).unbind n
  have took : (Claim.unbind (.start s) n).tookEntry = false := by
    unfold Claim.unbind
    rw [Claim.fillPoint_tookEntry, Claim.modSeat_tookEntry, Claim.releasePair_tookEntry, Claim.removeSeat_tookEntry]
  rw [← State.versionDue_shows shows_ took]
  refine State.event_settles (body := (·.unbind n)) shows_ (fun _ => rfl) (fun _ => .inl rfl) ?_
  refine State.firstPresentReply_congr_mem (congrArg Floor.replies shows_.floor) fun e he => ?_
  have other : e.seat ≠ n := by
    refine (Claim.start s).removeSeat_replies n .unbind e ?_
    rw [← Claim.unbind_floor]
    exact he
  unfold State.isHere
  rw [Claim.unbind_seat_ne (.start s) other]
  unfold State.seat
  rw [State.seatRemoved_seats]

end UnbindEvent

/-- Settles O24: by the seat's removal from the floor and the release of its pair. -/
theorem seatUnbind : Obligations.SeatUnbind := by
  unfold Obligations.SeatUnbind
  intro s l c hc
  have acts : exec (.seatUnbind l) s = .next ((seatUnbindAction c.payload s).1.answer l c (seatUnbindAction c.payload s).2) :=
    congrArg _ (hc.acts seatUnbindAction)
  rw [acts]
  generalize hn : u16 c.payload 0 = n
  have action : seatUnbindAction c.payload s = if (!seatOk n) = true then (s, .of .range)
      else if (s.seat n).binding.isNone then (s, .of .unbound) else (s.event (·.unbind n), .of .done) := by
    unfold seatUnbindAction
    rw [hn]
    rfl
  rw [action]
  refine ⟨fun outside => ?_, fun low high unbound => ?_, fun low high bound => ⟨s.event (·.unbind n), ?_, ?_⟩⟩
  · rw [if_pos (seatOk_outside outside)]
  · rw [if_neg (seatOk_inside low high), unbound]
    rfl
  · rw [if_neg (seatOk_inside low high), if_neg (by simpa using bound)]
  have record := unbind_event_seat s (seatIndex_isSome low high)
  have claim : s.ClaimFrame (s.event (·.unbind n)) := by
    refine State.event_claim s _ ?_
    exact Claim.unbind_claim (c := .start s) (.refl s) n
  refine ⟨?_, ?_, ?_, ?_, ?_, ?_, ?_, fun m other => unbind_event_seat_ne s other, claim, ?_, ?_, ?_, fun one => ?_,
    unbind_event_settles s, fun tr p at_ => ?_, fun b hb takes => unbind_event_marked s hb takes⟩
  all_goals try rw [record]
  · refine Floor.Lacks.idle (State.event_lacks ?_)
    have removed := Claim.removeSeat_lacks (.start s) one .unbind
    rw [Claim.unbind_floor]
    exact removed
  · obtain ⟨b, hb, -⟩ := State.binding_of_seatAt at_
    rw [record] at hb
    exact nomatch hb

end Sys2Proof.Machine
end

section
/-! SUPPORT. SEAT ENABLE (R7). -/

namespace Sys2Proof.Machine

namespace Claim

/-! ### One seat of the range -/

theorem setEnabled_same {c : Claim} {v : Bool} {n : Nat} (h : (c.st.seat n).enabled = v) : c.setEnabled v n = c := if_pos h

theorem setEnabled_on {c : Claim} {n : Nat} (h : (c.st.seat n).enabled = false) :
    c.setEnabled true n = c.modSeat n fun r => { r with enabled := true } := if_neg (by simp [h])

theorem setEnabled_off {c : Claim} {n : Nat} (h : (c.st.seat n).enabled = true) :
    c.setEnabled false n = ((c.modSeat n fun r => { r with enabled := false }).removeSeat n .disable).fillPoint := if_neg (by simp [h])

/-- A seat of the range takes the value, and every other keeps its record. -/
theorem setEnabled_seat (c : Claim) (v : Bool) {n : Nat} (known : (seatIndex n).isSome) (m : Nat) :
    (c.setEnabled v n).st.seat m = if m = n then { c.st.seat m with enabled := v } else c.st.seat m := by
  have changed : (c.modSeat n fun r => { r with enabled := v }).st.seat m =
      if m = n then { c.st.seat m with enabled := v } else c.st.seat m := by
    split
    · next own =>
      subst own
      exact State.seat_modSeat_self c.st known _
    · next other => exact State.seat_modSeat_ne c.st other _
  by_cases same : (c.st.seat n).enabled = v
  · rw [setEnabled_same same]
    split
    · next own => rw [own, ← same]
    · rfl
  · cases v with
    | true =>
      rw [setEnabled_on (by simpa using same)]
      exact changed
    | false =>
      rw [setEnabled_off (by simpa using same), ← changed]
      unfold State.seat
      rw [fillPoint_seats, removeSeat_seats]

theorem setEnabled_tookEntry (c : Claim) (v : Bool) (n : Nat) : (c.setEnabled v n).tookEntry = c.tookEntry := by
  unfold setEnabled
  split
  · rfl
  · dsimp only
    split
    · rfl
    · rw [fillPoint_tookEntry, removeSeat_tookEntry, modSeat_tookEntry]

theorem setEnabled_fillDue {c : Claim} (v : Bool) (n : Nat) (h : c.fillDue = true) : (c.setEnabled v n).fillDue = true := by
  unfold setEnabled
  split
  · exact h
  · dsimp only
    split
    · exact h
    · rfl

/-- What one seat of the range leaves of the floor is there before. -/
theorem setEnabled_within (c : Claim) (v : Bool) (n : Nat) : c.floor.Within (c.setEnabled v n).floor := by
  unfold setEnabled
  split
  · exact .refl _
  · dsimp only
    have same : (c.modSeat n fun r => { r with enabled := v }).floor = c.floor := modSeat_floor c n _
    split
    · rw [same]
      exact .refl _
    · rw [fillPoint_floor]
      exact same ▸ removeSeat_within _ n .disable

/-- A seat that becomes disabled leaves the floor. -/
theorem Shows.setEnabled {c : Claim} {x : State} (h : c.Shows x) (v : Bool) (n : Nat) : (c.setEnabled v n).Shows
    (if v = false ∧ (c.st.seat n).enabled = true then x.seatRemoved n 10 else x) := by
  by_cases same : (c.st.seat n).enabled = v
  · rw [setEnabled_same same, if_neg fun ⟨off, on⟩ => Bool.false_ne_true (off.symm.trans (same.symm.trans on))]
    exact h
  · cases v with
    | true =>
      rw [setEnabled_on (by simpa using same), if_neg fun off => nomatch off.1]
      exact h.modSeat n _
    | false =>
      have on : (c.st.seat n).enabled = true := by simpa using same
      rw [setEnabled_off on, if_pos ⟨rfl, on⟩]
      exact ((h.modSeat n _).removeSeat n .disable).fillPoint

/-! ### The range -/

/-- The seats of a range take the value. -/
def setEnabledAll (c : Claim) (v : Bool) (l : List Nat) : Claim := l.foldl (fun c n => c.setEnabled v n) c

section Range

variable {c : Claim} {v : Bool} {l : List Nat} (known : ∀ n ∈ l, (seatIndex n).isSome)

include known in
theorem setEnabledAll_seat (m : Nat) :
    (c.setEnabledAll v l).st.seat m = if m ∈ l then { c.st.seat m with enabled := v } else c.st.seat m := by
  induction l generalizing c with
  | nil => rfl
  | cons n l ih =>
    have rest := ih (c := c.setEnabled v n) fun k hk => known k (List.mem_cons_of_mem _ hk)
    refine rest.trans ?_
    rw [setEnabled_seat c v (known n List.mem_cons_self)]
    simp only [List.mem_cons]
    by_cases own : m = n
    · simp [own]
    · simp [own]

theorem setEnabledAll_tookEntry : (c.setEnabledAll v l).tookEntry = c.tookEntry := foldl_tookEntry (fun c n => setEnabled_tookEntry c v n) l c

theorem setEnabledAll_fillDue (h : c.fillDue = true) : (c.setEnabledAll v l).fillDue = true := by
  induction l generalizing c with
  | nil => exact h
  | cons n l ih => exact ih (setEnabled_fillDue v n h)

theorem setEnabledAll_within : c.floor.Within (c.setEnabledAll v l).floor := by
  induction l generalizing c with
  | nil => exact .refl _
  | cons n l ih => exact (c.setEnabled_within v n).trans ih

include known in
/-- The seats that become disabled leave the floor, in order. -/
theorem Shows.setEnabledAll {x : State} (h : c.Shows x) (once : l.Nodup) : (c.setEnabledAll v l).Shows
    ((if v then [] else l.filter fun n => (c.st.seat n).enabled).foldl (fun x n => x.seatRemoved n 10) x) := by
  induction l generalizing c x with
  | nil =>
    cases v <;> exact h
  | cons n l ih =>
    obtain ⟨new, once⟩ := List.nodup_cons.mp once
    have rest := ih (c := c.setEnabled v n) (fun k hk => known k (List.mem_cons_of_mem _ hk)) (h.setEnabled v n) once
    have same : l.filter (fun k => ((c.setEnabled v n).st.seat k).enabled) = l.filter fun k => (c.st.seat k).enabled := by
      refine List.filter_congr fun k hk => ?_
      have other : k ≠ n := fun e => new (e ▸ hk)
      rw [setEnabled_seat c v (known n List.mem_cons_self), if_neg other]
    rw [same] at rest
    refine Eq.mp (congrArg _ ?_) rest
    cases v with
    | true => rfl
    | false =>
      rw [if_neg Bool.false_ne_true, if_neg Bool.false_ne_true, List.filter_cons]
      by_cases on : (c.st.seat n).enabled = true
      · rw [if_pos ⟨rfl, on⟩, if_pos on, List.foldl_cons]
      · rw [if_neg fun both => on both.2, if_neg on]

include known in
/-- A seat that becomes disabled, with at most one slot of each kind, is nowhere. -/
theorem setEnabledAll_lacks (once : l.Nodup) {n : Nat} (hn : n ∈ l) (off : v = false) (on : (c.st.seat n).enabled = true)
    (one : c.floor.oneSlot n) : (c.setEnabledAll v l).floor.Lacks n := by
  induction l generalizing c with
  | nil => exact nomatch hn
  | cons k l ih =>
    obtain ⟨new, once⟩ := List.nodup_cons.mp once
    rcases List.mem_cons.mp hn with rfl | later
    · refine (setEnabledAll_within (c := c.setEnabled v n) (l := l)).lacks ?_
      rw [off, setEnabled_off on, fillPoint_floor]
      refine removeSeat_lacks _ ?_ .disable
      rw [modSeat_floor]
      exact one
    · have other : n ≠ k := fun e => new (e ▸ later)
      refine ih (c := c.setEnabled v k) (fun k hk => known k (List.mem_cons_of_mem _ hk)) once later ?_ ((c.setEnabled_within v k).oneSlot one)
      rw [setEnabled_seat c v (known k List.mem_cons_self), if_neg other]
      exact on

end Range

end Claim

/-- The claim of SEAT ENABLE. -/
def Claim.enableSeats (v : Bool) (l : List Nat) (c : Claim) : Claim := c.fillPoint.setEnabledAll v l

/-- Settles O25: by the range, the value and the seats that change. -/
theorem seatEnable : Obligations.SeatEnable := by
  unfold Obligations.SeatEnable
  intro s l c hc base count hbase hcount
  have acts : exec (.seatEnable l) s = .next ((seatEnableAction c.payload s).1.answer l c (seatEnableAction c.payload s).2) :=
    congrArg _ (hc.acts seatEnableAction)
  rw [acts]
  refine ⟨fun failed => ?_, fun low few many fits => ⟨fun bad => ?_, fun v hv => ⟨fun same => ?_, fun differs => ?_⟩⟩⟩
  · simp only [seatEnableAction, seatRange_of_failed hbase hcount failed, refuseWith]
  · have none_ : ofCode noYesRow (u8 c.payload 3) = none := ofCode_beyond bad
    simp only [seatEnableAction, seatRange_of_checks hbase hcount low few many fits, none_, refuseWith]
  all_goals
    have range : seatRange c.payload = some (List.range' base count) := seatRange_of_checks hbase hcount low few many fits
    have value : ofCode noYesRow (u8 c.payload 3) = some v := ofCode_noYesRow hv
    have inside (n : Nat) : n ∈ List.range' base count ↔ base ≤ n ∧ n < base + count := by
      rw [List.mem_range'_1]
  · have all : (List.range' base count).all (fun n => (s.seat n).enabled = v) = true := by
      rw [List.all_eq_true]
      exact fun n hn => decide_eq_true (same n ((inside n).mp hn).1 ((inside n).mp hn).2)
    simp only [seatEnableAction, range, value, all, if_true, refuseWith]
  · have some_ : ¬ (List.range' base count).all (fun n => (s.seat n).enabled = v) = true := by
      rw [List.all_eq_true]
      obtain ⟨n, hb, hn, other⟩ := differs
      exact fun all => other (of_decide_eq_true (all n ((inside n).mpr ⟨hb, hn⟩)))
    have known : ∀ n ∈ List.range' base count, (seatIndex n).isSome := fun n hn => by
      obtain ⟨hb, hn⟩ := (inside n).mp hn
      exact seatIndex_isSome (by omega) (by omega)
    have once : (List.range' base count).Nodup := List.nodup_range'
    have action : seatEnableAction c.payload s = (s.event (Claim.enableSeats v (List.range' base count)), .of .done) := by
      simp only [seatEnableAction, range, value, some_]
      rfl
    rw [action]
    generalize List.range' base count = ns at *
    have claim : s.ClaimFrame (s.event (Claim.enableSeats v ns)) := by
      refine State.event_claim s _ ?_
      exact Claim.foldl_claim _ (fun c n h => Claim.setEnabled_claim h v n) ns (.refl s)
    have seat (n : Nat) : (Claim.enableSeats v ns (.start s)).st.seat n =
        if n ∈ ns then { s.seat n with enabled := v } else s.seat n := Claim.setEnabledAll_seat (c := (Claim.start s).fillPoint) known n
    have shows_ : (Claim.enableSeats v ns (.start s)).Shows
        ((if v then [] else ns.filter fun n => (s.seat n).enabled).foldl (fun x n => x.seatRemoved n 10) s) :=
      (Claim.Shows.start s).fillPoint.setEnabledAll (v := v) known once
    have fill : (Claim.enableSeats v ns (.start s)).fillDue = true := Claim.setEnabledAll_fillDue rfl
    have took : (Claim.enableSeats v ns (.start s)).tookEntry = false := Claim.setEnabledAll_tookEntry
    refine ⟨s.event (Claim.enableSeats v ns), rfl, fun n hb hn => ?_, fun n outside => ?_, claim, ?_, fun n hb hn off on one => ?_⟩
    · unfold SeatRecord.sameButFloor
      rw [State.event_seat_granted, seat, if_pos ((inside n).mpr ⟨hb, hn⟩)]
    · have notIn : n ∉ ns := fun h => by
        obtain ⟨hb, hn⟩ := (inside n).mp h
        omega
      unfold SeatRecord.sameButFloor
      rw [State.event_seat_granted, seat, if_neg notIn]
    · rw [← State.versionDue_shows shows_ took]
      refine State.event_settles shows_ (fun _ => fill) (fun _ => .inl fill) ?_
      refine State.firstPresentReply_congr (congrArg Floor.replies shows_.floor) fun n => ?_
      have seats (l : List Nat) (x : State) : (l.foldl (fun x n => x.seatRemoved n 10) x).seats = x.seats := by
        induction l generalizing x with
        | nil => rfl
        | cons k l ih => rw [List.foldl_cons, ih, State.seatRemoved_seats]
      unfold State.isHere
      rw [seat]
      unfold State.seat
      rw [seats]
      split <;> rfl
    · exact Floor.Lacks.idle (State.event_lacks
        (Claim.setEnabledAll_lacks (c := (Claim.start s).fillPoint) known once ((inside n).mpr ⟨hb, hn⟩) off on one))

end Sys2Proof.Machine
end

section
/-! SUPPORT. SEAT BIND (R4, R5). -/

namespace Sys2Proof.Machine

namespace State

/-! ### One image settled -/

theorem settleImage_seat_self (s : State) {n : Nat} (known : (seatIndex n).isSome) :
    (s.settleImage n).seat n = { s.seat n with image := s.image n } := by
  have marked (t : State) (label : Bool) : (t.markSeat n label).seat n = t.seat n := by
    unfold seat
    rw [markSeat_seats]
  unfold settleImage
  split
  · next same => rw [same]
  · dsimp only
    split
    · exact seat_modSeat_self s known _
    · rw [marked, seat_modSeat_self s known]

theorem settleImage_seat_ne (s : State) {n m : Nat} (other : m ≠ n) : (s.settleImage n).seat m = s.seat m := by
  have marked (t : State) (label : Bool) : (t.markSeat n label).seat m = t.seat m := by
    unfold seat
    rw [markSeat_seats]
  unfold settleImage
  split
  · rfl
  · dsimp only
    split
    · exact seat_modSeat_ne s other _
    · rw [marked, seat_modSeat_ne s other]

/-- A changed image marks the position of a seat that is not ABSENT (R19). -/
theorem settleImage_trunk (s : State) {n : Nat} (known : (seatIndex n).isSome) {b : Binding} (hb : (s.seat n).binding = some b)
    (i : TrunkNo) : (s.settleImage n).trunk i =
      if i = b.trunk ∧ s.image n ≠ (s.seat n).image ∧ (s.seat n).presence ≠ .absent then (s.trunk i).mark b.position false
      else s.trunk i := by
  unfold settleImage
  split
  · next same => rw [if_neg fun h => h.2.1 same]
  · next changed =>
    dsimp only
    have kept : (s.modSeat n fun r => { r with image := s.image n }).trunk i = s.trunk i :=
      congrArg (fun v : Vector TrunkEngine 4 => v[i]) (modSeat_trunks s n _)
    split
    · next absent => rw [kept, if_neg fun h => h.2.2 absent]
    · next here =>
      unfold markSeat
      rw [seat_modSeat_self s known]
      dsimp only
      rw [hb]
      dsimp only
      by_cases own : i = b.trunk
      · subst own
        rw [trunk_modTrunk_self, kept, if_pos ⟨rfl, changed, here⟩]
      · rw [trunk_modTrunk_ne _ own, kept, if_neg fun h => own h.1]

/-- An event in which nothing is due and one image may have changed. -/
theorem event_of_touch {s : State} {body : Claim → Claim} {c : Claim} {n : Nat} (hb : body (.start s) = c.touch n)
    (due : (Claim.start s).SameDue c) (requests : c.floor.requests = s.floor.requests) (took : c.tookEntry = false)
    (touched : c.touched = []) : s.event body = c.st.settleImage n := by
  have same : ¬ (s.floor.requests ≠ (c.touch n).floor.requests ∨ (c.touch n).tookEntry = true) := by
    rw [Claim.touch_floor, Claim.touch_tookEntry, took, requests]
    simp
  unfold event
  rw [hb, Claim.settleFloor_noDue _ ((Claim.touch_fillDue c n).trans due.fill) ((Claim.touch_serveDue c n).trans due.serve)]
  unfold Claim.close
  dsimp only
  rw [if_neg same, Claim.touch_st]
  unfold Claim.touch
  by_cases still : c.st.image n = (c.st.seat n).image
  · rw [if_pos (.inl still), touched]
    unfold settleImage
    rw [if_pos still]
    rfl
  · rw [if_neg (by rw [touched]; simpa using still), touched]
    rfl

end State

/-- A mark again without the label flag. -/
theorem TrunkEngine.mark_mark_false (e : TrunkEngine) (p : Nat) (label : Bool) : (e.mark p label).mark p false = e.mark p label := by
  cases takes : e.takesMark p with
  | false => rw [mark_untaken takes, mark_untaken takes]
  | true =>
    have still : (e.mark p label).takesMark p = true := by
      rw [mark_rest]
      exact takes
    obtain ⟨x, hx, position, -⟩ := mark_entered e p label takes
    have same := mark_again still false ⟨x, hx, position⟩
    have none_ : ((e.mark p label).pending.map fun x => if x.position = p then { x with label := x.label || false } else x) =
        (e.mark p label).pending := by
      refine (List.map_congr_left fun y _ => ?_).trans (List.map_id _)
      split
      · rw [Bool.or_false]
        rfl
      · rfl
    rw [none_] at same
    rw [mark_rest, same]

namespace Claim

/-! ### The claim of a binding (R5) -/

section Bind

variable {c : Claim} {n : Nat} {b : Binding} (known : (seatIndex n).isSome)

/-- The seat bound to its new pair. -/
def bound (c : Claim) (n : Nat) (b : Binding) : Claim := (c.releasePair n).modSeat n fun r =>
  { r with binding := some b, kind := none, presence := (c.st.trunk b.trunk).presenceAtBind, image := .dark }

/-- The new position marked, where its trunk reaches it. -/
def boundMarked (c : Claim) (n : Nat) (b : Binding) : Claim :=
  if (c.st.trunk b.trunk).marksBind b.position then
    (c.bound n b).modTrunk b.trunk (·.mark b.position ((c.bound n b).st.seat n).label.isSome)
  else c.bound n b

theorem bind_eq : c.bind n b = (c.boundMarked n b).touch n := rfl

include known in
theorem bound_seat : (c.bound n b).st.seat n = { c.st.seat n with
    binding := some b, kind := none, presence := (c.st.trunk b.trunk).presenceAtBind, image := .dark } := by
  have last : (c.bound n b).st.seat n = { (c.releasePair n).st.seat n with
      binding := some b, kind := none, presence := (c.st.trunk b.trunk).presenceAtBind, image := .dark } :=
    State.seat_modSeat_self _ known _
  rw [last, releasePair_seat c known]

theorem bound_seat_ne {m : Nat} (other : m ≠ n) : (c.bound n b).st.seat m = c.st.seat m :=
  (State.seat_modSeat_ne _ other _).trans (releasePair_seat_ne c other)

/-- A change of a trunk leaves the seats. -/
theorem boundMarked_seats : (c.boundMarked n b).st.seats = (c.bound n b).st.seats := by
  unfold boundMarked
  split <;> rfl

theorem releasePair_rest (c : Claim) (n : Nat) : (c.releasePair n).floor = c.floor ∧ (c.releasePair n).st.report = c.st.report ∧
    (c.releasePair n).touched = c.touched ∧ c.SameDue (c.releasePair n) := by
  unfold releasePair
  split
  · exact ⟨rfl, rfl, rfl, .refl c⟩
  · exact ⟨State.modSeat_floor _ _ _, State.modSeat_report _ _ _, rfl, rfl, rfl⟩

theorem boundMarked_rest : (c.boundMarked n b).floor = c.floor ∧ (c.boundMarked n b).st.report = c.st.report ∧
    (c.boundMarked n b).touched = c.touched ∧ c.SameDue (c.boundMarked n b) ∧ (c.boundMarked n b).tookEntry = c.tookEntry := by
  obtain ⟨floor, report, touched, due⟩ := c.releasePair_rest n
  have took := c.releasePair_tookEntry n
  have one : (c.bound n b).floor = c.floor ∧ (c.bound n b).st.report = c.st.report ∧
      (c.bound n b).touched = c.touched ∧ c.SameDue (c.bound n b) ∧ (c.bound n b).tookEntry = c.tookEntry :=
    ⟨(State.modSeat_floor _ _ _).trans floor, (State.modSeat_report _ _ _).trans report, touched, ⟨due.fill, due.serve⟩, took⟩
  unfold boundMarked
  split
  · exact ⟨one.1, one.2.1, one.2.2.1, ⟨one.2.2.2.1.fill, one.2.2.2.1.serve⟩, one.2.2.2.2⟩
  · exact one

theorem bound_trunk (i : TrunkNo) : (c.bound n b).st.trunk i = (c.releasePair n).st.trunk i := modSeat_trunk _ _ _ _

theorem boundMarked_trunk (i : TrunkNo) : (c.boundMarked n b).st.trunk i =
    if (c.st.trunk b.trunk).marksBind b.position = true ∧ i = b.trunk then
      ((c.releasePair n).st.trunk i).mark b.position ((c.bound n b).st.seat n).label.isSome
    else (c.releasePair n).st.trunk i := by
  unfold boundMarked
  by_cases marks : (c.st.trunk b.trunk).marksBind b.position = true
  · rw [if_pos marks]
    by_cases own : i = b.trunk
    · subst own
      rw [if_pos ⟨marks, rfl⟩, ← bound_trunk (b := b)]
      exact State.trunk_modTrunk_self _ _ _
    · rw [if_neg fun h => own h.2, ← bound_trunk (b := b)]
      exact State.trunk_modTrunk_ne _ own _
  · rw [if_neg marks, if_neg fun h => marks h.1]
    exact bound_trunk i

end Bind

end Claim

/-- The event of a binding is the claim and the seat's image. -/
theorem bind_event (s : State) (n : Nat) (b : Binding) : s.event (·.bind n b) = ((Claim.start s).boundMarked n b).st.settleImage n := by
  obtain ⟨floor, -, touched, due, took⟩ := Claim.boundMarked_rest (c := .start s) (n := n) (b := b)
  exact State.event_of_touch (c := (Claim.start s).boundMarked n b) rfl due (congrArg Floor.requests floor) took touched

/-! ### Another class of the pair a seat holds (R5) -/

/-- The seat with another class of its pair. -/
def State.reclassed (s : State) (n : Nat) (b : Binding) : State := s.modSeat n fun r => { r with binding := some b }

section Reclass

variable {s : State} {n : Nat} {b : Binding} (known : (seatIndex n).isSome)

/-- The event of another class is the seat's image. -/
theorem reclass_event : (s.event fun c => (c.modSeat n fun r => { r with binding := some b }).touch n) =
    (s.reclassed n b).settleImage n :=
  State.event_of_touch (c := (Claim.start s).modSeat n fun r => { r with binding := some b }) rfl ⟨rfl, rfl⟩
    (congrArg Floor.requests (State.modSeat_floor _ _ _)) rfl rfl

include known in
/-- The image of a bound seat does not rest on its pair or class. -/
theorem reclassed_image (bound : (s.seat n).binding ≠ none) : (s.reclassed n b).image n = s.image n := by
  have seat : (s.reclassed n b).seat n = { s.seat n with binding := some b } := State.seat_modSeat_self s known _
  have floor : (s.reclassed n b).floor = s.floor := State.modSeat_floor _ _ _
  have time : (s.reclassed n b).time = s.time := congrArg TimeBase.chamberTime (State.modSeat_timeBase _ _ _)
  have presence (m : Nat) : ((s.reclassed n b).seat m).presence = (s.seat m).presence := by
    by_cases own : m = n
    · rw [own, seat]
    · exact congrArg SeatRecord.presence (State.seat_modSeat_ne s own _)
  have isBound : (s.seat n).binding.isNone = false := by
    cases h : (s.seat n).binding with
    | none => exact absurd h bound
    | some d => rfl
  unfold State.image
  dsimp only
  rw [State.firstPresent_congr floor presence, floor, time, seat, isBound]
  rfl

end Reclass

/-! ### The event of a new pair (R5) -/

section BindEvent

variable {s : State} {n : Nat} {b : Binding} (known : (seatIndex n).isSome)

include known in
theorem bind_event_seat : (s.event (·.bind n b)).seat n = { s.seat n with
    binding := some b, kind := none, presence := (s.trunk b.trunk).presenceAtBind, image := ((s.event (·.bind n b)).seat n).image } := by
  have seat : ((Claim.start s).boundMarked n b).st.seat n = ((Claim.start s).bound n b).st.seat n := by
    unfold State.seat
    rw [Claim.boundMarked_seats]
  rw [bind_event, State.settleImage_seat_self _ known, seat, Claim.bound_seat known]

theorem bind_event_seat_ne {m : Nat} (other : m ≠ n) : (s.event (·.bind n b)).seat m = s.seat m := by
  have seat : ((Claim.start s).boundMarked n b).st.seat m = ((Claim.start s).bound n b).st.seat m := by
    unfold State.seat
    rw [Claim.boundMarked_seats]
  rw [bind_event, State.settleImage_seat_ne _ other, seat, Claim.bound_seat_ne other]

theorem bind_event_claim (s : State) (n : Nat) (b : Binding) : s.ClaimFrame (s.event (·.bind n b)) := by
  refine State.event_claim s (·.bind n b) ?_
  exact Claim.bind_claim (c := .start s) (.refl s) n b

theorem bind_event_rest (s : State) (n : Nat) (b : Binding) :
    (s.event (·.bind n b)).floor = s.floor ∧ (s.event (·.bind n b)).report = s.report := by
  obtain ⟨floor, report, -⟩ := Claim.boundMarked_rest (c := .start s) (n := n) (b := b)
  rw [bind_event, State.settleImage_floor, State.settleImage_report]
  exact ⟨floor, report⟩

/-- The release of a pair leaves a trunk all but its pending updates. -/
theorem Claim.releasePair_trunk (c : Claim) (n : Nat) (i : TrunkNo) :
    (c.releasePair n).st.trunk i = { c.st.trunk i with pending := ((c.releasePair n).st.trunk i).pending } := by
  unfold Claim.releasePair
  split
  · rfl
  · next d _ =>
    rw [Claim.modSeat_trunk]
    exact (State.FloorFrame.markTrunk c.st d.trunk d.position true).trunks i

include known in
/-- The new position is marked where its trunk reaches it (R5, R146). -/
theorem bind_event_marked (first : 1 ≤ b.position) (marks : (s.trunk b.trunk).marksBind b.position = true) :
    (∃ x ∈ ((s.event (·.bind n b)).trunk b.trunk).pending, x.position = b.position ∧ ((s.seat n).label ≠ none → x.label = true)) ∧
      ((s.seat n).binding = none →
        (s.event (·.bind n b)).trunk b.trunk = (s.trunk b.trunk).mark b.position (s.seat n).label.isSome) := by
  have label : (((Claim.start s).bound n b).st.seat n).label = (s.seat n).label := by rw [Claim.bound_seat known]
  have trunk : ((Claim.start s).boundMarked n b).st.trunk b.trunk =
      (((Claim.start s).releasePair n).st.trunk b.trunk).mark b.position (s.seat n).label.isSome := by
    rw [Claim.boundMarked_trunk, if_pos ⟨marks, rfl⟩, label]
  refine ⟨?_, fun unbound => ?_⟩
  · have takes : (((Claim.start s).releasePair n).st.trunk b.trunk).takesMark b.position = true := by
      rw [Claim.releasePair_trunk]
      have both : ((s.trunk b.trunk).state = .running ∨ (s.trunk b.trunk).state = .fault) ∧ b.position ≤ (s.trunk b.trunk).found := by
        simpa [TrunkEngine.marksBind] using marks
      unfold TrunkEngine.takesMark
      rcases both with ⟨state | state, reach⟩ <;> simp [state, first, reach]
    obtain ⟨x, hx, position, flag⟩ := TrunkEngine.mark_entered _ b.position (s.seat n).label.isSome takes
    obtain ⟨y, hy, same, kept⟩ := (State.FloorFrame.settleImage ((Claim.start s).boundMarked n b).st n).marksKept b.trunk x
      (by rw [trunk]; exact hx)
    rw [bind_event]
    exact ⟨y, hy, same.trans position, fun some_ => kept (flag (Option.isSome_iff_ne_none.mpr some_))⟩
  · have released : (Claim.start s).releasePair n = .start s := by
      unfold Claim.releasePair
      rw [show ((Claim.start s).st.seat n).binding = none from unbound]
    have bound : (((Claim.start s).boundMarked n b).st.seat n).binding = some b := by
      unfold State.seat
      rw [Claim.boundMarked_seats]
      exact congrArg SeatRecord.binding (Claim.bound_seat known)
    rw [bind_event, State.settleImage_trunk _ known bound, trunk, released]
    split
    · exact TrunkEngine.mark_mark_false _ _ _
    · rfl

/-- The position the seat leaves is marked with the label flag (R146). -/
theorem bind_event_released {d : Binding} (hd : (s.seat n).binding = some d) (takes : (s.trunk d.trunk).takesMark d.position = true) :
    ∃ x ∈ ((s.event (·.bind n b)).trunk d.trunk).pending, x.position = d.position ∧ x.label = true := by
  obtain ⟨x, hx, position, label⟩ := Claim.releasePair_marked (c := .start s) hd takes
  have still : ∃ y ∈ (((Claim.start s).boundMarked n b).st.trunk d.trunk).pending, y.position = d.position ∧ y.label = true := by
    rw [Claim.boundMarked_trunk]
    split
    · obtain ⟨y, hy, same, kept⟩ := TrunkEngine.mark_kept _ b.position (((Claim.start s).bound n b).st.seat n).label.isSome hx
      exact ⟨y, hy, same.trans position, kept label⟩
    · exact ⟨x, hx, position, label⟩
  obtain ⟨y, hy, position, label⟩ := still
  obtain ⟨z, hz, same, kept⟩ := (State.FloorFrame.settleImage ((Claim.start s).boundMarked n b).st n).marksKept d.trunk y hy
  rw [bind_event]
  exact ⟨z, hz, same.trans position, kept label⟩

end BindEvent

/-! ### SEAT BIND -/

/-- SEAT BIND of numbers outside their ranges. -/
theorem seatBindAction_range {p : List Byte} (bad : u16 p 0 < 1 ∨ 480 < u16 p 0 ∨ 3 < u8 p 2 ∨ u8 p 3 < 1 ∨ 120 < u8 p 3) (s : State) :
    seatBindAction p s = (s, .of .range) := by
  have refused : (!seatOk (u16 p 0)) = true ∨ 3 < u8 p 2 ∨ u8 p 3 < 1 ∨ Config.positions < u8 p 3 := by
    rcases bad with low | high | rest
    · exact .inl (seatOk_outside (.inl low))
    · exact .inl (seatOk_outside (.inr high))
    · exact .inr rest
  exact if_pos refused

section BindAction

variable {p : List Byte} {n : Nat} {tr : TrunkNo} {q : Nat} (hn : u16 p 0 = n) (low : 1 ≤ n) (high : n ≤ 480) (ht : u8 p 2 = tr)
  (hq : u8 p 3 = q) (first : 1 ≤ q) (last : q ≤ 120)

include hn low high ht hq first last

/-- SEAT BIND of numbers within their ranges goes by the class. -/
theorem seatBindAction_eq (s : State) : seatBindAction p s = match ofCode classRow (u8 p 4) with
    | none => (s, .of .badArg)
    | some k =>
      if (s.seat n).binding.isSome ∧ s.floorState n ≠ .idle then (s, .of .seatBusy)
      else if (s.seatAt tr q).any (· ≠ n) then (s, .of .seatBusy)
      else if (s.seat n).binding = some ⟨tr, q, k⟩ then (s, .of .unchanged)
      else if (s.seat n).binding.any fun o => o.trunk = tr ∧ o.position = q then
        (s.event fun c => (c.modSeat n fun r => { r with binding := some ⟨tr, q, k⟩ }).touch n, .of .done)
      else (s.event (·.bind n ⟨tr, q, k⟩), .of .done) := by
  have four : u8 p 2 < 4 := ht ▸ tr.isLt
  obtain rfl : tr = ⟨u8 p 2, four⟩ := Fin.ext ht.symm
  have fine : ¬ ((!seatOk (u16 p 0)) = true ∨ 3 < u8 p 2 ∨ u8 p 3 < 1 ∨ Config.positions < u8 p 3) := by
    rintro (bad | trunk | few | many)
    · rw [hn] at bad
      exact seatOk_inside low high bad
    · omega
    · omega
    · rw [hq] at many
      exact absurd many (Nat.not_lt.mpr last)
  unfold seatBindAction
  dsimp only
  rw [if_neg fine, dif_pos four, hn, hq]
  rfl

end BindAction

/-- Settles O23: by the checks in order, the pair the seat holds, and the claim of a new pair. -/
theorem seatBind : Obligations.SeatBind := by
  unfold Obligations.SeatBind
  intro s l c hc
  have acts : exec (.seatBind l) s = .next ((seatBindAction c.payload s).1.answer l c (seatBindAction c.payload s).2) :=
    congrArg _ (hc.acts seatBindAction)
  rw [acts]
  refine ⟨fun bad => by rw [seatBindAction_range bad], fun n tr p hn low high ht hp first last => ?_⟩
  rw [seatBindAction_eq hn low high ht hp first last]
  have known : (seatIndex n).isSome := seatIndex_isSome low high
  have open_ : s.seatAt tr p = none ∨ s.seatAt tr p = some n → ¬ ((s.seatAt tr p).any (· ≠ n)) = true := by
    rintro (none_ | own)
    · simp [none_]
    · simp [own]
  refine ⟨fun bad => ?_, fun k hk => ⟨fun bound busy => ?_, fun free => ⟨fun m at_ other => ?_, fun at_ same => ?_,
    fun k' at_ same other => ?_, fun none_ elsewhere => ?_⟩⟩⟩
  · rw [show ofCode classRow (u8 c.payload 4) = none from ofCode_beyond bad]
  all_goals
    rw [show ofCode classRow (u8 c.payload 4) = some k from hk]
    dsimp only
  · rw [if_pos ⟨Option.isSome_iff_ne_none.mpr bound, busy⟩]
  all_goals
    have notBusy : ¬ ((s.seat n).binding.isSome = true ∧ s.floorState n ≠ .idle) := fun ⟨bound, busy⟩ =>
      free.elim (fun none_ => by simp [none_] at bound) busy
    rw [if_neg notBusy]
  · rw [if_pos (by rw [at_]; simpa using other)]
  · rw [if_neg (open_ at_), if_pos same]
  · have differs : ¬ (s.seat n).binding = some ⟨tr, p, k⟩ := by
      rw [same]
      simpa using other
    have pair : ((s.seat n).binding.any fun o => o.trunk = tr ∧ o.position = p) = true := by
      rw [same]
      simp
    rw [if_neg (open_ at_), if_neg differs, if_pos pair, reclass_event]
    have bound : (s.seat n).binding ≠ none := by rw [same]; simp
    have seat : (s.reclassed n ⟨tr, p, k⟩).seat n = { s.seat n with binding := some ⟨tr, p, k⟩ } := State.seat_modSeat_self s known _
    refine ⟨_, rfl, ?_, fun m different => ?_, ?_, ?_, ?_, fun i => ?_⟩
    · rw [State.settleImage_seat_self _ known, seat, reclassed_image known bound]
    · exact (State.settleImage_seat_ne _ different).trans (State.seat_modSeat_ne s different _)
    · exact (State.settleImage_floor _ _).trans (State.modSeat_floor _ _ _)
    · exact (State.settleImage_report _ _).trans (State.modSeat_report _ _ _)
    · exact (State.ClaimFrame.modSeat s n _).trans (.ofFloor (State.FloorFrame.settleImage _ n))
    · rw [State.settleImage_trunk _ known (b := ⟨tr, p, k⟩) (by rw [seat]), reclassed_image known bound, seat]
      have trunk : (s.reclassed n ⟨tr, p, k⟩).trunk i = s.trunk i := Claim.modSeat_trunk (.start s) n _ i
      rw [trunk]
  · have differs : ¬ (s.seat n).binding = some ⟨tr, p, k⟩ := fun same => elsewhere _ same ⟨rfl, rfl⟩
    have pair : ¬ ((s.seat n).binding.any fun o => o.trunk = tr ∧ o.position = p) = true := by
      rw [Option.any_eq_true]
      exact fun ⟨b, hb, own⟩ => elsewhere b hb (of_decide_eq_true own)
    rw [if_neg (open_ (.inl none_)), if_neg differs, if_neg pair]
    refine ⟨_, rfl, ?_, fun m different => bind_event_seat_ne different, (bind_event_rest s n _).1, (bind_event_rest s n _).2, ?_,
      fun running reaches => bind_event_marked known first (by simp [TrunkEngine.marksBind, running, reaches]),
      fun b hb takes => bind_event_released hb takes⟩
    · rw [bind_event_seat known]
      have presence : (s.trunk tr).presenceAtBind = if (s.trunk tr).state = .down then .absent else .unconfirmed := by
        unfold TrunkEngine.presenceAtBind
        cases (s.trunk tr).state <;> rfl
      rw [presence]
    · exact bind_event_claim s n _

end Sys2Proof.Machine
end

section
/-! SUPPORT. An intake that takes one record with one press (R26 to R31): the press is applied, the fill point follows, and a press
that is refused leaves its notice and its display (R18, R30). -/

namespace Sys2Proof.Machine

/-! ### A batch of one record -/

/-- A batch of one record is in order, and draws nothing (R27, R28). -/
theorem orderBatch_one (now : ChamberTime) (p : Policy) (w : Word) (r : CaptureRecord) : orderBatch now p w [r] = ([r], w) := by
  unfold orderBatch
  cases p.tieOrder with
  | seat => rfl
  | draw => simp [bySeat, sortBy, insertBy, drawBatch, drawGroup, distinct, drawOrder, drawFrom]

/-- The claim of an intake that has taken its records, without the draws (R26). -/
def Claim.drained (s : State) : Claim := (Claim.start { s with due := { s.due with intake := s.due.intake - 1 } }).lift fun x =>
  { x with trunks := x.trunks.map fun e => { e with fifo := e.fifo.filter fun r => !reached s.time (r.stamp + 1) } }

/-- The state whose event an intake is: one intake fewer is due. -/
def State.intakeTaken (s : State) : State := { s with due := { s.due with intake := s.due.intake - 1 } }

/-- Taking the records changes nothing of the floor and of the reports. -/
theorem Claim.Shows.drained (s : State) : (Claim.drained s).Shows s := ⟨rfl, rfl, rfl⟩

/-- Taking the records changes no seat. -/
theorem Claim.drained_seats (s : State) : (Claim.drained s).st.seats = s.seats := rfl

/-- A seat of the claim. -/
theorem Claim.drained_seat (s : State) (n : Nat) : (Claim.drained s).st.seat n = s.seat n := rfl

/-- An intake that is not held is an event. -/
theorem exec_intake {s : State} (due : 0 < s.due.intake) (high : s.pins.hold = false) (hold : s.floor.hold = .released) :
    exec .intake s = .next (s.intakeTaken.event Claim.intake) := by
  show execIntake s = _
  unfold execIntake
  have free : State.intakeHeld { s with due := { s.due with intake := s.due.intake - 1 } } = false := by
    simp [State.intakeHeld, high, hold]
  rw [if_pos due]
  dsimp only
  rw [free]
  rfl

/-- The batch of a record whose seat is bound where it was and present has the record. -/
theorem strayNotice_none {s : State} {r : CaptureRecord} (bound : s.seatAt r.trunk r.position = some r.seat)
    (here : s.isHere r.seat = true) : s.strayNotice r = none := by
  unfold State.strayNotice
  rw [if_neg (not_not.mpr bound), if_pos here]

/-- A batch of one record: its presses, and the fill point. -/
theorem intake_one {s : State} {r : CaptureRecord} (taken : s.taken = [r]) (bound : s.seatAt r.trunk r.position = some r.seat)
    (here : s.isHere r.seat = true) :
    (Claim.start s.intakeTaken).intake = ((Claim.drained s).applyRecord r).fillPoint := by
  have taken : ((Claim.start s.intakeTaken).st.trunks.toList.flatMap fun e =>
      e.fifo.filter (·.qualifies (Claim.start s.intakeTaken).time)) = [r] := taken
  have kept : (Claim.start s.intakeTaken).st.strayNotice r = none := strayNotice_none (s := s.intakeTaken) bound here
  unfold Claim.intake
  dsimp only
  rw [taken]
  simp only [List.filterMap_cons, kept, List.filterMap_nil, List.foldl_nil, List.filter_cons, List.filter_nil, Option.isNone_none,
    if_true, orderBatch_one]
  rfl

/-! ### An intake with one press -/

section OnePress

variable {s : State} {r : CaptureRecord} {b : Button} (one : s.OnePress r b)

/-- The body of an intake with one press. -/
def Claim.pressed (s : State) (r : CaptureRecord) (b : Button) : Claim := ((Claim.drained s).press r.seat r.stamp b).fillPoint

/-- The end of an intake with one press. -/
def State.afterPress (s : State) (r : CaptureRecord) (b : Button) : State := s.intakeTaken.event fun _ => Claim.pressed s r b

include one in
/-- An intake with one press. -/
theorem exec_onePress : exec .intake s = .next (s.afterPress r b) := by
  rw [exec_intake one.due one.high one.hold]
  unfold State.afterPress State.event
  rw [intake_one one.taken one.bound one.here]
  unfold Claim.applyRecord Claim.pressed
  rw [one.press]
  rfl

/-- The body of an intake with one press leaves the presence of the seats. -/
theorem pressed_isHere (n : Nat) : (Claim.pressed s r b).st.isHere n = s.isHere n :=
  Claim.isHere_of_frame (s := (Claim.drained s).st)
    (Claim.fillPoint_frame (Claim.press_frame (.refl _) r.seat r.stamp b)) n

/-- What one press shows, and with the version counted what the intake ends in. -/
theorem onePress_counted {x : State} (h : ((Claim.drained s).press r.seat r.stamp b).Shows x) (seats : x.seats = s.seats) :
    (x.counted (s.versionDue ((Claim.drained s).press r.seat r.stamp b))).Settles (s.afterPress r b) := by
  refine State.event_settles (s := s.intakeTaken) (body := fun _ => Claim.pressed s r b) h.fillPoint (fun _ => rfl)
    (fun _ => .inl rfl) ?_
  refine State.firstPresentReply_congr (congrArg Floor.replies h.floor) fun n => (pressed_isHere n).trans ?_
  unfold State.isHere State.seat
  rw [seats]

/-- The same for a press that leaves the request list. -/
theorem onePress_settles {x : State} (h : ((Claim.drained s).press r.seat r.stamp b).Shows x) (seats : x.seats = s.seats)
    (requests : x.floor.requests = s.floor.requests) (took : ((Claim.drained s).press r.seat r.stamp b).tookEntry = false) :
    x.Settles (s.afterPress r b) := by
  have settles := onePress_counted h seats
  rw [State.versionDue_kept h requests took] at settles
  exact settles

/-- A refused press sets the refusal display where it is shown (R18, R30). -/
theorem Claim.refuse_refusalUntil (c : Claim) {n : Nat} (known : (seatIndex n).isSome) (b : Button) (why : PressRefusal) :
    ((c.refuse n b why).st.seat n).refusalUntil =
      if c.policy.refuseShow = 0 then (c.st.seat n).refusalUntil else some (after c.time c.policy.refuseShow) := by
  unfold Claim.refuse
  dsimp only
  split
  · rfl
  · rw [Claim.touch_st]
    exact congrArg SeatRecord.refusalUntil (State.seat_modSeat_self _ known _)

include one in
/-- An intake with one press that is refused (R30). -/
theorem onePress_refuses {why : PressRefusal}
    (refused : (Claim.drained s).press r.seat r.stamp b = (Claim.drained s).refuse r.seat b why) :
    s.Refuses (s.afterPress r b) r.seat b why where
  settles := onePress_settles (by rw [refused]; exact (Claim.Shows.drained s).refuse _ _ _) rfl rfl
    (by rw [refused, Claim.refuse_tookEntry]; rfl)
  display := by
    have seat := State.event_seat_granted s.intakeTaken (fun _ => Claim.pressed s r b) r.seat
    refine (congrArg SeatRecord.refusalUntil seat).trans ?_
    show ((Claim.pressed s r b).st.seat r.seat).refusalUntil = _
    unfold Claim.pressed
    rw [refused]
    exact (Claim.drained s).refuse_refusalUntil (seatIndex_of_isHere one.here) b why

/-- The button's own rule (R32, R33, R59 to R63, R89, R102). -/
def Claim.buttonRule (c : Claim) (n : Nat) (stamp : ChamberTime) : Button → Claim
  | .req => c.pressReq n stamp
  | .rpl => c.pressRpl n stamp
  | .mic => c.pressMic n
  | .cut => c.pressCut n
  | .next => c.pressNext n
  | .prio => c.pressPrio n

/-- A press of a seat whose class has the button and that is enabled goes by the button's own rule (R30, R59). -/
theorem Claim.press_eq {c : Claim} {n : Nat} {b : Button} (may : c.st.mayPress n b) (stamp : ChamberTime) :
    c.press n stamp b = c.buttonRule n stamp b := by
  obtain ⟨⟨x, bound, has⟩, enabled⟩ := may
  have cls : ¬ (!((c.st.seat n).binding.any fun x => x.cls.hasButton b)) = true := by simp [bound, has]
  have on : ¬ (!(c.st.seat n).enabled) = true := by simp [enabled]
  unfold Claim.press
  dsimp only
  rw [if_neg cls, if_neg on]
  cases b <;> rfl

/-- The close of a slot by one press, with what follows. -/
theorem onePress_closes {i : Fin 6} {d : DelegateSlot} (hd : s.floor.slots[i] = some d) {why : Reason}
    (closes : (Claim.drained s).press r.seat r.stamp b = (Claim.drained s).closeSlot i why) :
    (s.slotClosed i d (codeIn reasonRow why)).Settles (s.afterPress r b) :=
  onePress_settles (by rw [closes]; exact (Claim.Shows.drained s).closeSlot hd why) (by rw [State.slotClosed_rest])
    (State.slotClosed_requests _ _ _ _) (by rw [closes, Claim.closeSlot_tookEntry]; rfl)

end OnePress

end Sys2Proof.Machine
end

section
/-! SUPPORT. CLOSE SEAT and CLOSE ALL (R56, R57) and the CUT press (R62). -/

namespace Sys2Proof.Machine

/-! ### Slots found by their age or by their kind are open -/

/-- The oldest SPEAK slot is open. -/
theorem Floor.slots_of_oldestSpeak {f : Floor} {now : ChamberTime} {i : Fin 6} {d : DelegateSlot} (h : f.oldestSpeak now = some (i, d)) :
    f.slots[i] = some d ∧ d.kind = .speak :=
  ⟨Floor.mem_slotsByAge.mp (List.mem_of_find?_eq_some h), by simpa using List.find?_some h⟩

/-- The slot of the seat that the waiting entries name is open. -/
theorem Floor.slots_of_targetSlot {f : Floor} {i : Fin 6} {d : DelegateSlot} (h : f.targetSlot = some (i, d)) :
    f.slots[i] = some d ∧ d.kind = .speak := by
  obtain ⟨e, -, found⟩ := Option.bind_eq_some_iff.mp h
  have kind := List.find?_some found
  simp only [decide_eq_true_eq] at kind
  exact ⟨Floor.mem_openSlots.mp (List.mem_of_find?_eq_some found), kind.1⟩

/-- The principal's slot is open. -/
theorem Floor.slots_of_principal {f : Floor} {now : ChamberTime} {i : Fin 6} {d : DelegateSlot} (h : f.principal now = some (i, d)) :
    f.slots[i] = some d ∧ d.kind = .speak := by
  unfold Floor.principal at h
  cases hp : f.phase with
  | halted | interrupted => rw [hp] at h; cases h
  | replyRound => rw [hp] at h; exact slots_of_oldestSpeak h
  | openFloor =>
    simp only [hp] at h
    cases ht : f.targetSlot with
    | none =>
      rw [ht] at h
      exact slots_of_oldestSpeak h
    | some t =>
      rw [ht] at h
      exact slots_of_targetSlot (ht.trans h)

/-- The REPLY slot is open. -/
theorem Floor.slots_of_replySlot {f : Floor} {i : Fin 6} {d : DelegateSlot} (h : f.replySlot = some (i, d)) : f.slots[i] = some d :=
  Floor.mem_openSlots.mp (List.mem_of_find?_eq_some h)

/-! ### One slot closed -/

/-- The event of the close of a slot (R53). -/
theorem closeSlot_settles {s : State} {i : Fin 6} {d : DelegateSlot} (hd : s.floor.slots[i] = some d) (why : Reason) :
    (s.slotClosed i d (codeIn reasonRow why)).Settles (s.event (·.closeSlot i why)) := by
  have closed := (Claim.Shows.start s).closeSlot hd why
  have due : ((Claim.start s).closeSlot i why).fillDue = true := Claim.closeSlot_fillPoint hd why
  have here : ((Claim.start s).closeSlot i why).st.firstPresentReply = (s.slotClosed i d (codeIn reasonRow why)).firstPresentReply := by
    refine State.firstPresentReply_congr (congrArg Floor.replies closed.floor) fun n => ?_
    rw [Claim.isHere_of_frame (Claim.closeSlot_frame (c := .start s) (.refl s) i why), State.slotClosed_rest]
    rfl
  have settles := State.event_settles (body := fun x => x.closeSlot i why) closed (fun _ => due) (fun _ => .inl due) here
  rw [State.versionDue_kept closed (State.slotClosed_requests _ _ _ _) (Claim.closeSlot_tookEntry _ _ _)] at settles
  exact settles

/-- On an OPEN floor under MANUAL what an event showed is what it leaves. -/
theorem State.Settles.manual {x t : State} (h : x.Settles t) (open_ : x.floor.phase = .openFloor)
    (manual : x.floor.policy.grantMode = .manual) : t.floor = x.floor ∧ t.report = x.report := by
  refine h.fixed x ?_
  unfold State.settled
  simp [open_, manual]

/-- On an OPEN floor on which no reply entry waits a close frees the place. -/
theorem State.slotClosed_noReplies {s : State} (open_ : s.floor.phase = .openFloor) (none_ : s.floor.replies = []) (i : Fin 6)
    (d : DelegateSlot) (why : Byte) : s.slotClosed i d why =
      ((s.notify ⟨.released, .seat d.seat, some why, [detailOf i, detailOf (s.time - d.grantedAt).toNat]⟩).raise .floor).modFloor
        fun f => { f with slots := f.slots.set i none } := by
  unfold slotClosed
  dsimp only
  rw [if_neg fun begins => begins.2.1 none_, if_neg fun ends => absurd (open_.symm.trans ends.1) (by decide)]

/-! ### All slots closed -/

/-- Slots closed in a row, each open before (R53). -/
theorem Claim.Shows.closeSlots {c : Claim} {x : State} (h : c.Shows x) {l : List (Fin 6 × DelegateSlot)} (once : (l.map (·.1)).Nodup)
    (here : ∀ y ∈ l, x.floor.slots[y.1] = some y.2) (why : Reason) :
    (l.foldl (fun c y => c.closeSlot y.1 why) c).Shows (x.slotsClosed l (codeIn reasonRow why)) := by
  induction l generalizing c x with
  | nil => exact h
  | cons y l ih =>
    obtain ⟨new, once⟩ := List.nodup_cons.mp once
    refine ih (h.closeSlot (here y (.head _)) why) once fun z hz => ?_
    have other : y.1 ≠ z.1 := fun same => new (List.mem_map.mpr ⟨z, hz, same.symm⟩)
    rw [State.slotClosed_slots]
    simp only [Fin.getElem_fin]
    rw [Vector.getElem_set_ne _ _ (Fin.val_ne_of_ne other)]
    exact here z (.tail _ hz)

/-- The closes leave a fill point due. -/
theorem Claim.closeSlots_fillDue {c : Claim} (h : c.fillDue = true) (l : List (Fin 6 × DelegateSlot)) (why : Reason) :
    (l.foldl (fun c y => c.closeSlot y.1 why) c).fillDue = true := by
  induction l generalizing c with
  | nil => exact h
  | cons y l ih => exact ih (Claim.closeSlot_fillDue why h)

/-- The first close makes a fill point. -/
theorem Claim.closeSlots_fillPoint {c : Claim} {l : List (Fin 6 × DelegateSlot)} (some_ : l ≠ [])
    (here : ∀ y ∈ l, c.floor.slots[y.1] = some y.2) (why : Reason) : (l.foldl (fun c y => c.closeSlot y.1 why) c).fillDue = true := by
  cases l with
  | nil => exact absurd rfl some_
  | cons y l => exact Claim.closeSlots_fillDue (Claim.closeSlot_fillPoint (here y (.head _)) why) l why

/-- Closes leave the request list, the seats and the policy. -/
theorem State.slotsClosed_kept (x : State) (l : List (Fin 6 × DelegateSlot)) (why : Byte) :
    (x.slotsClosed l why).floor.requests = x.floor.requests ∧ (x.slotsClosed l why).seats = x.seats ∧
      x.floor.Steady (x.slotsClosed l why).floor := by
  induction l generalizing x with
  | nil => exact ⟨rfl, rfl, .refl _⟩
  | cons y l ih =>
    obtain ⟨requests, seats, steady⟩ := ih (x.slotClosed y.1 y.2 why)
    exact ⟨requests.trans (State.slotClosed_requests _ _ _ _), seats.trans (by rw [State.slotClosed_rest]),
      (x.slotClosed_steady _ _ _).trans steady⟩

/-- On an OPEN floor on which no reply entry waits the closes free their places. -/
theorem State.slotsClosed_noReplies {x : State} (open_ : x.floor.phase = .openFloor) (none_ : x.floor.replies = [])
    (l : List (Fin 6 × DelegateSlot)) (why : Byte) : (x.slotsClosed l why).floor =
      { x.floor with slots := l.foldl (fun v y => v.set y.1 none) x.floor.slots } := by
  induction l generalizing x with
  | nil => rfl
  | cons y l ih =>
    have closed := x.slotClosed_noReplies open_ none_ y.1 y.2 why
    refine (ih (x := x.slotClosed y.1 y.2 why) (by rw [closed]; exact open_) (by rw [closed]; exact none_)).trans ?_
    rw [closed]
    rfl

/-- Places emptied one after another. -/
theorem foldl_set_none {l : List (Fin 6 × DelegateSlot)} {v : Vector (Option DelegateSlot) 6} (i : Fin 6) :
    (l.foldl (fun v y => v.set y.1 none) v)[i] = if i ∈ l.map (·.1) then none else v[i] := by
  induction l generalizing v with
  | nil => simp
  | cons y l ih =>
    rw [List.foldl_cons, ih, List.map_cons]
    simp only [Fin.getElem_fin, Vector.getElem_set, List.mem_cons, Fin.ext_iff]
    grind

/-- Every open slot emptied leaves none. -/
theorem Floor.slotsByAge_emptied (f : Floor) (now : ChamberTime) :
    (f.slotsByAge now).foldl (fun v y => v.set y.1 none) f.slots = Vector.replicate 6 none := by
  refine Vector.ext fun k hk => ?_
  have emptied := foldl_set_none (l := f.slotsByAge now) (v := f.slots) ⟨k, hk⟩
  simp only [Fin.getElem_fin] at emptied
  rw [emptied, Vector.getElem_replicate]
  split
  · rfl
  · next closed =>
    cases h : f.slots[k] with
    | none => rfl
    | some d => exact absurd (Claim.mem_slotsByAge_places.mpr ⟨d, h⟩) closed

/-- The reply list emptied leaves the slots, the request list and the seats. -/
theorem State.repliesDropped_kept (s : State) (why : Byte) : (s.repliesDropped why).floor = { s.floor with replies := [] } ∧
    (s.repliesDropped why).seats = s.seats ∧ (s.repliesDropped why).time = s.time := by
  unfold repliesDropped
  split
  · next none_ => exact ⟨by rw [← none_], rfl, rfl⟩
  · rw [State.foldl_notify_rest (fun e : ReplyEntry => ⟨.replyDropped, .seat e.seat, some why, [detailOf e.target]⟩)]
    exact ⟨rfl, rfl, rfl⟩

/-- What CLOSE ALL empties before it closes (R57). -/
def State.beforeCloseAll (s : State) : State := if s.floor.phase = .replyRound then s.repliesDropped 2 else s

/-- It leaves the slots. -/
theorem State.beforeCloseAll_kept (s : State) : s.beforeCloseAll.floor.slots = s.floor.slots ∧
    s.beforeCloseAll.floor.slotsByAge s.beforeCloseAll.time = s.floor.slotsByAge s.time ∧
    s.beforeCloseAll.floor.requests = s.floor.requests ∧ s.beforeCloseAll.seats = s.seats ∧
    s.beforeCloseAll.floor.phase = s.floor.phase := by
  obtain ⟨floor, seats, time⟩ := s.repliesDropped_kept 2
  unfold beforeCloseAll
  split
  · refine ⟨by rw [floor], ?_, by rw [floor], seats, by rw [floor]⟩
    unfold Floor.slotsByAge Floor.openSlots
    rw [floor, time]
  · exact ⟨rfl, rfl, rfl, rfl, rfl⟩

/-- The claim of CLOSE ALL: the reply list in REPLY_ROUND, then every slot, oldest first. -/
theorem Claim.closeAllSlots_eq (s : State) : (Claim.start s).closeAllSlots = (s.floor.slotsByAge s.time).foldl
    (fun c x => c.closeSlot x.1 .host) (if s.floor.phase = .replyRound then (Claim.start s).clearReplies .host else .start s) := by
  unfold Claim.closeAllSlots
  have shown : (if s.floor.phase = .replyRound then (Claim.start s).clearReplies .host else .start s).Shows s.beforeCloseAll := by
    unfold State.beforeCloseAll
    split
    · exact (Claim.Shows.start s).clearReplies .host
    · exact .start s
  have start : (Claim.start s).floor.phase = s.floor.phase := rfl
  dsimp only
  rw [start, shown.floor, shown.time, s.beforeCloseAll_kept.2.1]

section CloseAll

variable (s : State)

/-- What CLOSE ALL has emptied before it closes. -/
theorem clearReplies_closeAll : (if s.floor.phase = .replyRound then (Claim.start s).clearReplies .host else .start s).Shows
    s.beforeCloseAll := by
  unfold State.beforeCloseAll
  split
  · exact (Claim.Shows.start s).clearReplies .host
  · exact .start s

/-- What CLOSE ALL shows. -/
theorem closeAllSlots_shows : (Claim.start s).closeAllSlots.Shows (s.beforeCloseAll.slotsClosed (s.floor.slotsByAge s.time) 2) := by
  rw [Claim.closeAllSlots_eq]
  refine (clearReplies_closeAll s).closeSlots (Claim.slotsByAge_places_nodup _ _) (fun y hy => ?_) .host
  rw [s.beforeCloseAll_kept.1]
  exact Floor.mem_slotsByAge.mp hy

/-- CLOSE ALL takes no entry off the request list. -/
theorem closeAllSlots_tookEntry : (Claim.start s).closeAllSlots.tookEntry = false := by
  rw [Claim.closeAllSlots_eq, Claim.foldl_tookEntry fun c y => Claim.closeSlot_tookEntry c _ _]
  split
  · exact Claim.clearReplies_tookEntry _ _
  · rfl

/-- With a slot open CLOSE ALL is a fill point. -/
theorem closeAllSlots_fillDue (some_ : s.floor.openCount ≠ 0) : (Claim.start s).closeAllSlots.fillDue = true := by
  rw [Claim.closeAllSlots_eq]
  refine Claim.closeSlots_fillPoint (fun none_ => some_ ?_) (fun y hy => ?_) .host
  · have length := (sortBy_perm (fun x y => age s.time y.2.grantedAt ≤ age s.time x.2.grantedAt) s.floor.openSlots).length_eq
    rw [Floor.openCount, ← length]
    exact congrArg List.length none_
  · rw [(clearReplies_closeAll s).floor, s.beforeCloseAll_kept.1]
    exact Floor.mem_slotsByAge.mp hy

/-- CLOSE ALL with a slot open or a reply entry waiting (R57). -/
theorem closeAllSlots_settles (phase : s.floor.phase = .openFloor ∨ s.floor.phase = .replyRound)
    (some_ : s.floor.openCount ≠ 0 ∨ s.floor.replies ≠ []) :
    (s.beforeCloseAll.slotsClosed (s.floor.slotsByAge s.time) 2).Settles (s.event Claim.closeAllSlots) := by
  obtain ⟨-, -, beforeRequests, beforeSeats, beforePhase⟩ := s.beforeCloseAll_kept
  obtain ⟨requests, seats, steady⟩ := s.beforeCloseAll.slotsClosed_kept (s.floor.slotsByAge s.time) 2
  have shown := closeAllSlots_shows s
  have undue := State.versionDue_kept shown (requests.trans beforeRequests) (closeAllSlots_tookEntry s)
  have here : (Claim.start s).closeAllSlots.st.firstPresentReply =
      (s.beforeCloseAll.slotsClosed (s.floor.slotsByAge s.time) 2).firstPresentReply := by
    refine State.firstPresentReply_congr (congrArg Floor.replies shown.floor) fun n => ?_
    rw [Claim.isHere_of_frame (Claim.closeAllSlots_frame (c := .start s) (.refl s))]
    unfold State.isHere State.seat
    rw [seats, beforeSeats]
  by_cases open_ : s.floor.openCount = 0
  · -- no slot is open: the reply list alone is emptied, in REPLY_ROUND
    have none_ : s.floor.slotsByAge s.time = [] := List.length_eq_zero_iff.mp
      ((sortBy_perm _ s.floor.openSlots).length_eq.trans open_)
    have waiting : s.floor.replies ≠ [] := some_.resolve_left (not_not.mpr open_)
    have body := Claim.closeAllSlots_eq s
    rw [none_] at body shown here ⊢
    rcases phase with isOpen | round
    · have before : s.beforeCloseAll = s := if_neg (by rw [isOpen]; decide)
      have start : (Claim.start s).closeAllSlots = .start s := body.trans (if_neg (by rw [isOpen]; decide))
      rw [before] at shown here ⊢
      refine ⟨fun y hy => State.event_fixed (body := Claim.closeAllSlots) shown (fun round => ?_) here ?_, fun _ _ _ empty => absurd empty waiting⟩
      · exact absurd (isOpen.symm.trans round) (by decide)
      · rw [undue]
        exact hy
    · have due : (Claim.start s).closeAllSlots.serveDue = true := by
        rw [body, if_pos round]
        show ((Claim.start s).clearReplies .host).serveDue = true
        unfold Claim.clearReplies
        dsimp only
        rw [if_neg waiting]
        rfl
      have settles := State.event_settles (body := Claim.closeAllSlots) shown
        (fun isOpen => absurd ((beforePhase.symm.trans isOpen).symm.trans round) (by decide)) (fun _ => .inr due) here
      rw [undue] at settles
      exact settles
  · have due := closeAllSlots_fillDue s open_
    have settles := State.event_settles (body := Claim.closeAllSlots) shown (fun _ => due) (fun _ => .inl due) here
    rw [undue] at settles
    exact settles

/-- CLOSE ALL on an OPEN floor under MANUAL on which no reply entry waits empties the slots. -/
theorem closeAllSlots_floor (open_ : s.floor.phase = .openFloor) (none_ : s.floor.replies = []) (some_ : s.floor.openCount ≠ 0)
    (manual : s.floor.policy.grantMode = .manual) :
    (s.event Claim.closeAllSlots).floor = { s.floor with slots := Vector.replicate 6 none } := by
  have before : s.beforeCloseAll = s := if_neg (by rw [open_]; decide)
  have settles := closeAllSlots_settles s (.inl open_) (.inl some_)
  have closed := State.slotsClosed_noReplies open_ none_ (s.floor.slotsByAge s.time) 2
  rw [Floor.slotsByAge_emptied] at closed
  rw [before] at settles
  exact (settles.manual (by rw [closed]; exact open_) (by rw [closed]; exact manual)).1.trans closed

end CloseAll

/-! ### The commands -/

section CloseCommand

variable {s : State} {p : List Byte}

/-- CLOSE SEAT of a seat with a delegate slot (R56). -/
theorem closeSeatAction_slot {n : Nat} (low : 1 ≤ n) (up : n ≤ 480) {i : Fin 6} (hi : s.floor.slotOf n = some i) :
    closeSeatAction n s = (s.event (·.closeSlot i .host), .of .done [1]) := by
  unfold closeSeatAction
  rw [if_neg (seatOk_inside low up), hi]

/-- CLOSE SEAT of a seat without a delegate slot (R56). -/
theorem closeSeatAction_noSlot {n : Nat} (low : 1 ≤ n) (up : n ≤ 480) (hn : s.floor.slotOf n = none) :
    closeSeatAction n s = match s.floor.chairOf n with
      | some i => if s.floor.chairs[i].any (·.mode = .priority) then (s, .of .phase) else (s.event (·.closeChair i .host), .of .done [0])
      | none => (s, .of .notFound) := by
  unfold closeSeatAction
  rw [if_neg (seatOk_inside low up), hn]
  cases s.floor.chairOf n <;> rfl

/-- The close of a chair slot (R61). -/
theorem closeChair_event {j : Fin 2} {d : ChairSlot} (hd : s.floor.chairs[j] = some d) :
    (s.event (·.closeChair j .host)).floor = { s.floor with chairs := s.floor.chairs.set j none } ∧
      (s.event (·.closeChair j .host)).report = ((s.notify ⟨.chairClose, .seat d.seat, some 2, [detailOf j]⟩).raise .floor).report := by
  have closed := (Claim.Shows.start s).closeChair hd .host
  have shown := State.event_undue (body := fun x => x.closeChair j .host) closed (Claim.SameDue.closeChair _ j .host)
  rw [State.versionDue_kept (s := s) closed rfl (Claim.closeChair_tookEntry _ _ _)] at shown
  exact shown

/-- CLOSE ALL finds nothing (R57). -/
theorem closeAllAction_unchanged (h : s.floor.phase = .interrupted ∨ s.floor.phase = .halted ∨
    s.floor.openCount = 0 ∧ s.floor.replies = []) : closeAllAction s = (s, .of .unchanged [0]) := by
  unfold closeAllAction
  cases hp : s.floor.phase <;> simp_all

/-- CLOSE ALL finds something in OPEN and REPLY_ROUND (R57). -/
theorem closeAllAction_done (phase : s.floor.phase = .openFloor ∨ s.floor.phase = .replyRound)
    (some_ : s.floor.openCount ≠ 0 ∨ s.floor.replies ≠ []) :
    closeAllAction s = (s.event Claim.closeAllSlots, .of .done [be8 s.floor.openCount]) := by
  have found : ¬ (s.floor.openCount = 0 ∧ s.floor.replies = []) := by tauto
  unfold closeAllAction
  rcases phase with open_ | round
  · simp only [open_, if_neg found]
  · simp only [round, if_neg found]

end CloseCommand

/-- CLOSE SEAT, by the selector. -/
theorem closeAction_seat {p : List Byte} (s : State) (h : u8 p 0 = 0) : closeAction p s = closeSeatAction (u16 p 1) s := by
  simp only [closeAction, h]

/-- CLOSE ALL, by the selector. -/
theorem closeAction_all {p : List Byte} (s : State) (h : u8 p 0 = 1) : closeAction p s = closeAllAction s := by
  simp only [closeAction, h]

/-- No other selector names a CLOSE. -/
theorem closeAction_beyond {p : List Byte} (s : State) (h : 1 < u8 p 0) : closeAction p s = (s, .of .badArg) := by
  unfold closeAction
  split
  · omega
  · omega
  · rfl

section CloseRow

variable {s : State} {l : Link} {c : HeldCommand} (hc : s.Takes l c 0x34 true 3)

include hc in
/-- The row of CLOSE SEAT takes every selector but that of CLOSE ALL. -/
theorem exec_closeSeat (other : u8 c.payload 0 ≠ 1) :
    exec (.closeSeat l) s = .next ((closeAction c.payload s).1.answer l c (closeAction c.payload s).2) :=
  congrArg _ (hc.actsBy (by simp [ofKindBut, hc.kind, other]) rfl closeAction)

include hc in
/-- The row of CLOSE ALL takes every selector but that of CLOSE SEAT. -/
theorem exec_closeAll (other : u8 c.payload 0 ≠ 0) :
    exec (.closeAll l) s = .next ((closeAction c.payload s).1.answer l c (closeAction c.payload s).2) :=
  congrArg _ (hc.actsBy (by simp [ofKindBut, hc.kind, other]) rfl closeAction)

end CloseRow

/-! ### CUT (R62) -/

section Cut

variable {s : State} {r : CaptureRecord}

/-- A CUT press of the principal's slot in OPEN, and of the REPLY slot in REPLY_ROUND. -/
theorem pressCut_closes (may : s.mayPress r.seat .cut) {i : Fin 6} {d : DelegateSlot}
    (h : s.floor.phase = .openFloor ∧ s.floor.principal s.time = some (i, d) ∨
      s.floor.phase = .replyRound ∧ s.floor.replySlot = some (i, d)) :
    (Claim.drained s).press r.seat r.stamp .cut = (Claim.drained s).closeSlot i .chair := by
  rw [Claim.press_eq (c := Claim.drained s) may]
  unfold Claim.buttonRule Claim.pressCut
  have floor : (Claim.drained s).floor = s.floor := rfl
  have time : (Claim.drained s).time = s.time := rfl
  rw [floor, time]
  rcases h with ⟨phase, slot⟩ | ⟨phase, slot⟩ <;> rw [phase, slot]

/-- A CUT press that is refused. -/
theorem pressCut_refused (may : s.mayPress r.seat .cut) {why : PressRefusal}
    (h : (s.floor.phase = .openFloor ∧ s.floor.principal s.time = none ∨ s.floor.phase = .replyRound ∧ s.floor.replySlot = none) ∧
        why = .noTarget ∨ (s.floor.phase = .interrupted ∨ s.floor.phase = .halted) ∧ why = .phase) :
    (Claim.drained s).press r.seat r.stamp .cut = (Claim.drained s).refuse r.seat .cut why := by
  rw [Claim.press_eq (c := Claim.drained s) may]
  unfold Claim.buttonRule Claim.pressCut
  have floor : (Claim.drained s).floor = s.floor := rfl
  have time : (Claim.drained s).time = s.time := rfl
  rw [floor, time]
  rcases h with ⟨⟨phase, slot⟩ | ⟨phase, slot⟩, rfl⟩ | ⟨phase | phase, rfl⟩
  · rw [phase, slot]
  · rw [phase, slot]
  · rw [phase]
  · rw [phase]

end Cut

/-- Settles O36: by the selector, the slot that is found, and the closes oldest first. -/
theorem closeCommands : Obligations.CloseCommands := by
  unfold Obligations.CloseCommands
  refine ⟨fun s l c hc => ⟨fun row which beyond => ?_, fun seat outside => ?_⟩, fun s l c hc seat n hn low up => ?_,
    fun s l c hc all => ?_, fun s r one may => ⟨s.afterPress r .cut, exec_onePress one, fun open_ => ?_, fun round => ?_, fun shut => ?_⟩⟩
  · rcases which with rfl | rfl
    · rw [exec_closeSeat hc (by omega), closeAction_beyond s beyond]
    · rw [exec_closeAll hc (by omega), closeAction_beyond s beyond]
  · rw [exec_closeSeat hc (by omega), closeAction_seat s seat]
    simp only [closeSeatAction, if_pos (seatOk_outside outside), refuseWith]
  · rw [exec_closeSeat hc (by omega), closeAction_seat s seat, hn]
    refine ⟨fun noSlot noChair => ?_, fun j d noSlot chair hd => ⟨fun priority => ?_, fun mic => ?_⟩, fun i d slot hd => ?_⟩
    · rw [closeSeatAction_noSlot low up noSlot, noChair]
    · rw [closeSeatAction_noSlot low up noSlot, chair]
      simp [hd, priority]
    · obtain ⟨floor, report⟩ := closeChair_event hd
      have own : d.seat = n := by
        obtain ⟨e, he, own⟩ := Floor.chairOf_some chair
        rw [hd] at he
        exact Option.some.inj he ▸ own
      rw [closeSeatAction_noSlot low up noSlot, chair]
      have other : ¬ (s.floor.chairs[j].any (·.mode = .priority)) = true := by simp [hd, mic]
      dsimp only
      rw [if_neg other]
      exact ⟨_, rfl, floor, own ▸ report⟩
    · rw [closeSeatAction_slot low up slot]
      refine ⟨_, rfl, fun open_ none_ manual => ?_⟩
      have own : d.seat = n := by
        obtain ⟨e, he, own⟩ := Floor.slotOf_some slot
        rw [hd] at he
        exact Option.some.inj he ▸ own
      have closed := s.slotClosed_noReplies open_ none_ i d 2
      obtain ⟨floor, report⟩ := (closeSlot_settles hd .host).manual (by rw [show codeIn reasonRow .host = 2 from rfl, closed]; exact open_)
        (by rw [show codeIn reasonRow .host = 2 from rfl, closed]; exact manual)
      rw [show codeIn reasonRow .host = 2 from rfl, closed] at floor report
      exact ⟨floor, own ▸ report⟩
  · rw [exec_closeAll hc (by omega), closeAction_all s all]
    refine ⟨fun shut => ?_, fun open_ none_ => ⟨fun noSlot => ?_, fun some_ => ?_⟩, fun phase => ⟨fun noSlot none_ => ?_, fun some_ => ?_⟩⟩
    · rw [closeAllAction_unchanged (shut.imp_right .inl)]
    · rw [closeAllAction_unchanged (.inr (.inr ⟨noSlot, none_⟩))]
    · rw [closeAllAction_done (.inl open_) (.inl some_)]
      exact ⟨_, rfl, closeAllSlots_floor s open_ none_ some_⟩
    · rw [closeAllAction_unchanged (.inr (.inr ⟨noSlot, none_⟩))]
    · rw [closeAllAction_done phase some_]
      exact ⟨_, rfl, closeAllSlots_settles s phase some_⟩
  · exact ⟨fun none_ => onePress_refuses one (pressCut_refused may (.inl ⟨.inl ⟨open_, none_⟩, rfl⟩)), fun i d principal =>
      onePress_closes (why := .chair) (Floor.slots_of_principal principal).1 (pressCut_closes may (.inl ⟨open_, principal⟩))⟩
  · exact ⟨fun none_ => onePress_refuses one (pressCut_refused may (.inl ⟨.inr ⟨round, none_⟩, rfl⟩)), fun i d slot =>
      onePress_closes (why := .chair) (Floor.slots_of_replySlot slot) (pressCut_closes may (.inr ⟨round, slot⟩))⟩
  · exact onePress_refuses one (pressCut_refused may (.inr ⟨shut, rfl⟩))

end Sys2Proof.Machine
end

section
/-! SUPPORT. GRANT (R54, R55) and the NEXT press (R63). -/

namespace Sys2Proof.Machine

/-! ### The event of a grant -/

/-- A grant sets the FLOOR flag. -/
theorem Claim.grantSpeak_flagged {c : Claim} {j : Fin 6} (free : c.floor.freeSlot = some j) (n : Nat) (o : Origin) (a : Option Nat)
    (l : Link) : (c.grantSpeak n o a).st.flagged l .floor := by
  unfold Claim.grantSpeak
  rw [free]
  exact State.flagged_raise _ l .floor

/-- The ticks a grant gives: ALLOW, else the entry's override, else SPEAK_ALLOW (R49, R73). -/
def State.grantAllowance (s : State) (n : Nat) (allow : Option Nat) : Nat :=
  (allow <|> (s.floor.requestOf n).bind (·.allowance)).getD s.floor.policy.speakAllow

section Granting

variable {s x : State} {c : Claim} (h : c.Shows x) (same : x.floor.requests = s.floor.requests) (took : c.tookEntry = false)
  (seats : c.st.seats = s.seats) {j : Fin 6} (free : x.floor.freeSlot = some j) {n : Nat} (known : (seatIndex n).isSome)

include h same took free in
/-- A grant, with the version it counts. -/
theorem grantSpeak_counted (o : Origin) (allow : Option Nat) :
    (x.speakEntered j n o (x.grantAllowance n allow)).counted (s.versionDue (c.grantSpeak n o allow)) =
      x.speakGranted j n o (x.grantAllowance n allow) := by
  rw [versionDue_granted h same took free, State.speakEntered_counted]

include h same took free in
/-- An event that is a grant, where no fill follows (R55). -/
theorem grant_event {o : Origin} {allow : Option Nat} {body : Claim → Claim}
    (hb : body (.start s) = { c.grantSpeak n o allow with fillDue := false, serveDue := false }) :
    (s.event body).floor = (x.speakGranted j n o (x.grantAllowance n allow)).floor ∧
      (s.event body).report = (x.speakGranted j n o (x.grantAllowance n allow)).report ∧ ∀ l, (s.event body).flagged l .floor := by
  have shown : (body (.start s)).Shows (x.speakEntered j n o (x.grantAllowance n allow)) := by
    rw [hb]
    exact (h.grantSpeak free n o allow).of_st rfl
  have still : (body (.start s)).settleFloor = { body (.start s) with fillDue := false, serveDue := false } := by
    rw [hb]
    exact Claim.settleFloor_noDue _ rfl rfl
  have due : s.versionDue (body (.start s)) = s.versionDue (c.grantSpeak n o allow) := by rw [hb]; rfl
  obtain ⟨floor, report⟩ := State.event_shown shown still
  rw [due, grantSpeak_counted h same took free] at floor report
  refine ⟨floor, report, fun l => State.event_flagged ?_⟩
  rw [hb]
  exact Claim.grantSpeak_flagged (by rw [h.floor]; exact free) n o allow l

include h seats free known in
/-- An event that is a grant counts for the seat. -/
theorem grant_event_count {o : Origin} {allow : Option Nat} {body : Claim → Claim}
    (hb : (body (.start s)).st = (c.grantSpeak n o allow).st) :
    ((s.event body).seat n).grantCount = min 15 ((s.seat n).grantCount + 1) := by
  have freeHere : c.floor.freeSlot = some j := by rw [h.floor]; exact free
  have waits : (body (.start s)).floor.requestOf n = none := by
    rw [show (body (.start s)).floor = (c.grantSpeak n o allow).floor from congrArg State.floor hb]
    exact c.grantSpeak_requestOf freeHere n o allow
  rw [State.event_count waits, hb, c.grantSpeak_grantCount freeHere known]
  unfold State.seat
  rw [seats]

end Granting

/-! ### The checks of a GRANT (R54) -/

/-- The target a GRANT names. -/
def grantTarget (p : List Byte) : GrantTarget := if u8 p 0 = 1 then .seat (u16 p 1) else .next

/-- The allowance a GRANT gives, where it gives one. -/
def grantAllow (p : List Byte) : Option Nat := if (p.getD 3 0).getLsbD 1 then some (u16 p 4) else none

section Checks

variable {s : State} {l : Link} {c : HeldCommand} {p : List Byte}

/-- Each row of GRANT takes every selector but that of the other. -/
theorem exec_grant (hc : s.Takes l c 0x33 true 6) {row : Instr}
    (which : row = .grantNext l ∧ u8 c.payload 0 ≠ 1 ∨ row = .grantSeat l ∧ u8 c.payload 0 ≠ 0) :
    exec row s = .next ((grantAction c.payload s).1.answer l c (grantAction c.payload s).2) := by
  rcases which with ⟨rfl, other⟩ | ⟨rfl, other⟩
  all_goals exact congrArg _ (hc.actsBy (by simp [ofKindBut, hc.kind, other]) rfl grantAction)

/-- Checks 1 to 3 pass. -/
theorem grantArgs_ok (target : u8 p 0 = 0 ∨ u8 p 0 = 1 ∧ 1 ≤ u16 p 1 ∧ u16 p 1 ≤ 480)
    (within : (p.getD 3 0).getLsbD 1 = false ∨ u16 p 4 ≤ 36000) :
    grantArgs p = .ok ⟨grantTarget p, (p.getD 3 0).getLsbD 0, grantAllow p⟩ := by
  have selector : ¬ 1 < u8 p 0 := by omega
  have inside : ¬ (u8 p 0 = 1 ∧ (!seatOk (u16 p 1)) = true) := by
    rintro ⟨seat, outside⟩
    have range : 1 ≤ u16 p 1 ∧ u16 p 1 ≤ 480 := by omega
    exact seatOk_inside range.1 range.2 outside
  have short : ¬ (grantAllow p).any (Config.maxTicks < ·) = true := by
    unfold grantAllow
    rcases within with off | range
    · rw [off]
      simp
    · split
      · simpa [Config.maxTicks] using range
      · simp
  unfold grantArgs
  dsimp only
  rw [if_neg selector, if_neg inside]
  exact if_neg short

/-- Check 1 fails. -/
theorem grantAction_badArg (h : 1 < u8 p 0) : grantAction p s = (s, .of .badArg) := by
  have error : grantArgs p = .error .badArg := if_pos h
  unfold grantAction
  rw [error]
  rfl

/-- Check 2 fails. -/
theorem grantAction_seatRange (seat : u8 p 0 = 1) (outside : u16 p 1 < 1 ∨ 480 < u16 p 1) : grantAction p s = (s, .of .range) := by
  have error : grantArgs p = .error .range := by
    unfold grantArgs
    dsimp only
    rw [if_neg (by omega), if_pos ⟨seat, seatOk_outside outside⟩]
  unfold grantAction
  rw [error]
  rfl

/-- Check 3 fails. -/
theorem grantAction_allowRange (target : u8 p 0 = 0 ∨ u8 p 0 = 1 ∧ 1 ≤ u16 p 1 ∧ u16 p 1 ≤ 480) (given : (p.getD 3 0).getLsbD 1 = true)
    (long : 36000 < u16 p 4) : grantAction p s = (s, .of .range) := by
  have inside : ¬ (u8 p 0 = 1 ∧ (!seatOk (u16 p 1)) = true) := by
    rintro ⟨seat, outside⟩
    have range : 1 ≤ u16 p 1 ∧ u16 p 1 ≤ 480 := by omega
    exact seatOk_inside range.1 range.2 outside
  have error : grantArgs p = .error .range := by
    unfold grantArgs
    dsimp only
    rw [if_neg (by omega), if_neg inside, given]
    exact if_pos (by simpa [Config.maxTicks] using long)
  unfold grantAction
  rw [error]
  rfl

/-- A GRANT whose arguments pass checks 1 to 3. -/
theorem grantAction_eq (s : State) (target : u8 p 0 = 0 ∨ u8 p 0 = 1 ∧ 1 ≤ u16 p 1 ∧ u16 p 1 ≤ 480)
    (within : (p.getD 3 0).getLsbD 1 = false ∨ u16 p 4 ≤ 36000) : grantAction p s =
      if s.floor.phase ≠ .openFloor then (s, .of .phase)
      else match s.grantSeatOf (grantTarget p) with
        | .error e => (s, .of e)
        | .ok n =>
          if s.floor.fullForGrant ((p.getD 3 0).getLsbD 0) then (s, .of .full)
          else
            let u := s.event (·.grantHost n ((p.getD 3 0).getLsbD 0) (grantAllow p))
            (u, .of .done (u.grantResult n)) := by
  unfold grantAction
  rw [grantArgs_ok target within]
  rfl

/-- The seat that passes checks 5 and 6 (R54). -/
theorem grantSeatOf_named {n : Nat} (h : s.grantNames c n) : s.grantSeatOf (grantTarget c.payload) = .ok n ∧ (seatIndex n).isSome := by
  rcases h with ⟨next, first⟩ | ⟨seat, rfl, delegate, enabled, here, free⟩
  · obtain ⟨e, found, rfl⟩ := Option.map_eq_some_iff.mp first
    have target : grantTarget c.payload = .next := if_neg (by omega)
    rw [target]
    refine ⟨?_, seatIndex_of_isHere (s := s) (List.find?_some (p := fun x : RequestEntry => s.isHere x.seat) found)⟩
    unfold State.grantSeatOf
    dsimp only
    rw [found]
  · have target : grantTarget c.payload = .seat (u16 c.payload 1) := if_pos seat
    have bound : ¬ (s.seat (u16 c.payload 1)).binding.isNone = true := fun none_ => by
      simp [State.hasClass, Option.isNone_iff_eq_none.mp none_] at delegate
    rw [target]
    refine ⟨?_, seatIndex_of_isHere here⟩
    unfold State.grantSeatOf
    dsimp only
    rw [if_neg bound, delegate, enabled, here]
    simp [free]

/-- NEXT with no present entry. -/
theorem grantSeatOf_next (s : State) (next : u8 p 0 = 0) (none_ : s.firstPresent = none) :
    s.grantSeatOf (grantTarget p) = .error .empty := by
  have target : grantTarget p = .next := if_neg (by omega)
  rw [target]
  unfold State.grantSeatOf
  dsimp only
  rw [none_]

/-- The checks of a seat, in their order (R54). -/
theorem grantSeatOf_seat (s : State) (n : Nat) :
    ((s.seat n).binding = none → s.grantSeatOf (.seat n) = .error .unbound) ∧
      ((s.seat n).binding ≠ none → s.hasClass n .delegate = false → s.grantSeatOf (.seat n) = .error .cls) ∧
      (s.hasClass n .delegate = true →
        ((s.seat n).enabled = false → s.grantSeatOf (.seat n) = .error .disabled) ∧
        ((s.seat n).enabled = true → (s.isHere n = false → s.grantSeatOf (.seat n) = .error .absentSeat) ∧
          (s.isHere n = true → s.floorState n ≠ .idle → s.floorState n ≠ .waiting → s.grantSeatOf (.seat n) = .error .seatBusy))) := by
  unfold State.grantSeatOf
  dsimp only
  refine ⟨fun unbound => by simp [unbound], fun bound other => ?_, fun delegate => ?_⟩
  · rw [if_neg (by simpa using bound), if_pos (by simp [other])]
  · have bound : ¬ (s.seat n).binding.isNone = true := fun none_ => by
      simp [State.hasClass, Option.isNone_iff_eq_none.mp none_] at delegate
    rw [if_neg bound, if_neg (by simp [delegate])]
    refine ⟨fun disabled => by simp [disabled], fun enabled => ⟨fun away => by simp [enabled, away], fun here idle waiting => ?_⟩⟩
    rw [if_neg (by simp [enabled]), if_neg (by simp [here]), if_neg (by simp [idle, waiting])]

/-- No SPEAK slot is open. -/
theorem Floor.oldestSpeak_none {f : Floor} {now : ChamberTime} :
    f.oldestSpeak now = none ↔ (f.openSlots.any fun x => x.2.kind = .speak) = false := by
  have mem (x : Fin 6 × DelegateSlot) : x ∈ f.slotsByAge now ↔ x ∈ f.openSlots := (sortBy_perm _ _).mem_iff
  unfold Floor.oldestSpeak
  rw [List.find?_eq_none, List.any_eq_false]
  exact forall_congr' fun x => imp_congr_left (mem x)

end Checks

/-! ### What a GRANT does -/

section Grant

variable {s : State} {n : Nat} (known : (seatIndex n).isSome)

/-- A GRANT on a floor with room. -/
theorem grantHost_room (n : Nat) {evict : Bool} (room : s.floor.openCount < s.floor.policy.floorMax) (allow : Option Nat) :
    (Claim.start s).grantHost n evict allow =
      { (Claim.start s).grantSpeak n .host allow with fillDue := false, serveDue := false } := by
  have notFull : ¬ (evict = true ∧ (Claim.start s).floor.openCount = (Claim.start s).policy.floorMax) := fun full =>
    absurd full.2 (Nat.ne_of_lt room)
  unfold Claim.grantHost
  dsimp only
  rw [if_neg notFull]

/-- A GRANT with EVICT on a floor just full closes the oldest SPEAK slot first (R55). -/
theorem grantHost_evict (n : Nat) (full : s.floor.openCount = s.floor.policy.floorMax) {i : Fin 6} {d : DelegateSlot}
    (oldest : s.floor.oldestSpeak s.time = some (i, d)) (allow : Option Nat) :
    (Claim.start s).grantHost n true allow =
      { ((Claim.start s).closeSlot i .evict).grantSpeak n .host allow with fillDue := false, serveDue := false } := by
  have full : (Claim.start s).floor.openCount = (Claim.start s).policy.floorMax := full
  have oldest : (Claim.start s).floor.oldestSpeak (Claim.start s).time = some (i, d) := oldest
  unfold Claim.grantHost
  dsimp only
  rw [if_pos ⟨rfl, full⟩, oldest]

/-- A floor with room is not full for a GRANT. -/
theorem fullForGrant_room {f : Floor} (room : f.openCount < f.policy.floorMax) (evict : Bool) : f.fullForGrant evict = false := by
  unfold Floor.fullForGrant
  split
  · simp; omega
  · simpa using room

include known in
/-- The grant on a floor with room. -/
theorem grantHost_room_event {i : Fin 6} (free : s.floor.freeSlot = some i) {evict : Bool}
    (room : s.floor.openCount < s.floor.policy.floorMax) (allow : Option Nat) :
    (s.event (·.grantHost n evict allow)).floor = (s.speakGranted i n .host (s.grantAllowance n allow)).floor ∧
      ((s.event (·.grantHost n evict allow)).seat n).grantCount = min 15 ((s.seat n).grantCount + 1) ∧
      ∀ l, (s.event (·.grantHost n evict allow)).flagged l .floor := by
  have body := grantHost_room (evict := evict) n room allow
  obtain ⟨floor, -, flagged⟩ := grant_event (body := fun c => c.grantHost n evict allow) (.start s) rfl rfl free body
  have st : ((Claim.start s).grantHost n evict allow).st = ((Claim.start s).grantSpeak n .host allow).st := by rw [body]
  exact ⟨floor, grant_event_count (body := fun c => c.grantHost n evict allow) (.start s) rfl free known st, flagged⟩

include known in
/-- The grant in the place of the oldest SPEAK slot. -/
theorem grantHost_evict_event (full : s.floor.openCount = s.floor.policy.floorMax) {i j : Fin 6} {d : DelegateSlot}
    (oldest : s.floor.oldestSpeak s.time = some (i, d)) (free : (s.slotClosed i d 4).floor.freeSlot = some j) (allow : Option Nat) :
    (s.event (·.grantHost n true allow)).floor = ((s.slotClosed i d 4).speakGranted j n .host (s.grantAllowance n allow)).floor ∧
      (s.event (·.grantHost n true allow)).report = ((s.slotClosed i d 4).speakGranted j n .host (s.grantAllowance n allow)).report ∧
      ((s.event (·.grantHost n true allow)).seat n).grantCount = min 15 ((s.seat n).grantCount + 1) := by
  have body := grantHost_evict n full oldest allow
  have closed : ((Claim.start s).closeSlot i .evict).Shows (s.slotClosed i d 4) :=
    (Claim.Shows.start s).closeSlot (Floor.slots_of_oldestSpeak oldest).1 .evict
  have requests : (s.slotClosed i d 4).floor.requests = s.floor.requests := State.slotClosed_requests _ _ _ _
  have seats : ((Claim.start s).closeSlot i .evict).st.seats = s.seats := Claim.closeSlot_seats _ _ _
  have took : ((Claim.start s).closeSlot i .evict).tookEntry = false := Claim.closeSlot_tookEntry _ _ _
  have allowance : (s.slotClosed i d 4).grantAllowance n allow = s.grantAllowance n allow := by
    unfold State.grantAllowance Floor.requestOf
    rw [requests, (s.slotClosed_steady i d 4).policy]
  obtain ⟨floor, report, -⟩ := grant_event (body := fun c => c.grantHost n true allow) closed requests took free body
  rw [allowance] at floor report
  have st : ((Claim.start s).grantHost n true allow).st = (((Claim.start s).closeSlot i .evict).grantSpeak n .host allow).st := by
    rw [body]
  exact ⟨floor, report, grant_event_count (body := fun c => c.grantHost n true allow) closed seats free known st⟩

end Grant

/-- The floor after a grant. -/
theorem State.speakGranted_floor_eq (x : State) (j : Fin 6) (n : Nat) (o : Origin) (a : Nat) :
    (x.speakGranted j n o a).floor = { x.floor with
      requests := x.floor.requests.filter (·.seat ≠ n)
      listVersion := if x.floor.requestOf n = none then x.floor.listVersion else x.floor.listVersion + 1
      slots := x.floor.slots.set j (some (slotNow x.time x.floor.policy.warnLead n .speak o a)) } := by
  by_cases none_ : x.floor.requestOf n = none
  · unfold speakGranted
    dsimp only
    rw [if_pos none_, if_pos none_, Floor.filter_of_requestOf_none none_]
    rfl
  · rw [State.speakGranted_floor none_, if_neg none_]

/-! ### NEXT (R63) -/

section Next

variable {s : State} {r : CaptureRecord}

/-- The rule of a NEXT press. -/
theorem press_next (may : s.mayPress r.seat .next) :
    (Claim.drained s).press r.seat r.stamp .next = (Claim.drained s).pressNext r.seat :=
  Claim.press_eq (c := Claim.drained s) may r.stamp

/-- A NEXT press that is refused. -/
theorem pressNext_refused {why : PressRefusal}
    (h : s.floor.policy.chairNext = false ∧ why = .policy ∨ s.floor.policy.chairNext = true ∧
      (s.floor.phase ≠ .openFloor ∧ why = .phase ∨ s.floor.phase = .openFloor ∧
        (s.floor.policy.floorMax ≤ s.floor.openCount ∧ why = .floorFull ∨
          s.floor.openCount < s.floor.policy.floorMax ∧ s.firstPresent = none ∧ why = .empty))) (n : Nat) :
    (Claim.drained s).pressNext n = (Claim.drained s).refuse n .next why := by
  have floor : (Claim.drained s).floor = s.floor := rfl
  have policy : (Claim.drained s).policy = s.floor.policy := rfl
  have first : (Claim.drained s).st.firstPresent = s.firstPresent := rfl
  unfold Claim.pressNext
  rw [floor, policy, first]
  rcases h with ⟨off, rfl⟩ | ⟨on, ⟨shut, rfl⟩ | ⟨open_, ⟨full, rfl⟩ | ⟨room, none_, rfl⟩⟩⟩
  · simp [off]
  · simp [on, shut]
  · simp [on, open_, full]
  · rw [none_]
    simp [on, open_, Nat.not_le.mpr room]

/-- A NEXT press that grants. -/
theorem pressNext_grants (on : s.floor.policy.chairNext = true) (open_ : s.floor.phase = .openFloor)
    (room : s.floor.openCount < s.floor.policy.floorMax) {e : RequestEntry} (first : s.firstPresent = some e) (n : Nat) :
    (Claim.drained s).pressNext n = (Claim.drained s).grantSpeak e.seat .chair none := by
  have floor : (Claim.drained s).floor = s.floor := rfl
  have policy : (Claim.drained s).policy = s.floor.policy := rfl
  have here : (Claim.drained s).st.firstPresent = s.firstPresent := rfl
  unfold Claim.pressNext
  rw [floor, policy, here, first]
  simp [on, open_, Nat.not_le.mpr room]

/-- The grant of a NEXT press, with what follows. -/
theorem onePress_grants {b : Button} {e : RequestEntry} (first : s.firstPresent = some e) {j : Fin 6} (free : s.floor.freeSlot = some j)
    {o : Origin} (grants : (Claim.drained s).press r.seat r.stamp b = (Claim.drained s).grantSpeak e.seat o none) :
    (s.speakGranted j e.seat o (s.grantAllowance e.seat none)).Settles (s.afterPress r b) ∧
      ((s.afterPress r b).seat e.seat).grantCount = min 15 ((s.seat e.seat).grantCount + 1) := by
  have drained := Claim.Shows.drained s
  constructor
  · have shown : ((Claim.drained s).press r.seat r.stamp b).Shows (s.speakEntered j e.seat o (s.grantAllowance e.seat none)) := by
      rw [grants]
      exact drained.grantSpeak free e.seat o none
    have settles := onePress_counted shown (by
      unfold State.speakEntered
      split <;> rfl)
    rw [grants, grantSpeak_counted drained rfl rfl free] at settles
    exact settles
  · have known := seatIndex_of_isHere (s := s) (List.find?_some (p := fun x : RequestEntry => s.isHere x.seat) first)
    refine grant_event_count (s := s.intakeTaken) (o := o) (allow := none) (body := fun _ => Claim.pressed s r b) drained rfl free known ?_
    show ((Claim.drained s).press r.seat r.stamp b).st = _
    rw [grants]

end Next

/-- Settles O35: the checks of R54 in their order, and the grant, which counts the version where it takes an entry. -/
theorem grantOpensSlot : Obligations.GrantOpensSlot := by
  unfold Obligations.GrantOpensSlot
  refine ⟨fun s l c hc row n i a low up which open_ room free allow => ?_, fun s l c hc row which => ?_, fun s r one may => ?_⟩
  · have names : s.grantNames c n := by
      rcases which with ⟨-, next, first⟩ | ⟨-, seat⟩
      · exact .inl ⟨next, first⟩
      · exact .inr seat
    have target : u8 c.payload 0 = 0 ∨ u8 c.payload 0 = 1 ∧ 1 ≤ u16 c.payload 1 ∧ u16 c.payload 1 ≤ 480 := by
      rcases which with ⟨-, next, -⟩ | ⟨-, seat, own, -⟩
      · exact .inl next
      · exact .inr ⟨seat, own ▸ low, own ▸ up⟩
    have within : (c.payload.getD 3 0).getLsbD 1 = false ∨ u16 c.payload 4 ≤ 36000 := allow.imp And.left fun h => h.2.1
    have ticks : a = s.grantAllowance n (grantAllow c.payload) := by
      unfold State.grantAllowance grantAllow
      rcases allow with ⟨off, rfl⟩ | ⟨given, -, rfl⟩
      · rw [off]; rfl
      · rw [given]; rfl
    have selector : row = .grantNext l ∧ u8 c.payload 0 ≠ 1 ∨ row = .grantSeat l ∧ u8 c.payload 0 ≠ 0 :=
      which.imp (fun h => ⟨h.1, by omega⟩) fun h => ⟨h.1, by omega⟩
    obtain ⟨seatOf, known⟩ := grantSeatOf_named names
    obtain ⟨floor, count, flagged⟩ := grantHost_room_event (evict := (c.payload.getD 3 0).getLsbD 0) known free room (grantAllow c.payload)
    rw [exec_grant hc selector, grantAction_eq s target within, if_neg (not_not.mpr open_), seatOf]
    dsimp only
    rw [fullForGrant_room room]
    refine ⟨_, rfl, ?_, count, flagged⟩
    rw [ticks]
    exact floor.trans (State.speakGranted_floor_eq _ _ _ _ _)
  · rw [exec_grant hc which]
    refine ⟨fun beyond => by rw [grantAction_badArg beyond], fun seat outside => by rw [grantAction_seatRange seat outside], fun target =>
      ⟨fun given long => by rw [grantAction_allowRange target given long], fun within => ?_⟩⟩
    rw [grantAction_eq s target within]
    refine ⟨fun shut => by rw [if_pos shut], fun open_ => ?_⟩
    rw [if_neg (not_not.mpr open_)]
    refine ⟨fun next none_ => by rw [grantSeatOf_next s next none_], fun seat n hn => ?_, fun ⟨m, names⟩ => ?_⟩
    · have named : grantTarget c.payload = .seat n := by
        rw [← hn]
        exact if_pos seat
      obtain ⟨unbound, cls, delegate⟩ := grantSeatOf_seat s n
      rw [named]
      refine ⟨fun h => by rw [unbound h], fun h g => by rw [cls h g], fun h => ?_⟩
      obtain ⟨disabled, enabled⟩ := delegate h
      exact ⟨fun h => by rw [disabled h], fun h =>
        ⟨fun away => by rw [(enabled h).1 away], fun here idle waiting => by rw [(enabled h).2 here idle waiting]⟩⟩
    · refine ⟨fun keeps full => ?_, fun evicts full => ?_, fun n i j d a names evicts full oldest free ticks => ?_⟩
      · rw [(grantSeatOf_named names).1, keeps]
        have full : s.floor.fullForGrant false = true := by simpa [Floor.fullForGrant] using full
        dsimp only
        rw [if_pos full]
      · rw [(grantSeatOf_named names).1, evicts]
        have full : s.floor.fullForGrant true = true := by
          unfold Floor.fullForGrant
          rw [Floor.oldestSpeak_none] at full
          simpa using full
        dsimp only
        rw [if_pos full]
      · obtain ⟨seatOf, known⟩ := grantSeatOf_named names
        have room : ¬ s.floor.fullForGrant true = true := by
          have some_ : (s.floor.openSlots.any fun x => x.2.kind = .speak) = true := by
            rw [← Bool.not_eq_false, ← Floor.oldestSpeak_none (now := s.time), oldest]
            simp
          unfold Floor.fullForGrant
          rw [some_]
          simp [full]
        obtain ⟨floor, report, count⟩ := grantHost_evict_event known full oldest free (grantAllow c.payload)
        have allowance : a = s.grantAllowance n (grantAllow c.payload) := by
          rw [ticks]
          unfold State.grantAllowance grantAllow
          split <;> rfl
        rw [seatOf, evicts]
        dsimp only
        rw [if_neg room, allowance]
        exact ⟨_, rfl, floor, report, count⟩
  · refine ⟨s.afterPress r .next, exec_onePress one, fun off => ?_, fun on => ⟨fun shut => ?_, fun open_ => ⟨fun full => ?_, fun room =>
      ⟨fun none_ => ?_, fun e j first free => ?_⟩⟩⟩⟩
    · exact onePress_refuses one ((press_next may).trans (pressNext_refused (.inl ⟨off, rfl⟩) r.seat))
    · exact onePress_refuses one ((press_next may).trans (pressNext_refused (.inr ⟨on, .inl ⟨shut, rfl⟩⟩) r.seat))
    · exact onePress_refuses one ((press_next may).trans (pressNext_refused (.inr ⟨on, .inr ⟨open_, .inl ⟨full, rfl⟩⟩⟩) r.seat))
    · exact onePress_refuses one
        ((press_next may).trans (pressNext_refused (.inr ⟨on, .inr ⟨open_, .inr ⟨room, none_, rfl⟩⟩⟩) r.seat))
    · exact onePress_grants first free ((press_next may).trans (pressNext_grants on open_ room first r.seat))

end Sys2Proof.Machine
end

section
/-! SUPPORT. REPLY REMOVE and REPLY END (R98, R99) and the RPL press (R89). -/

namespace Sys2Proof.Machine

/-! ### The commands -/

section ReplyCommand

variable {s : State}

/-- What a seat's reply entry leaves behind it, for this reason code (R88). -/
def State.replyLeft (s : State) (n target : Nat) (why : Byte) : State :=
  ((s.notify ⟨.replyDropped, .seat n, some why, [detailOf target]⟩).raise .reply).modFloor fun f =>
    { f with replies := f.replies.filter (·.seat ≠ n) }

/-- The event of a reply entry's removal is a serve point (R88, R92). -/
theorem dropReply_event {n : Nat} {e : ReplyEntry} (entry : s.floor.replyOf n = some e) (why : Reason) :
    (s.replyLeft n e.target (codeIn reasonRow why)).roundSettles (s.event (·.dropReply n why)) ∧
      ∀ l, (s.event (·.dropReply n why)).flagged l .reply := by
  have shown := (Claim.Shows.start s).dropReply entry why
  have body : (Claim.start s).dropReply n why = ((((((Claim.start s).modFloor fun f => { f with replies := f.replies.filter (·.seat ≠ n) }).notify
      (Claim.replyDropped n e.target why)).raise .reply).touch n).servePoint) := by
    unfold Claim.dropReply
    rw [show (Claim.start s).floor.replyOf n = some e from entry]
  have fill : ((Claim.start s).dropReply n why).fillDue = false := by rw [body]; simp
  have serve : ((Claim.start s).dropReply n why).serveDue = true := by rw [body]; rfl
  have here : ((Claim.start s).dropReply n why).st.firstPresentReply = (s.replyLeft n e.target (codeIn reasonRow why)).firstPresentReply := by
    refine State.firstPresentReply_congr (congrArg Floor.replies shown.floor) fun m => ?_
    exact Claim.isHere_of_frame (Claim.dropReply_frame (c := .start s) (.refl s) n why) m
  have settles := State.event_roundSettles (body := fun c => c.dropReply n why) shown (fun _ => fill) (fun _ => .inr serve) here
  rw [State.versionDue_kept (s := s) shown rfl (Claim.dropReply_tookEntry _ _ _)] at settles
  refine ⟨settles, fun l => State.event_flagged ?_⟩
  exact (State.flagged_congr shown.report l .reply).mpr (State.flagged_raise _ l .reply)

/-- The event of the reply list emptied is a serve point (R88, R92). -/
theorem clearReplies_event (some_ : s.floor.replies ≠ []) :
    (s.repliesDropped 2).roundSettles (s.event (·.clearReplies .host)) ∧ ∀ l, (s.event (·.clearReplies .host)).flagged l .reply := by
  have shown : ((Claim.start s).clearReplies .host).Shows (s.repliesDropped 2) := (Claim.Shows.start s).clearReplies .host
  have body : (Claim.start s).clearReplies .host = (((s.floor.replies.foldl
      (fun c e => (c.notify (Claim.replyDropped e.seat e.target .host)).touch e.seat)
        ((Claim.start s).modFloor fun f => { f with replies := [] })).raise .reply).servePoint) := by
    unfold Claim.clearReplies
    exact if_neg some_
  have fill : ((Claim.start s).clearReplies .host).fillDue = false := by
    rw [body]
    exact (Claim.SameDue.foldl (fun c e => ⟨by simp, by simp⟩) s.floor.replies _).fill
  have serve : ((Claim.start s).clearReplies .host).serveDue = true := by rw [body]; rfl
  obtain ⟨floor, seats, -⟩ := s.repliesDropped_kept 2
  have here : ((Claim.start s).clearReplies .host).st.firstPresentReply = (s.repliesDropped 2).firstPresentReply := by
    refine State.firstPresentReply_congr (congrArg Floor.replies shown.floor) fun m => ?_
    rw [Claim.isHere_of_frame (Claim.clearReplies_frame (c := .start s) (.refl s) .host) m]
    unfold State.isHere State.seat
    rw [seats]
  have settles := State.event_roundSettles (body := fun c => c.clearReplies .host) shown (fun _ => fill) (fun _ => .inr serve) here
  rw [State.versionDue_kept (s := s) shown (by rw [floor]) (Claim.clearReplies_tookEntry _ _)] at settles
  refine ⟨settles, fun l => State.event_flagged ?_⟩
  refine (State.flagged_congr shown.report l .reply).mpr ?_
  unfold State.repliesDropped
  rw [if_neg some_]
  exact State.flagged_raise _ l .reply

/-- REPLY REMOVE of a waiting seat (R98). -/
theorem replyRemoveAction_drops {p : List Byte} {e : ReplyEntry} (low : 1 ≤ u16 p 0) (up : u16 p 0 ≤ 480)
    (entry : s.floor.replyOf (u16 p 0) = some e) : replyRemoveAction p s =
      (s.event (·.dropReply (u16 p 0) .host), .of .done [be8 (s.event (·.dropReply (u16 p 0) .host)).floor.replies.length]) := by
  unfold replyRemoveAction
  dsimp only
  rw [if_neg (seatOk_inside low up), entry]
  rfl

/-- The row of REPLY REMOVE. -/
theorem exec_replyRemove {l : Link} {c : HeldCommand} (hc : s.Takes l c 0x41 true 2) :
    exec (.replyRemove l) s = .next ((replyRemoveAction c.payload s).1.answer l c (replyRemoveAction c.payload s).2) :=
  congrArg _ (hc.acts replyRemoveAction)

end ReplyCommand

/-! ### RPL (R89) -/

section Reply

variable {s : State} {r : CaptureRecord}

/-- The rule of an RPL press. -/
theorem press_rpl (may : s.mayPress r.seat .rpl) :
    (Claim.drained s).press r.seat r.stamp .rpl = (Claim.drained s).pressRpl r.seat r.stamp :=
  Claim.press_eq (c := Claim.drained s) may r.stamp

/-- An RPL press of a seat found somewhere. -/
theorem pressRpl_busy (n : Nat) (stamp : ChamberTime) :
    (s.floorState n = .replyWaiting → (Claim.drained s).pressRpl n stamp = (Claim.drained s).dropReply n .cancel) ∧
      (s.floorState n = .waiting ∨ s.floorState n = .live →
        (Claim.drained s).pressRpl n stamp = (Claim.drained s).refuse n .rpl .seatBusy) ∧
      (s.floorState n = .held → (Claim.drained s).pressRpl n stamp = (Claim.drained s).refuse n .rpl .held) ∧
      (s.floorState n = .idle → (Claim.drained s).pressRpl n stamp = (Claim.drained s).joinReplies n stamp) := by
  have found : (Claim.drained s).st.floorState n = s.floorState n := rfl
  unfold Claim.pressRpl
  rw [found]
  exact ⟨fun h => by rw [h], fun h => by rcases h with h | h <;> rw [h], fun h => by rw [h], fun h => by rw [h]⟩

/-- The join checks of an RPL press (R89). -/
theorem joinReplies_cases (n : Nat) (stamp : ChamberTime) :
    (s.floor.phase ≠ .openFloor → (Claim.drained s).joinReplies n stamp = (Claim.drained s).refuse n .rpl .phase) ∧
      (s.floor.phase = .openFloor →
        (s.floor.principal s.time = none → (Claim.drained s).joinReplies n stamp = (Claim.drained s).refuse n .rpl .noTarget) ∧
        ∀ i d, s.floor.principal s.time = some (i, d) →
          (s.floor.policy.replyMax ≤ s.floor.replies.length →
            (Claim.drained s).joinReplies n stamp = (Claim.drained s).refuse n .rpl .replyFull) ∧
          (s.floor.replies.length < s.floor.policy.replyMax → (Claim.drained s).joinReplies n stamp =
            ((((Claim.drained s).modFloor fun f => { f with replies := f.replies ++ [⟨n, d.seat, stamp⟩] }).notify
              (.ofSeat .replyQueued n none [detailOf d.seat, detailOf s.floor.replies.length])).raise .reply).touch n)) := by
  have floor : (Claim.drained s).floor = s.floor := rfl
  have policy : (Claim.drained s).policy = s.floor.policy := rfl
  have time : (Claim.drained s).time = s.time := rfl
  unfold Claim.joinReplies
  rw [floor, policy, time]
  refine ⟨fun shut => if_pos shut, fun open_ => ?_⟩
  rw [if_neg (not_not.mpr open_)]
  exact ⟨fun none_ => by rw [none_], fun i d principal => by
    rw [principal]
    exact ⟨fun full => if_pos full, fun room => if_neg (Nat.not_le.mpr room)⟩⟩

/-- An RPL press of a waiting seat takes its entry back. -/
theorem onePress_leavesReplies {e : ReplyEntry} (entry : s.floor.replyOf r.seat = some e)
    (drops : (Claim.drained s).press r.seat r.stamp .rpl = (Claim.drained s).dropReply r.seat .cancel) :
    (s.replyLeft r.seat e.target 13).Settles (s.afterPress r .rpl) :=
  onePress_settles (by rw [drops]; exact (Claim.Shows.drained s).dropReply entry .cancel) rfl rfl
    (by rw [drops, Claim.dropReply_tookEntry]; rfl)

/-- An RPL press that joins the reply list. -/
theorem onePress_joinsReplies {target : Nat}
    (joins : (Claim.drained s).press r.seat r.stamp .rpl =
      ((((Claim.drained s).modFloor fun f => { f with replies := f.replies ++ [⟨r.seat, target, r.stamp⟩] }).notify
        (.ofSeat .replyQueued r.seat none [detailOf target, detailOf s.floor.replies.length])).raise .reply).touch r.seat) :
    (((s.notify ⟨.replyQueued, .seat r.seat, none, [detailOf target, detailOf s.floor.replies.length]⟩).raise .reply).modFloor
      fun f => { f with replies := f.replies ++ [⟨r.seat, target, r.stamp⟩] }).Settles (s.afterPress r .rpl) := by
  have joined := ((((Claim.Shows.drained s).modFloor fun f => { f with replies := f.replies ++ [⟨r.seat, target, r.stamp⟩] }).notify
    (.ofSeat .replyQueued r.seat none [detailOf target, detailOf s.floor.replies.length])).raise .reply).touch r.seat
  exact onePress_settles (by rw [joins]; exact ⟨joined.floor, joined.report, joined.time⟩) rfl rfl (by rw [joins]; simp; rfl)

end Reply

/-- Settles O39: the entries that leave, and the serve point that follows. -/
theorem replyCommands : Obligations.ReplyCommands := by
  unfold Obligations.ReplyCommands
  refine ⟨fun s l c hc => ?_, fun s l c hc => ?_, fun s l c e hc low up entry => ?_, fun s l c hc seat n i d hn low up slot hd => ?_,
    fun s r one may => ?_⟩
  · rw [exec_replyRemove hc]
    refine ⟨fun outside => ?_, fun low up none_ => ?_, fun e low up entry => ?_⟩
    · simp only [replyRemoveAction, if_pos (seatOk_outside outside), refuseWith]
    · simp [replyRemoveAction, seatOk_inside low up, none_, refuseWith]
    · obtain ⟨settles, flagged⟩ := dropReply_event entry .host
      rw [replyRemoveAction_drops low up entry]
      exact ⟨_, rfl, flagged, fun open_ => settles.1 (by rw [show (s.replyLeft _ _ _).floor.phase = s.floor.phase from rfl, open_]; decide)⟩
  · have acts : exec (.replyEnd l) s = .next ((replyEndAction c.payload s).1.answer l c (replyEndAction c.payload s).2) :=
      congrArg _ (hc.acts replyEndAction)
    rw [acts]
    refine ⟨fun none_ => by simp only [replyEndAction, if_pos none_], fun some_ => ?_⟩
    obtain ⟨settles, flagged⟩ := clearReplies_event some_
    have floor := (s.repliesDropped_kept 2).1
    have dropped : s.repliesDropped 2 = _ := if_neg some_
    simp only [replyEndAction, if_neg some_]
    refine ⟨_, rfl, flagged, fun open_ => ?_, dropped ▸ settles⟩
    exact (settles.1 (by rw [floor, open_]; decide)).1.trans floor
  · rw [exec_replyRemove hc, replyRemoveAction_drops low up entry]
    exact ⟨_, rfl, (dropReply_event entry .host).1⟩
  · rw [exec_closeSeat hc (by omega), closeAction_seat s seat, hn, closeSeatAction_slot low up slot]
    exact ⟨_, rfl, closeSlot_settles hd .host⟩
  · refine ⟨s.afterPress r .rpl, exec_onePress one, fun e found entry => ?_, fun found => ?_, fun found => ?_, fun found => ?_⟩
    · exact onePress_leavesReplies entry ((press_rpl may).trans ((pressRpl_busy r.seat r.stamp).1 found))
    · exact onePress_refuses one ((press_rpl may).trans ((pressRpl_busy r.seat r.stamp).2.1 found))
    · exact onePress_refuses one ((press_rpl may).trans ((pressRpl_busy r.seat r.stamp).2.2.1 found))
    · have joins := (press_rpl may).trans ((pressRpl_busy r.seat r.stamp).2.2.2 found)
      obtain ⟨shut, isOpen⟩ := joinReplies_cases (s := s) r.seat r.stamp
      refine ⟨fun h => onePress_refuses one (joins.trans (shut h)), fun h => ?_⟩
      obtain ⟨noTarget, target⟩ := isOpen h
      refine ⟨fun h => onePress_refuses one (joins.trans (noTarget h)), fun i d principal => ?_⟩
      obtain ⟨full, room⟩ := target i d principal
      exact ⟨fun h => onePress_refuses one (joins.trans (full h)), fun h => onePress_joinsReplies (joins.trans (room h))⟩

end Sys2Proof.Machine
end

section
/-! SUPPORT. Sweeps: their start, their POLLs, the waiting beats and the pending entries (R143 to R147). -/

namespace Sys2Proof.Machine

/-- A POLL has 5 bytes. -/
theorem pollFrame_length (p : Nat) (e : Bool) (i : Image) : (pollFrame p e i).length = 5 := rfl

/-- A BEAT has 4 bytes. -/
theorem beatFrame_length (phase : BitVec 2) : (beatFrame phase).length = 4 := rfl

/-- A POLL begun: its frame, the line until its end and its wait. -/
theorem TrunkEngine.begin_poll (e : TrunkEngine) (now : Nat) (probe : Bool) (p : Nat) (open_ : Bool) (q : Nat) (ack : Bool) (i : Image) :
    e.begin now probe p open_ (pollFrame q ack i) = { e with
      lineFrame := pollFrame q ack i, lineUntil := max now e.lineUntil + 50
      inFlight := some ⟨probe, p, open_, max now e.lineUntil + 50 + e.waitInForce⟩ } := rfl

/-- Settles O50: each row by the plan, the transaction in flight, the waiting beat and the pending list. -/
theorem sweeps : Obligations.Sweeps := by
  unfold Obligations.Sweeps
  refine ⟨fun tr s plan idle => ?_, fun tr next served s plan idle noBeat inside clear => ?_, fun tr phase s beat idle => ?_,
    fun tr next served x rest s plan idle noBeat inside few pending => ?_⟩
  · let s1 : State := s.reachMoment ((s.trunk tr).sweepStartedAt + (s.trunk tr).periodInForce * 1000)
    have step : exec (.sweepStart tr) s = .next (s1.modTrunk tr (·.startSweep s1.now)) := by
      show execSweepStart tr s = _
      unfold execSweepStart
      dsimp only
      rw [if_pos ⟨plan, idle⟩]
    refine ⟨_, step, rfl, ?_⟩
    rw [State.trunk_modTrunk_self]
    rfl
  · show execSweepPoll tr s = _
    unfold execSweepPoll
    dsimp only
    rw [plan, idle, noBeat]
    dsimp only
    rw [if_pos ⟨inside, clear⟩]
    rfl
  · show execSendBeat tr s = _
    unfold execSendBeat
    dsimp only
    rw [beat, idle]
    rfl
  · have step : exec (.servePending tr) s = .next (s.modTrunk tr fun e => { e.begin s.now false x.position (s.imageAt tr x.position).micOpen
        (if x.label then
          labelFrame x.position ((s.trunk tr).station x.position).toggle (s.imageAt tr x.position) (s.labelAt tr x.position)
        else pollFrame x.position ((s.trunk tr).station x.position).toggle (s.imageAt tr x.position)) with
        pending := rest, plan := .sweeping next (served + 1) }) := by
      show execServePending tr s = _
      unfold execServePending
      dsimp only
      rw [plan, idle, noBeat, pending]
      dsimp only
      rw [if_pos ⟨inside, few⟩]
    refine ⟨_, step, ?_⟩
    rw [State.trunk_modTrunk_self]
    exact ⟨rfl, rfl, rfl, rfl, rfl, rfl⟩

end Sys2Proof.Machine
end

section
/-! SUPPORT. What the operations of a claim leave of the images and the trunks: an operation changes no image and no trunk, and notes
every seat whose image by R16's table it changes (R16, R19). Told says of a seat that it is noted or shows what the law of the images
asks; Tells and Floored say of an operation that it keeps this. -/

namespace Sys2Proof.Machine

/-! ### Where a seat is found -/

theorem Floor.slotOf_eq_none {f : Floor} {n : Nat} : f.slotOf n = none ↔ ∀ (i : Fin 6) (d : DelegateSlot), f.slots[i] = some d → d.seat ≠ n := by
  simp [Floor.slotOf, List.find?_eq_none, slotPlaces, Option.any_eq_true]

theorem Floor.chairOf_eq_none {f : Floor} {n : Nat} : f.chairOf n = none ↔ ∀ (i : Fin 2) (d : ChairSlot), f.chairs[i] = some d → d.seat ≠ n := by
  simp [Floor.chairOf, List.find?_eq_none, chairPlaces, Option.any_eq_true]

theorem Floor.replyOf_eq_none {f : Floor} {n : Nat} : f.replyOf n = none ↔ ∀ e ∈ f.replies, e.seat ≠ n := by
  simp [Floor.replyOf, List.find?_eq_none]

/-- A frame holds the seats of its records and entries. -/
theorem StackFrame.holds_iff {fr : StackFrame} {n : Nat} : fr.holds n = true ↔ n ∈ Claim.heldSeats fr := by
  simp [StackFrame.holds, Claim.heldSeats]

/-- Two floors on which a seat is found in the same places. -/
structure Floor.Alike (f g : Floor) (n : Nat) : Prop where
  slot : g.slotOf n = none ↔ f.slotOf n = none
  chair : g.chairOf n = none ↔ f.chairOf n = none
  request : g.requestOf n = none ↔ f.requestOf n = none
  reply : g.replyOf n = none ↔ f.replyOf n = none
  held : g.stack.any (·.holds n) = f.stack.any (·.holds n)

/-- The five places of a floor in which a seat is found. -/
def Floor.places (f : Floor) : Vector (Option DelegateSlot) 6 × Vector (Option ChairSlot) 2 × List RequestEntry × List ReplyEntry × List StackFrame :=
  (f.slots, f.chairs, f.requests, f.replies, f.stack)

namespace Floor.Alike

variable {f g : Floor} {n : Nat}

theorem refl (f : Floor) (n : Nat) : f.Alike f n := ⟨.rfl, .rfl, .rfl, .rfl, rfl⟩

theorem ofPlaces (h : g.places = f.places) (n : Nat) : f.Alike g n := by
  unfold Floor.places at h
  simp only [Prod.mk.injEq] at h
  obtain ⟨slots, chairs, requests, replies, stack⟩ := h
  constructor <;> simp only [Floor.slotOf, Floor.chairOf, Floor.requestOf, Floor.replyOf, slots, chairs, requests, replies, stack]

/-- The delegate slots changed. -/
theorem ofSlots {v : Vector (Option DelegateSlot) 6} (h : ({ f with slots := v } : Floor).slotOf n = none ↔ f.slotOf n = none) :
    f.Alike { f with slots := v } n := ⟨h, .rfl, .rfl, .rfl, rfl⟩

/-- The chair slots changed. -/
theorem ofChairs {v : Vector (Option ChairSlot) 2} (h : ({ f with chairs := v } : Floor).chairOf n = none ↔ f.chairOf n = none) :
    f.Alike { f with chairs := v } n := ⟨.rfl, h, .rfl, .rfl, rfl⟩

/-- The request list changed. -/
theorem ofRequests {l : List RequestEntry} (h : (∃ e ∈ l, e.seat = n) ↔ ∃ e ∈ f.requests, e.seat = n) :
    f.Alike { f with requests := l } n := by
  refine ⟨.rfl, .rfl, ?_, .rfl, rfl⟩
  rw [Floor.requestOf_eq_none, Floor.requestOf_eq_none]
  simpa using not_congr h

/-- The reply list changed. -/
theorem ofReplies {l : List ReplyEntry} (h : (∃ e ∈ l, e.seat = n) ↔ ∃ e ∈ f.replies, e.seat = n) :
    f.Alike { f with replies := l } n := by
  refine ⟨.rfl, .rfl, .rfl, ?_, rfl⟩
  rw [Floor.replyOf_eq_none, Floor.replyOf_eq_none]
  simpa using not_congr h

/-- The frames changed. -/
theorem ofStack {l : List StackFrame} (h : l.any (·.holds n) = f.stack.any (·.holds n)) : f.Alike { f with stack := l } n :=
  ⟨.rfl, .rfl, .rfl, .rfl, h⟩

theorem trans {h : Floor} (a : f.Alike g n) (b : g.Alike h n) : f.Alike h n :=
  ⟨b.slot.trans a.slot, b.chair.trans a.chair, b.request.trans a.request, b.reply.trans a.reply, b.held.trans a.held⟩

/-- A delegate place changed whose slots, before and after, are none of the seat's. -/
theorem setSlot {i : Fin 6} {x : Option DelegateSlot} (before : ∀ d, f.slots[i] = some d → d.seat ≠ n) (after : ∀ d, x = some d → d.seat ≠ n) :
    f.Alike { f with slots := f.slots.set i x } n := by
  refine .ofSlots ?_
  rw [Floor.slotOf_eq_none, Floor.slotOf_eq_none]
  constructor
  · intro h j d hd
    by_cases own : j = i
    · subst own
      exact before d hd
    · refine h j d ?_
      simp only [Fin.getElem_fin]
      rw [Vector.getElem_set_ne _ _ (fun e => own (Fin.ext e.symm))]
      exact hd
  · intro h j d hd
    by_cases own : j = i
    · subst own
      simp only [Fin.getElem_fin, Vector.getElem_set_self] at hd
      exact after d hd
    · simp only [Fin.getElem_fin] at hd
      rw [Vector.getElem_set_ne _ _ (fun e => own (Fin.ext e.symm))] at hd
      exact h j d hd

/-- A chair place changed whose slots, before and after, are none of the seat's. -/
theorem setChair {i : Fin 2} {x : Option ChairSlot} (before : ∀ d, f.chairs[i] = some d → d.seat ≠ n) (after : ∀ d, x = some d → d.seat ≠ n) :
    f.Alike { f with chairs := f.chairs.set i x } n := by
  refine .ofChairs ?_
  rw [Floor.chairOf_eq_none, Floor.chairOf_eq_none]
  constructor
  · intro h j d hd
    by_cases own : j = i
    · subst own
      exact before d hd
    · refine h j d ?_
      simp only [Fin.getElem_fin]
      rw [Vector.getElem_set_ne _ _ (fun e => own (Fin.ext e.symm))]
      exact hd
  · intro h j d hd
    by_cases own : j = i
    · subst own
      simp only [Fin.getElem_fin, Vector.getElem_set_self] at hd
      exact after d hd
    · simp only [Fin.getElem_fin] at hd
      rw [Vector.getElem_set_ne _ _ (fun e => own (Fin.ext e.symm))] at hd
      exact h j d hd

end Floor.Alike

/-- Two records of a seat of which the law of the images asks the same. -/
structure SeatRecord.Alike (r q : SeatRecord) : Prop where
  image : q.image = r.image
  binding : q.binding = r.binding
  refusal : r.refusalUntil ≠ none → q.refusalUntil ≠ none

theorem SeatRecord.Alike.refl (r : SeatRecord) : r.Alike r := ⟨rfl, rfl, id⟩

/-! ### The law of the images, seat by seat -/

/-- The seat has the first present entry. -/
def State.leads (s : State) (n : Nat) : Bool := s.firstPresent.any (·.seat = n)

/-- What the law of the images asks of one seat. -/
structure State.ImageOk (s : State) (n : Nat) : Prop where
  mic : (s.seat n).image.micOpen = true ↔ (s.seat n).binding ≠ none ∧ (s.floor.slotOf n ≠ none ∨ s.floor.chairOf n ≠ none)
  unbound : (s.seat n).binding = none → (s.seat n).image.lamp = .off
  slot : (s.seat n).binding ≠ none → s.floor.slotOf n ≠ none → (s.seat n).image.lamp = .live ∨ (s.seat n).image.lamp = .warn
  chair : (s.seat n).binding ≠ none → s.floor.slotOf n = none → s.floor.chairOf n ≠ none → (s.seat n).image.lamp = .live
  list : (s.seat n).binding ≠ none → s.floor.slotOf n = none → s.floor.chairOf n = none →
    (s.seat n).image.lamp = s.listLamp n ∨ (s.seat n).image.lamp = .refused ∧ (s.seat n).refusalUntil ≠ none

theorem State.imageLaw_iff {s : State} : s.ImageLaw ↔ ∀ n, s.ImageOk n :=
  ⟨fun h n => ⟨h.mic n, h.unbound n, h.slot n, h.chair n, h.list n⟩, fun h =>
    ⟨fun n => (h n).mic, fun n => (h n).unbound, fun n => (h n).slot, fun n => (h n).chair, fun n => (h n).list⟩⟩

/-- The lamp of a seat rests on where it is found and on whether it leads. -/
theorem State.listLamp_congr {s t : State} {n : Nat} (alike : s.floor.Alike t.floor n) (leads : t.leads n = s.leads n) :
    t.listLamp n = s.listLamp n := by
  have some_ {α β : Type} {x : Option α} {y : Option β} (h : x = none ↔ y = none) : x.isSome = y.isSome := by
    cases x <;> cases y <;> simp_all
  have found : t.floorState n = s.floorState n := by
    unfold floorState
    rw [some_ alike.request, some_ alike.reply, some_ alike.slot, some_ alike.chair, alike.held]
  unfold State.leads at leads
  unfold listLamp
  rw [found, leads]

/-- What the law asks of a seat rests on its record, on where it is found and on whether it leads. -/
theorem State.ImageOk.congr {s t : State} {n : Nat} (h : s.ImageOk n) (seat : (s.seat n).Alike (t.seat n))
    (alike : s.floor.Alike t.floor n) (leads : t.leads n = s.leads n) : t.ImageOk n := by
  have lamp := State.listLamp_congr alike leads
  obtain ⟨mic, unbound, slot, chair, list⟩ := h
  constructor
  · rw [seat.image, seat.binding, ne_eq, ne_eq, alike.slot, ne_eq, alike.chair]
    exact mic
  · rw [seat.image, seat.binding]
    exact unbound
  · rw [seat.image, seat.binding, ne_eq _ none, ne_eq _ none, alike.slot]
    exact slot
  · rw [seat.image, seat.binding, ne_eq, alike.slot, ne_eq, alike.chair]
    exact chair
  · rw [seat.image, seat.binding, alike.slot, alike.chair, lamp]
    exact fun bound noSlot noChair => (list bound noSlot noChair).imp_right fun h => ⟨h.1, seat.refusal h.2⟩

/-- The image of a bound seat in no slot. -/
theorem State.image_listed {s : State} {n : Nat} (bound : (s.seat n).binding ≠ none) (slot : s.floor.slotOf n = none)
    (chair : s.floor.chairOf n = none) : s.image n =
      if ((s.seat n).refusalUntil.any fun t => !reached s.time t) = true then ⟨false, .refused⟩ else ⟨false, s.listLamp n⟩ := by
  have isBound : ¬ (s.seat n).binding.isNone = true := by simpa using bound
  unfold image
  dsimp only
  rw [if_neg isBound, slot]
  dsimp only
  rw [chair]
  unfold listLamp floorState
  rw [slot, chair]
  cases s.floor.requestOf n <;> cases s.floor.replyOf n <;> cases s.floor.stack.any (·.holds n) <;> simp

/-- A seat that shows the image of R16's table shows what the law asks. -/
theorem State.imageOk_of_image {s : State} {n : Nat} (h : s.image n = (s.seat n).image) : s.ImageOk n := by
  by_cases bound : (s.seat n).binding = none
  · have dark : (s.seat n).image = .dark := by
      rw [← h]
      unfold image
      simp [bound]
    constructor <;> rw [dark] <;> simp [bound]
  have isBound : ¬ (s.seat n).binding.isNone = true := by simpa using bound
  cases slot : s.floor.slotOf n with
  | some i =>
    have shown : s.image n = ⟨true, if s.floor.slots[i].any (·.warned s.time) then .warn else .live⟩ := by
      unfold image
      dsimp only
      rw [if_neg isBound, slot]
    rw [shown] at h
    constructor <;> rw [← h]
    · simp [bound, slot]
    · exact fun none_ => absurd none_ bound
    · intros
      split
      · exact .inr rfl
      · exact .inl rfl
    · exact fun _ none_ => absurd (slot.symm.trans none_) (by simp)
    · exact fun _ none_ => absurd (slot.symm.trans none_) (by simp)
  | none =>
    by_cases chair : s.floor.chairOf n = none
    · have shown := State.image_listed bound slot chair
      rw [h] at shown
      constructor
      · rw [shown]
        constructor
        · split <;> simp
        · rintro ⟨-, found | found⟩
          · exact absurd slot found
          · exact absurd chair found
      · exact fun none_ => absurd none_ bound
      · exact fun _ found => absurd slot found
      · exact fun _ _ found => absurd chair found
      · rw [shown]
        intros
        split
        · next refused =>
          refine .inr ⟨rfl, fun none_ => ?_⟩
          rw [none_] at refused
          simp at refused
        · exact .inl rfl
    · have shown : s.image n = ⟨true, .live⟩ := by
        unfold image
        dsimp only
        rw [if_neg isBound, slot]
        dsimp only
        rw [if_pos (Option.isSome_iff_ne_none.mpr chair)]
      rw [shown] at h
      constructor <;> rw [← h]
      · simp [bound, chair]
      · exact fun none_ => absurd none_ bound
      · exact fun _ found => absurd slot found
      · exact fun _ _ _ => rfl
      · exact fun _ _ none_ => absurd none_ chair

/-! ### What an operation tells -/

namespace Claim

/-- The seat is noted, or shows what the law of the images asks. -/
def Told (c : Claim) (n : Nat) : Prop := n ∈ c.touched ∨ c.st.ImageOk n

/-- An operation changes no image, and tells of every seat of which it was told. -/
structure Tells (c d : Claim) : Prop where
  image : ∀ n, (d.st.seat n).image = (c.st.seat n).image
  told : ∀ n, c.Told n → d.Told n

/-- The same for an operation that changes no trunk. -/
structure Floored (c d : Claim) : Prop extends c.Tells d where
  trunks : d.st.trunks = c.st.trunks

/-- A seat is told of when it is noted. -/
theorem touch_told (c : Claim) (n : Nat) : (c.touch n).Told n := by
  unfold touch
  split
  · next shown => exact shown.elim (fun same => .inr (State.imageOk_of_image same)) .inl
  · exact .inl (by simp)

theorem touch_touched (c : Claim) (n : Nat) {m : Nat} (h : m ∈ c.touched) : m ∈ (c.touch n).touched := by
  unfold touch
  split
  · exact h
  · exact List.mem_append_left _ h

theorem touchAll_touched (c : Claim) (ns : List Nat) {m : Nat} (h : m ∈ c.touched) : m ∈ (c.touchAll ns).touched := by
  unfold touchAll
  induction ns generalizing c with
  | nil => exact h
  | cons n ns ih => exact ih _ (c.touch_touched n h)

namespace Tells

variable {c d e : Claim}

theorem refl (c : Claim) : c.Tells c := ⟨fun _ => rfl, fun _ => id⟩

theorem trans (h : c.Tells d) (g : d.Tells e) : c.Tells e :=
  ⟨fun n => (g.image n).trans (h.image n), fun n t => g.told n (h.told n t)⟩

theorem foldl {α : Type} {f : Claim → α → Claim} (step : ∀ (c : Claim) (a : α), c.Tells (f c a)) (l : List α) (c : Claim) :
    c.Tells (l.foldl f c) := by
  induction l generalizing c with
  | nil => exact refl c
  | cons a l ih => exact (step c a).trans (ih _)

/-- A change e of c, of whose seats X the rest d of the operation tells, and which leaves the others where they are found. -/
theorem ofRaw {X : Nat → Prop} (image : ∀ m, (e.st.seat m).image = (c.st.seat m).image) (touched : ∀ m ∈ c.touched, m ∈ e.touched)
    (alike : ∀ m, ¬ X m → (c.st.seat m).Alike (e.st.seat m) ∧ c.floor.Alike e.floor m ∧ e.st.leads m = c.st.leads m) (after : e.Tells d)
    (told : ∀ m, X m → d.Told m) : c.Tells d := by
  refine ⟨fun n => (after.image n).trans (image n), fun n h => ?_⟩
  by_cases noted : X n
  · exact told n noted
  · obtain ⟨seat, floor, leads⟩ := alike n noted
    exact after.told n (h.imp (touched n) fun ok => ok.congr seat floor leads)

end Tells

namespace Floored

variable {c d e : Claim}

theorem refl (c : Claim) : c.Floored c := ⟨.refl c, rfl⟩

theorem trans (h : c.Floored d) (g : d.Floored e) : c.Floored e := ⟨h.toTells.trans g.toTells, g.trunks.trans h.trunks⟩

theorem foldl {α : Type} {f : Claim → α → Claim} (step : ∀ (c : Claim) (a : α), c.Floored (f c a)) (l : List α) (c : Claim) :
    c.Floored (l.foldl f c) := by
  induction l generalizing c with
  | nil => exact refl c
  | cons a l ih => exact (step c a).trans (ih _)

/-- Whether a seat leads rests on the request list and the seats. -/
theorem leads_congr {s t : State} (requests : t.floor.requests = s.floor.requests) (seats : t.seats = s.seats) (n : Nat) :
    t.leads n = s.leads n := by
  have here (m : Nat) : t.isHere m = s.isHere m := by
    unfold State.isHere State.seat
    rw [seats]
  unfold State.leads State.firstPresent
  simp only [requests, here]

theorem seats_alike {s t : State} (seats : t.seats = s.seats) (n : Nat) : (s.seat n).Alike (t.seat n) := by
  unfold State.seat
  rw [seats]
  exact .refl _

/-- Work on the reports, the phase, the policy and the like. -/
theorem same (seats : d.st.seats = c.st.seats) (trunks : d.st.trunks = c.st.trunks) (touched : d.touched = c.touched)
    (places : d.floor.places = c.floor.places) : c.Floored d := by
  refine ⟨Tells.ofRaw (X := fun _ => False) (e := d) (fun m => (seats_alike seats m).image) (fun m h => touched ▸ h)
    (fun m _ => ⟨seats_alike seats m, .ofPlaces places m, leads_congr ?_ seats m⟩) (.refl d) (fun _ h => h.elim), trunks⟩
  unfold Floor.places at places
  simp only [Prod.mk.injEq] at places
  exact places.2.2.1

theorem notify (c : Claim) (n : Notice) : c.Floored (c.notify n) := same rfl rfl rfl rfl
theorem raise (c : Claim) (e : EventFlag) : c.Floored (c.raise e) := same rfl rfl rfl rfl
theorem fillPoint (c : Claim) : c.Floored c.fillPoint := same rfl rfl rfl rfl
theorem servePoint (c : Claim) : c.Floored c.servePoint := same rfl rfl rfl rfl
theorem tookEntry (c : Claim) (b : Bool) : c.Floored { c with tookEntry := b } := same rfl rfl rfl rfl
theorem due (c : Claim) (fill serve : Bool) : c.Floored { c with fillDue := fill, serveDue := serve } := same rfl rfl rfl rfl

theorem touch (c : Claim) (n : Nat) : c.Floored (c.touch n) := by
  have st := touch_st c n
  refine ⟨⟨fun m => by rw [st], fun m h => h.imp (c.touch_touched n) fun ok => by rw [st]; exact ok⟩, by rw [st]⟩

theorem touchAll (c : Claim) (ns : List Nat) : c.Floored (c.touchAll ns) := foldl touch ns c

/-- The seats of a list are told of when they are noted one after another. -/
theorem touchAll_told (c : Claim) {ns : List Nat} {m : Nat} (h : m ∈ ns) : (c.touchAll ns).Told m := by
  unfold Claim.touchAll
  induction ns generalizing c with
  | nil => exact nomatch h
  | cons n ns ih =>
    rcases List.mem_cons.mp h with rfl | later
    · exact (touchAll (c.touch m) ns).told m (c.touch_told m)
    · exact ih (c.touch n) later

/-- The seats that steps in a row note are told of at the end. -/
theorem foldl_told {α : Type} {f : Claim → α → Claim} {key : α → Nat} (step : ∀ (c : Claim) (a : α), c.Floored (f c a))
    (tells : ∀ (c : Claim) (a : α), (f c a).Told (key a)) {l : List α} {a : α} (h : a ∈ l) (c : Claim) : (l.foldl f c).Told (key a) := by
  induction l generalizing c with
  | nil => exact nomatch h
  | cons b l ih =>
    rcases List.mem_cons.mp h with rfl | later
    · exact (foldl step l _).told _ (tells c a)
    · exact ih later _

/-- A change of the floor that leaves the request list, of whose seats X the rest of the operation tells. -/
theorem ofFloor {f : Floor → Floor} (X : Nat → Prop) (requests : (f c.floor).requests = c.floor.requests)
    (alike : ∀ m, ¬ X m → c.floor.Alike (f c.floor) m) (after : (c.modFloor f).Floored d) (told : ∀ m, X m → d.Told m) : c.Floored d :=
  ⟨Tells.ofRaw (X := X) (e := c.modFloor f) (fun _ => rfl) (fun _ => id)
    (fun m h => ⟨.refl _, alike m h, leads_congr (s := c.st) (t := (c.modFloor f).st) requests rfl m⟩) after.toTells told, after.trunks⟩

/-- A change of the first present entry is told of. -/
theorem trackHead_told (c : Claim) (f : Claim → Claim) {m : Nat} (h : (f c).st.leads m ≠ c.st.leads m) : (c.trackHead f).Told m := by
  unfold Claim.trackHead
  dsimp only
  have other : ¬ c.st.firstPresent.map (·.seat) = (f c).st.firstPresent.map (·.seat) := by
    intro same
    have byMap (s : State) : s.leads m = (s.firstPresent.map (·.seat)).any (· = m) := by
      unfold State.leads
      rw [Option.any_map]
    exact h (by rw [byMap, byMap, same])
  rw [if_neg other]
  refine touchAll_told _ ?_
  unfold State.leads at h
  rw [List.mem_append]
  by_contra neither
  rw [not_or] at neither
  refine h ?_
  have none_ {x : Option RequestEntry} (hx : m ∉ (x.map (·.seat)).toList) : x.any (·.seat = m) = false := by
    cases x with
    | none => rfl
    | some e => simpa [eq_comm] using hx
  rw [none_ neither.1, none_ neither.2]

theorem trackHead_touched (c : Claim) (f : Claim → Claim) {m : Nat} (h : m ∈ (f c).touched) : m ∈ (c.trackHead f).touched := by
  unfold Claim.trackHead
  dsimp only
  split
  · exact h
  · exact touchAll_touched _ _ h

/-- Work that may change the first present entry, of whose seats X the rest of the operation tells. -/
theorem ofHead {f : Claim → Claim} (X : Nat → Prop) (image : ∀ m, ((f c).st.seat m).image = (c.st.seat m).image)
    (touched : (f c).touched = c.touched) (trunks : (f c).st.trunks = c.st.trunks)
    (alike : ∀ m, ¬ X m → (c.st.seat m).Alike ((f c).st.seat m) ∧ c.floor.Alike (f c).floor m) (after : (c.trackHead f).Floored d)
    (told : ∀ m, X m → d.Told m) : c.Floored d := by
  have st : (c.trackHead f).st = (f c).st := trackHead_st c f
  refine ⟨Tells.ofRaw (X := fun m => X m ∨ (f c).st.leads m ≠ c.st.leads m) (e := c.trackHead f) (fun m => by rw [st]; exact image m)
    (fun m h => trackHead_touched c f (touched ▸ h)) (fun m h => ?_) after.toTells (fun m h => ?_), ?_⟩
  · obtain ⟨noted, leads⟩ := not_or.mp h
    rw [show (c.trackHead f).floor = (f c).floor from congrArg State.floor st, st]
    exact ⟨(alike m noted).1, (alike m noted).2, not_not.mp leads⟩
  · exact h.elim (told m) fun differ => after.told m (trackHead_told c f differ)
  · rw [after.trunks, st, trunks]

/-- A record changed in what no image rests on. -/
theorem modSeat (c : Claim) (n : Nat) {f : SeatRecord → SeatRecord} (hf : ∀ r : SeatRecord, r.Alike (f r))
    (presence : ∀ r : SeatRecord, (f r).presence = r.presence) : c.Floored (c.modSeat n f) := by
  have seat (m : Nat) : (c.st.seat m).Alike ((c.modSeat n f).st.seat m) ∧
      ((c.modSeat n f).st.seat m).presence = (c.st.seat m).presence := by
    by_cases own : m = n
    · subst own
      by_cases known : (seatIndex m).isSome
      · rw [show (c.modSeat m f).st.seat m = f (c.st.seat m) from State.seat_modSeat_self c.st known f]
        exact ⟨hf _, presence _⟩
      · rw [show (c.modSeat m f).st = c.st from State.modSeat_outside c.st (by simpa using known) f]
        exact ⟨.refl _, rfl⟩
    · rw [show (c.modSeat n f).st.seat m = c.st.seat m from State.seat_modSeat_ne c.st own f]
      exact ⟨.refl _, rfl⟩
  have floor : (c.modSeat n f).floor = c.floor := Claim.modSeat_floor c n f
  have leads (m : Nat) : (c.modSeat n f).st.leads m = c.st.leads m := by
    unfold State.leads State.firstPresent
    rw [show (c.modSeat n f).st.floor = c.st.floor from floor]
    have here (k : Nat) : (c.modSeat n f).st.isHere k = c.st.isHere k := by
      unfold State.isHere
      rw [(seat k).2]
    simp only [here]
  exact ⟨Tells.ofRaw (X := fun _ => False) (e := c.modSeat n f) (fun m => (seat m).1.image) (fun _ => id)
    (fun m _ => ⟨(seat m).1, by rw [floor]; exact .refl _ m, leads m⟩) (.refl _) (fun _ h => h.elim), State.modSeat_trunks c.st n f⟩

end Floored
end Claim

end Sys2Proof.Machine
end

section
/-! SUPPORT. Each operation of the Floor Engine changes no image and no trunk, and notes the seats whose image it changes (R19): the
slots, the lists, the fill, the removal of a seat and the halt. -/

namespace Sys2Proof.Machine
namespace Claim.Floored

variable {c d : Claim}

/-! ### The phase and the round -/

theorem setPhase (c : Claim) (p : Phase) : c.Floored (c.setPhase p) := by
  unfold Claim.setPhase
  split
  · exact refl c
  · exact same rfl rfl rfl rfl

theorem beginRound (c : Claim) (n : Nat) : c.Floored (c.beginRound n) :=
  ((same rfl rfl rfl rfl : c.Floored (c.modFloor fun f => { f with subject := some n })).trans (setPhase _ _)).trans (notify _ _)

theorem endRound (c : Claim) : c.Floored c.endRound :=
  ((same rfl rfl rfl rfl : c.Floored ((c.notify _).modFloor fun f => { f with subject := none })).trans (setPhase _ _)).trans
    (fillPoint _)

/-! ### Slots -/

theorem releaseSlot (c : Claim) (i : Fin 6) (why : Reason) : c.Floored (c.releaseSlot i why) := by
  unfold Claim.releaseSlot
  split
  · exact refl c
  · next d hd =>
    refine ofFloor (· = d.seat) rfl (fun m other => .setSlot (fun e he => ?_) fun e he => by cases he)
      (((notify _ _).trans (raise _ _)).trans (touch _ _)) (fun m h => by rw [h]; exact touch_told _ _)
    rw [hd] at he
    rw [← Option.some.inj he]
    exact fun same => other same.symm

theorem closeSlot (c : Claim) (i : Fin 6) (why : Reason) : c.Floored (c.closeSlot i why) := by
  unfold Claim.closeSlot
  split
  · exact refl c
  · have freed := (releaseSlot c i why).trans (fillPoint _)
    dsimp only
    split
    · exact freed.trans (beginRound _ _)
    · split
      · exact freed.trans (endRound _)
      · exact freed

/-- The free place is empty. -/
theorem freeSlot_empty {f : Floor} {j : Fin 6} (h : f.freeSlot = some j) : f.slots[j] = none := by
  simpa using List.find?_some h

theorem grantSpeak (c : Claim) (n : Nat) (o : Origin) (a : Option Nat) : c.Floored (c.grantSpeak n o a) := by
  unfold Claim.grantSpeak
  split
  · exact refl c
  · next j free =>
    dsimp only
    generalize hs : c.newSlot n .speak o (c.speakAllowance n a) = x
    have seat : x.seat = n := by rw [← hs]; rfl
    have count (d : Claim) : d.Floored (d.modSeat n fun r => { r with grantCount := min 15 (r.grantCount + 1) }) :=
      modSeat d n (fun _ => ⟨rfl, rfl, id⟩) fun _ => rfl
    have rest (d : Claim) : d.Floored ((if (c.floor.requestOf n).isSome then { d.raise .list with tookEntry := true } else d).notify
        (grantedNotice j x) |>.raise .floor) := by
      refine Floored.trans ?_ ((notify _ _).trans (raise _ _))
      split
      · exact (raise _ _).trans (tookEntry _ true)
      · exact refl _
    refine ofHead (f := fun c => c.modFloor fun f => { f with
      requests := f.requests.filter (·.seat ≠ n), slots := f.slots.set j (some x) }) (· = n) (fun _ => rfl) rfl rfl
      (fun m other => ⟨.refl _, ?_⟩) (((count _).trans (touch _ n)).trans (rest _))
      (fun m h => by rw [h]; exact (rest _).told n (touch_told _ n))
    refine Floor.Alike.trans (g := { c.floor with requests := c.floor.requests.filter (·.seat ≠ n) }) (.ofRequests ?_)
      (.setSlot (fun e he => ?_) fun e he => ?_)
    · simp only [List.mem_filter]
      exact ⟨fun ⟨e, he, own⟩ => ⟨e, he.1, own⟩, fun ⟨e, he, own⟩ => ⟨e, ⟨he, by simpa [own] using other⟩, own⟩⟩
    · have empty : c.floor.slots[j] = none := freeSlot_empty free
      exact absurd (empty.symm.trans he) (by simp)
    · rw [← Option.some.inj he, seat]
      exact fun same => other same.symm

theorem grantReply (c : Claim) (n : Nat) : c.Floored (c.grantReply n) := by
  unfold Claim.grantReply
  split
  · exact refl c
  · next j free =>
    dsimp only
    generalize hs : c.newSlot n .reply .auto c.policy.replyAllow = x
    have seat : x.seat = n := by rw [← hs]; rfl
    have rest (d : Claim) : d.Floored (((d.notify (grantedNotice j x)).raise .floor).raise .reply) :=
      ((notify _ _).trans (raise _ _)).trans (raise _ _)
    refine ofFloor (· = n) rfl (fun m other => ?_) ((touch _ n).trans (rest _))
      (fun m h => by rw [h]; exact (rest _).told n (touch_told _ n))
    refine Floor.Alike.trans (g := { c.floor with replies := c.floor.replies.filter (·.seat ≠ n) }) (.ofReplies ?_)
      (.setSlot (fun e he => ?_) fun e he => ?_)
    · simp only [List.mem_filter]
      exact ⟨fun ⟨e, he, own⟩ => ⟨e, he.1, own⟩, fun ⟨e, he, own⟩ => ⟨e, ⟨he, by simpa [own] using other⟩, own⟩⟩
    · have empty : c.floor.slots[j] = none := freeSlot_empty free
      exact absurd (empty.symm.trans he) (by simp)
    · rw [← Option.some.inj he, seat]
      exact fun same => other same.symm

/-! ### The fill, the serve point and the end of an event -/

theorem fillLoop (k : Nat) (c : Claim) : c.Floored (fillLoop k c) := by
  induction k generalizing c with
  | zero => exact refl c
  | succ k ih =>
    unfold Claim.fillLoop
    split
    · exact refl c
    · split
      · exact (grantSpeak c _ _ _).trans (ih _)
      · split
        · exact refl c
        · dsimp only
          split
          · exact ((closeSlot c _ _).trans (grantSpeak _ _ _ _)).trans (ih _)
          · exact closeSlot c _ _

theorem fill (c : Claim) : c.Floored c.fill := by
  unfold Claim.fill
  split
  · exact fillLoop _ c
  · exact refl c

theorem serve (c : Claim) : c.Floored c.serve := by
  unfold Claim.serve
  split
  · exact refl c
  · split
    · exact endRound c
    · split
      · split
        · exact grantReply c _
        · exact refl c
      · exact refl c

theorem settleFloor (c : Claim) : c.Floored c.settleFloor := by
  unfold Claim.settleFloor
  dsimp only
  refine Floored.trans ?_ (due _ false false)
  split
  · split
    · split
      · exact (fill c).trans (serve _)
      · exact fill c
    · exact refl c
  · split
    · split
      · exact (serve c).trans (fill _)
      · exact serve c
    · exact refl c
  · exact refl c
  · exact refl c

/-! ### The lists -/

/-- The entries of other seats stay. -/
theorem exists_filter_seat {α : Type} {l : List α} {seat : α → Nat} {n m : Nat} (other : m ≠ n) :
    (∃ e ∈ l.filter (seat · ≠ n), seat e = m) ↔ ∃ e ∈ l, seat e = m := by
  simp only [List.mem_filter]
  exact ⟨fun ⟨e, he, own⟩ => ⟨e, he.1, own⟩, fun ⟨e, he, own⟩ => ⟨e, ⟨he, by simpa [own] using other⟩, own⟩⟩

theorem notifyTouch (c : Claim) (x : Notice) (n : Nat) : c.Floored ((c.notify x).touch n) := (notify _ _).trans (touch _ _)

theorem dequeue (c : Claim) (n : Nat) (why : Reason) : c.Floored (c.dequeue n why) := by
  unfold Claim.dequeue
  split
  · have alike (m : Nat) (other : ¬ m = n) : c.floor.Alike { c.floor with requests := c.floor.requests.filter (·.seat ≠ n) } m :=
      .ofRequests (exists_filter_seat (seat := RequestEntry.seat) other)
    exact ofHead (f := fun c => c.modFloor fun f => { f with requests := f.requests.filter (·.seat ≠ n) }) (· = n) (fun _ => rfl) rfl rfl
      (fun m other => ⟨.refl _, alike m other⟩) (notifyTouch _ _ n) (fun m h => by rw [h]; exact touch_told _ n)
  · exact refl c

theorem clearRequests (c : Claim) (why : Reason) : c.Floored (c.clearRequests why) := by
  unfold Claim.clearRequests
  dsimp only
  have told {m : Nat} (h : ∃ e ∈ c.floor.requests, e.seat = m) (d : Claim) :
      (c.floor.requests.foldl (fun c e => (c.notify (dequeued e.seat why)).touch e.seat) d).Told m := by
    obtain ⟨e, he, rfl⟩ := h
    have step (c : Claim) (e : RequestEntry) : c.Floored ((c.notify (dequeued e.seat why)).touch e.seat) := notifyTouch c _ _
    have tells (c : Claim) (e : RequestEntry) : ((c.notify (dequeued e.seat why)).touch e.seat).Told e.seat := touch_told _ _
    exact foldl_told step tells he d
  have after (d : Claim) : d.Floored (c.floor.requests.foldl (fun c e => (c.notify (dequeued e.seat why)).touch e.seat) d) :=
    foldl (fun c e => notifyTouch c _ _) _ d
  have away {m : Nat} (h : ¬ ∃ e ∈ c.floor.requests, e.seat = m) : c.st.leads m = false := by
    unfold State.leads
    cases first : c.st.firstPresent with
    | none => rfl
    | some e => exact decide_eq_false fun own => h ⟨e, List.mem_of_find?_eq_some first, own⟩
  refine ⟨Tells.ofRaw (X := fun m => ∃ e ∈ c.floor.requests, e.seat = m) (e := c.modFloor fun f => { f with requests := [] })
    (fun _ => rfl) (fun _ => id) (fun m h => ⟨.refl _, .ofRequests ?_, ?_⟩) (after _).toTells (fun m h => told h _), (after _).trunks⟩
  · exact ⟨fun ⟨_, he, _⟩ => (nomatch he), fun found => absurd found h⟩
  · rw [away h]
    rfl

theorem dropReply (c : Claim) (n : Nat) (why : Reason) : c.Floored (c.dropReply n why) := by
  unfold Claim.dropReply
  split
  · exact refl c
  · exact ofFloor (· = n) rfl (fun m other => .ofReplies (exists_filter_seat (seat := ReplyEntry.seat) other))
      ((((notify _ _).trans (raise _ _)).trans (touch _ n)).trans (servePoint _))
      (fun m h => by rw [h]; exact (servePoint _).told n (touch_told _ n))

theorem dropReplies (c : Claim) (ns : List Nat) (why : Reason) : c.Floored (c.dropReplies ns why) :=
  foldl (fun c n => dropReply c n why) _ c

theorem clearReplies (c : Claim) (why : Reason) : c.Floored (c.clearReplies why) := by
  unfold Claim.clearReplies
  dsimp only
  split
  · exact refl c
  · have rest (d : Claim) : d.Floored ((d.raise .reply).servePoint) := (raise _ _).trans (servePoint _)
    have after (d : Claim) : d.Floored (c.floor.replies.foldl (fun c e => (c.notify (replyDropped e.seat e.target why)).touch e.seat) d) :=
      foldl (fun c e => notifyTouch c _ _) _ d
    have alike (m : Nat) (h : ¬ ∃ e ∈ c.floor.replies, e.seat = m) : c.floor.Alike { c.floor with replies := [] } m :=
      .ofReplies ⟨fun ⟨_, he, _⟩ => (nomatch he), fun found => absurd found h⟩
    refine ofFloor (fun m => ∃ e ∈ c.floor.replies, e.seat = m) rfl alike ((after _).trans (rest _)) (fun m h => ?_)
    obtain ⟨e, he, rfl⟩ := h
    have step (c : Claim) (e : ReplyEntry) : c.Floored ((c.notify (replyDropped e.seat e.target why)).touch e.seat) := notifyTouch c _ _
    have tells (c : Claim) (e : ReplyEntry) : ((c.notify (replyDropped e.seat e.target why)).touch e.seat).Told e.seat := touch_told _ _
    exact (rest _).told _ (foldl_told step tells he _)

/-! ### Chair slots -/

theorem setChairMode (c : Claim) (i : Fin 2) (m : ChairState) : c.Floored (c.setChairMode i m) := by
  unfold Claim.setChairMode
  split
  · exact refl c
  · next d hd =>
    split
    · exact refl c
    · refine ofFloor (fun _ => False) rfl (fun n _ => .ofChairs ?_) (raise _ _) (fun _ h => h.elim)
      rw [Floor.chairOf_eq_none, Floor.chairOf_eq_none]
      constructor
      · intro h j e he
        by_cases own : j = i
        · subst own
          rw [hd] at he
          rw [← Option.some.inj he]
          exact h j { d with mode := m } (by simp)
        · refine h j e ?_
          simp only [Fin.getElem_fin]
          rw [Vector.getElem_set_ne _ _ (fun e => own (Fin.ext e.symm))]
          exact he
      · intro h j e he
        by_cases own : j = i
        · subst own
          simp only [Fin.getElem_fin, Vector.getElem_set_self, Option.some.injEq] at he
          rw [← he]
          exact h j d hd
        · simp only [Fin.getElem_fin] at he
          rw [Vector.getElem_set_ne _ _ (fun e => own (Fin.ext e.symm))] at he
          exact h j e he

/-- A chair slot is opened in a free place. -/
theorem openChair (c : Claim) {i : Fin 2} (free : c.floor.chairs[i] = none) (n : Nat) (m : ChairState) : c.Floored (c.openChair i n m) := by
  unfold Claim.openChair
  refine ofFloor (· = n) rfl (fun k other => .setChair (fun e he => absurd (free.symm.trans he) (by simp)) fun e he => ?_)
    (((notify _ _).trans (raise _ _)).trans (touch _ n)) (fun k h => by rw [h]; exact touch_told _ n)
  rw [← Option.some.inj he]
  exact fun same => other same.symm

theorem closeChair (c : Claim) (i : Fin 2) (why : Reason) : c.Floored (c.closeChair i why) := by
  unfold Claim.closeChair
  split
  · exact refl c
  · next d hd =>
    refine ofFloor (· = d.seat) rfl (fun m other => .setChair (fun e he => ?_) fun e he => by cases he)
      (((notify _ _).trans (raise _ _)).trans (touch _ _)) (fun m h => by rw [h]; exact touch_told _ _)
    rw [hd] at he
    rw [← Option.some.inj he]
    exact fun same => other same.symm

/-! ### A seat removed, and a press refused -/

theorem expire (c : Claim) (i : Fin 6) : c.Floored (c.expire i) := by
  unfold Claim.expire
  split
  · exact refl c
  · next d hd =>
    dsimp only
    have marked (e : Claim) : e.Floored (e.modSeat d.seat fun r => { r with overtimeMark := true }) :=
      modSeat e d.seat (fun _ => ⟨rfl, rfl, id⟩) fun _ => rfl
    have closed (e : Claim) : e.Floored (if c.policy.expiryAction = .close then e.closeSlot i .time else e) := by
      split
      · exact closeSlot e i .time
      · exact refl e
    refine ofFloor (· = d.seat) rfl (fun m other => .setSlot (fun e he => ?_) fun e he => ?_)
      (((((marked _).trans (raise _ _)).trans (notify _ _)).trans (touch _ d.seat)).trans (closed _))
      (fun m h => by rw [h]; exact (closed _).told _ (touch_told _ _))
    · rw [hd] at he
      rw [← Option.some.inj he]
      exact fun same => other same.symm
    · rw [← Option.some.inj he]
      exact fun same => other same.symm

theorem refuse (c : Claim) (n : Nat) (b : Button) (why : PressRefusal) : c.Floored (c.refuse n b why) := by
  unfold Claim.refuse
  dsimp only
  split
  · exact notify _ _
  · have shown (d : Claim) (t : ChamberTime) : d.Floored (d.modSeat n fun r => { r with refusalUntil := some t }) :=
      modSeat d n (fun _ => ⟨rfl, rfl, fun _ => Option.some_ne_none t⟩) fun _ => rfl
    exact ((notify _ _).trans (shown _ _)).trans (touch _ n)

theorem dropHeld (c : Claim) (n : Nat) (why : Reason) : c.Floored (c.dropHeld n why) := by
  unfold Claim.dropHeld
  dsimp only
  split
  · have told {α : Type} (g : α → Notice) (l : List α) (d : Claim) : d.Floored (l.foldl (fun c a => c.notify (g a)) d) :=
      foldl (fun c a => notify c _) l d
    refine ofFloor (· = n) rfl (fun m other => .ofStack ?_)
      ((((told (heldReleased · why) _ _).trans (told (fun e : HeldReply => replyDropped n e.target why) _ _)).trans (raise _ _)).trans
        (touch _ n)) (fun m h => by rw [h]; exact touch_told _ n)
    rw [List.any_map]
    refine List.any_congr rfl fun fr => ?_
    rw [Bool.eq_iff_iff]
    simp only [Function.comp_def, StackFrame.holds, Bool.or_eq_true, List.any_eq_true, decide_eq_true_eq]
    exact or_congr (exists_filter_seat (seat := HeldSlot.seat) other) (exists_filter_seat (seat := HeldReply.seat) other)
  · exact refl c

theorem closeSlotOf (c : Claim) (n : Nat) (why : Reason) : c.Floored (c.closeSlotOf n why) := by
  unfold Claim.closeSlotOf
  split
  · exact closeSlot c _ why
  · exact refl c

theorem closeChairOf (c : Claim) (n : Nat) (why : Reason) : c.Floored (c.closeChairOf n why) := by
  unfold Claim.closeChairOf
  split
  · exact closeChair c _ why
  · exact refl c

theorem removeSeat (c : Claim) (n : Nat) (why : Reason) : c.Floored (c.removeSeat n why) :=
  ((((dequeue c n why).trans (dropReply _ n why)).trans (closeSlotOf _ n why)).trans (closeChairOf _ n why)).trans (dropHeld _ n why)

theorem removeSeats (c : Claim) (ns : List Nat) (why : Reason) : c.Floored (c.removeSeats ns why) :=
  (dropReplies c ns why).trans (foldl (f := fun c n => c.removeSeat n why) (fun c n => removeSeat c n why) ns _)

/-! ### The halt -/

theorem discardFrames (c : Claim) : c.Floored c.discardFrames := by
  unfold Claim.discardFrames
  dsimp only
  split
  · exact refl c
  · -- the frames left are those not yet discarded
    have step (l : List StackFrame) (d : Claim) (h : d.floor.stack = l) : d.Floored (l.foldl (fun c fr => ((c.modFloor fun f =>
        { f with stack := f.stack.tail }).notify (frameDiscarded fr .halt)).touchAll (heldSeats fr)) d) := by
      induction l generalizing d with
      | nil => exact refl d
      | cons fr l ih =>
        refine Floored.trans ?_ (ih _ ?_)
        · refine ofFloor (· ∈ heldSeats fr) rfl (fun m other => .ofStack ?_) ((notify _ _).trans (touchAll _ _))
            (fun m noted => touchAll_told _ noted)
          have away : fr.holds m = false := by
            rw [← Bool.not_eq_true, StackFrame.holds_iff]
            exact other
          rw [h, List.tail_cons, List.any_cons, away, Bool.false_or]
        · rw [show ((d.modFloor fun f => { f with stack := f.stack.tail }).notify (frameDiscarded fr .halt) |>.touchAll (heldSeats fr)).floor =
            { d.floor with stack := d.floor.stack.tail } from congrArg State.floor (touchAll_st _ _), h]
          rfl
    exact (step _ c rfl).trans (raise _ _)

theorem clearFloor (c : Claim) : c.Floored c.clearFloor := by
  have modes (d : Claim) : d.Floored (chairPlaces.foldl (fun c i => c.setChairMode i .mic) d) :=
    foldl (fun c i => setChairMode c i .mic) _ d
  have slots (l : List (Fin 6 × DelegateSlot)) (d : Claim) : d.Floored (l.foldl (fun c x => c.releaseSlot x.1 .halt) d) :=
    foldl (fun c x => releaseSlot c x.1 .halt) l d
  unfold Claim.clearFloor
  dsimp only
  exact (((discardFrames c).trans (modes _)).trans (slots _ _)).trans (clearReplies _ _)

theorem haltFloor (c : Claim) : c.Floored c.haltFloor := by
  unfold Claim.haltFloor
  split
  · exact refl c
  · have ended (d : Claim) : d.Floored (d.modFloor fun f => { f with subject := none }) := same rfl rfl rfl rfl
    exact (((clearFloor c).trans (ended _)).trans (setPhase _ _)).trans (raise _ _)

theorem closeGate (c : Claim) : c.Floored c.closeGate := by
  unfold Claim.closeGate
  split
  · exact refl c
  · exact same rfl rfl rfl rfl

/-! ### The lists' commands, the policy and the rest of the host's commands -/

/-- An entry joins the request list. -/
theorem enqueue (c : Claim) {i : Nat} (e : RequestEntry) (inside : i ≤ c.floor.requests.length) : c.Floored (c.enqueue i e) := by
  have alike (m : Nat) (other : ¬ m = e.seat) : c.floor.Alike { c.floor with requests := c.floor.requests.insertIdx i e } m := by
    refine .ofRequests ?_
    simp only [List.mem_insertIdx inside]
    exact ⟨fun ⟨x, hx, own⟩ => ⟨x, hx.resolve_left fun h => other (by rw [← own, h]), own⟩, fun ⟨x, hx, own⟩ => ⟨x, .inr hx, own⟩⟩
  exact ofHead (f := fun c => c.modFloor fun f => { f with requests := f.requests.insertIdx i e }) (· = e.seat) (fun _ => rfl) rfl rfl
    (fun m other => ⟨.refl _, alike m other⟩) (notifyTouch _ _ e.seat) (fun m h => by rw [h]; exact touch_told _ _)

/-- The list in another order. -/
theorem reorder (c : Claim) {l : List RequestEntry} (perm : l.Perm c.floor.requests) : c.Floored (c.reorder l) := by
  have alike (m : Nat) : c.floor.Alike { c.floor with requests := l } m := .ofRequests (by simp only [perm.mem_iff])
  exact ofHead (f := fun c => c.modFloor fun f => { f with requests := l }) (fun _ => False) (fun _ => rfl) rfl rfl
    (fun m _ => ⟨.refl _, alike m⟩) (refl _) (fun _ h => h.elim)

theorem clearAll (c : Claim) : c.Floored c.clearAll := by
  have chairs (d : Claim) : d.Floored (chairPlaces.foldl (fun c i => c.closeChair i .clear) d) :=
    foldl (fun c i => closeChair c i .clear) _ d
  have ended (d : Claim) : d.Floored (d.modFloor fun f => { f with subject := none }) := same rfl rfl rfl rfl
  unfold Claim.clearAll
  dsimp only
  exact ((((clearFloor c).trans (chairs _)).trans (clearRequests _ _)).trans (ended _)).trans (setPhase _ _)

theorem grantHost (c : Claim) (n : Nat) (e : Bool) (a : Option Nat) : c.Floored (c.grantHost n e a) := by
  unfold Claim.grantHost
  dsimp only
  refine Floored.trans (Floored.trans ?_ (grantSpeak _ n .host a)) (due _ false false)
  split
  · split
    · exact closeSlot c _ _
    · exact refl c
  · exact refl c

theorem closeAllSlots (c : Claim) : c.Floored c.closeAllSlots := by
  unfold Claim.closeAllSlots
  dsimp only
  have slots (l : List (Fin 6 × DelegateSlot)) (d : Claim) : d.Floored (l.foldl (fun c x => c.closeSlot x.1 .host) d) :=
    foldl (fun c x => closeSlot c x.1 .host) l d
  refine Floored.trans ?_ (slots _ _)
  split
  · exact clearReplies c _
  · exact refl c

end Claim.Floored
end Sys2Proof.Machine
end

section
/-! SUPPORT. The same for the push and the pop of the interruption stack, the presses, the passes and the alarms (R19). -/

namespace Sys2Proof.Machine
namespace Claim.Floored

variable {c d : Claim}

/-! ### The push (R104 to R109) -/

/-- A seat's chair state handed to a frame changes who is held nowhere. -/
theorem handChairState_any (p : StackFrame → Bool) (hp : ∀ fr r, p { fr with chairState := r } = p fr) (n : Nat) (r : Option ChairState) :
    ∀ {l frames : List StackFrame}, handChairState n r l = some frames → frames.any p = l.any p
  | [], _, h => nomatch h
  | fr :: rest, frames, h => by
    unfold handChairState at h
    cases deeper : handChairState n r rest with
    | some rest' =>
      rw [deeper] at h
      rw [← Option.some.inj h, List.any_cons, List.any_cons, handChairState_any p hp n r deeper]
    | none =>
      rw [deeper] at h
      dsimp only at h
      split at h
      · rw [← Option.some.inj h, List.any_cons, List.any_cons, hp]
      · exact nomatch h

/-- A saved phase and subject handed to the bottom frame change who is held nowhere. -/
theorem handPhase_any (p : StackFrame → Bool) (hp : ∀ fr x y, p { fr with savedPhase := x, subject := y } = p fr) (d : StackFrame) :
    ∀ l : List StackFrame, (handPhase d l).any p = l.any p
  | [] => rfl
  | [fr] => by
    unfold handPhase
    rw [List.any_cons, List.any_cons, hp]
  | fr :: g :: rest => by
    unfold handPhase
    rw [List.any_cons, List.any_cons, handPhase_any p hp d (g :: rest)]

theorem returnAtOverflow (c : Claim) (n : Nat) (r : ChairState) (why : Reason) : c.Floored (c.returnAtOverflow n r why) := by
  unfold Claim.returnAtOverflow
  split
  · exact refl c
  · split
    · exact setChairMode c _ _
    · exact closeChair c _ _
    · exact refl c

/-- The frames changed where no seat is found or leaves. -/
theorem setStack (c : Claim) {l : List StackFrame} (h : ∀ m, l.any (·.holds m) = c.floor.stack.any (·.holds m)) :
    c.Floored (c.modFloor fun f => { f with stack := l }) :=
  ofFloor (fun _ => False) rfl (fun m _ => .ofStack (h m)) (refl _) (fun _ h => h.elim)

theorem overflow (c : Claim) (src : Source) : c.Floored (c.overflow src).1 := by
  unfold Claim.overflow
  split
  · exact refl c
  · next d bottom =>
    split
    · exact refl c
    · have discarded : c.Floored ((((c.modFloor fun f => { f with stack := handPhase d f.stack.dropLast }).notify
          (frameDiscarded d .limit)).raise .stack).touchAll (heldSeats d)) := by
        refine ofFloor (· ∈ heldSeats d) rfl (fun m other => .ofStack ?_) (((notify _ _).trans (raise _ _)).trans (touchAll _ _))
          (fun m noted => touchAll_told _ noted)
        have away : d.holds m = false := by
          rw [← Bool.not_eq_true, StackFrame.holds_iff]
          exact other
        have whole : c.floor.stack.dropLast ++ [d] = c.floor.stack := List.dropLast_append_getLast? d bottom
        rw [handPhase_any (·.holds m) (fun _ _ _ => rfl), ← whole, List.any_append, List.any_cons, away]
        simp
      dsimp only
      generalize (((c.modFloor fun f => { f with stack := handPhase d f.stack.dropLast }).notify
        (frameDiscarded d .limit)).raise .stack).touchAll (heldSeats d) = c1 at discarded ⊢
      split
      · split
        · next frames handed =>
          exact discarded.trans (setStack c1 fun m => handChairState_any (·.holds m) (fun _ _ => rfl) _ _ handed)
        · split
          · exact discarded
          · exact discarded.trans (returnAtOverflow _ _ _ _)
      · exact discarded

theorem pushFrame (c : Claim) (src : Source) (chair : Option ChairState) : c.Floored (c.pushFrame src chair) := by
  unfold Claim.pushFrame
  dsimp only
  generalize hf : (⟨src, c.time, c.floor.phase, c.floor.subject, (c.floor.slotsByAge c.time).map fun x => holdSlot c.time x.2,
    c.floor.replies.map fun e => ⟨e.seat, e.target⟩, chair⟩ : StackFrame) = fr
  have moved (m : Nat) (other : ¬ m ∈ heldSeats fr) : c.floor.slotOf m = none ∧ c.floor.replyOf m = none := by
    rw [← hf] at other
    simp only [heldSeats, List.map_map, List.mem_append, List.mem_map, not_or, not_exists, not_and, Function.comp_apply] at other
    obtain ⟨slots, replies⟩ := other
    refine ⟨Floor.slotOf_eq_none.mpr fun i d hd => ?_, Floor.replyOf_eq_none.mpr fun e he => ?_⟩
    · exact slots (i, d) (Floor.mem_slotsByAge.mpr hd)
    · exact replies e he
  have told (d : Claim) : d.Floored ((if (c.floor.replies.map fun e => (⟨e.seat, e.target⟩ : HeldReply)) = [] then d
      else d.raise .reply).touchAll (heldSeats fr)) := by
    refine Floored.trans ?_ (touchAll _ _)
    split
    · exact refl d
    · exact raise d _
  refine ofFloor (· ∈ heldSeats fr) rfl (fun m other => ?_) (told _) (fun m noted => touchAll_told _ noted)
  obtain ⟨noSlot, noReply⟩ := moved m other
  have away : fr.holds m = false := by
    rw [← Bool.not_eq_true, StackFrame.holds_iff]
    exact other
  refine ⟨?_, .rfl, .rfl, ?_, ?_⟩
  · rw [noSlot, Floor.slotOf_eq_none]
    simp
  · rw [noReply, Floor.replyOf_eq_none]
    simp
  · rw [List.any_cons, away, Bool.false_or]

theorem takePriority (c : Claim) (n : Nat) : c.Floored (c.takePriority n) := by
  unfold Claim.takePriority
  split
  · exact setChairMode c _ _
  · split
    · next i free => exact openChair c (by simpa using List.find?_some free) n _
    · split
      · exact refl c
      · next i d rest oldest =>
        refine ((closeChair c i .bumped).trans (notify _ _)).trans (openChair _ ?_ n _)
        have found : (i, d) ∈ c.micChairsByAge := by rw [oldest]; exact List.mem_cons_self
        have here : c.floor.chairs[i] = some d := by
          have member := (sortBy_perm _ _).mem_iff.mp found
          obtain ⟨j, -, place⟩ := List.mem_filterMap.mp member
          obtain ⟨x, hx, chosen⟩ := Option.bind_eq_some_iff.mp place
          split at chosen
          · obtain ⟨rfl, rfl⟩ := Prod.mk.inj (Option.some.inj chosen)
            exact hx
          · exact nomatch chosen
        have closed : (c.closeChair i .bumped).floor.chairs = c.floor.chairs.set i none := by
          rw [((Shows.self c).closeChair here .bumped).floor]
          rfl
        show (c.closeChair i .bumped).floor.chairs[i] = none
        rw [closed]
        simp

theorem reportPush (c : Claim) (src : Source) : c.Floored (c.reportPush src) :=
  ((setPhase c _).trans (notify _ _)).trans (raise _ _)

theorem pushLink (c : Claim) (l : Link) : c.Floored (c.pushLink l) :=
  ((overflow c _).trans (pushFrame _ _ _)).trans (reportPush _ _)

theorem pushSeat (c : Claim) (n : Nat) : c.Floored (c.pushSeat n) :=
  (((overflow c _).trans (pushFrame _ _ _)).trans (takePriority _ _)).trans (reportPush _ _)

/-! ### The pop (R111 to R116) -/

theorem restoreRecord (x : Claim × Nat × Nat) (h : HeldSlot) : x.1.Floored (restoreRecord x h).1 ∧ (restoreRecord x h).1.Told h.seat := by
  obtain ⟨c, restored, lost⟩ := x
  have lose (why : Reason) : c.Floored ((c.notify (heldReleased h why)).touch h.seat) ∧
      ((c.notify (heldReleased h why)).touch h.seat).Told h.seat := ⟨notifyTouch c _ _, touch_told _ _⟩
  unfold Claim.restoreRecord
  dsimp only
  split
  · exact lose _
  · split
    · exact lose _
    · next i free =>
      split
      · exact lose _
      · refine ⟨ofFloor (· = h.seat) rfl (fun m other => .setSlot (fun e he => ?_) fun e he => ?_)
          ((raise _ _).trans (touch _ h.seat)) (fun m own => by rw [own]; exact touch_told _ _), touch_told _ _⟩
        · have empty : c.floor.slots[i] = none := freeSlot_empty free
          exact absurd (empty.symm.trans he) (by simp)
        · rw [← Option.some.inj he]
          exact fun same => other same.symm

theorem restoreRecords (l : List HeldSlot) (x : Claim × Nat × Nat) :
    x.1.Floored (l.foldl Claim.restoreRecord x).1 ∧ ∀ h ∈ l, (l.foldl Claim.restoreRecord x).1.Told h.seat := by
  induction l generalizing x with
  | nil => exact ⟨refl _, fun _ h => nomatch h⟩
  | cons h l ih =>
    obtain ⟨floored, told⟩ := ih (Claim.restoreRecord x h)
    obtain ⟨step, first⟩ := restoreRecord x h
    refine ⟨step.trans floored, fun g hg => ?_⟩
    rcases List.mem_cons.mp hg with rfl | later
    · exact floored.told _ first
    · exact told g later

theorem returnEntry (c : Claim) (e : HeldReply) : c.Floored (c.returnEntry e) := by
  unfold Claim.returnEntry
  dsimp only
  split
  · exact (notify _ _).trans ((raise _ _).trans (touch _ _))
  · refine ofFloor (· = e.seat) rfl (fun m other => .ofReplies ?_) ((raise _ _).trans (touch _ e.seat))
      (fun m own => by rw [own]; exact touch_told _ _)
    simp only [List.mem_append, List.mem_singleton]
    exact ⟨fun ⟨x, hx, own⟩ => ⟨x, hx.resolve_right fun h => other (by rw [← own, h]), own⟩, fun ⟨x, hx, own⟩ => ⟨x, .inl hx, own⟩⟩

theorem returnEntry_told (c : Claim) (e : HeldReply) : (c.returnEntry e).Told e.seat := touch_told _ _

theorem reconcile (c : Claim) (p : Phase) : c.Floored (c.reconcile p) := by
  unfold Claim.reconcile
  split
  · split
    · exact refl c
    · split
      · exact refl c
      · exact beginRound c _
  · split
    · exact endRound c
    · exact refl c
  · exact refl c
  · exact refl c

theorem expireRestored (c : Claim) : c.Floored c.expireRestored := by
  unfold Claim.expireRestored
  refine foldl (fun c i => ?_) _ c
  split
  · exact expire c i
  · exact refl c

theorem returnChair (c : Claim) (fr : StackFrame) (why : Reason) : c.Floored (c.returnChair fr why) := by
  unfold Claim.returnChair
  split
  · split
    · split
      · exact refl c
      · split
        · exact refl c
        · exact setChairMode c _ _
        · exact closeChair c _ _
    · exact refl c
  · exact refl c

theorem pop (c : Claim) (why : Reason) : c.Floored (c.pop why).1 := by
  unfold Claim.pop
  split
  · exact refl c
  · next fr rest top =>
    dsimp only
    have late (d : Claim) (x : Notice) : d.Floored (((((d.reconcile fr.savedPhase).expireRestored).returnChair fr why).notify x).raise .interrupt).fillPoint :=
      (((((reconcile d _).trans (expireRestored _)).trans (returnChair _ fr why)).trans (notify _ x)).trans (raise _ _)).trans (fillPoint _)
    generalize ht : (c.modFloor fun f => { f with stack := rest, subject := fr.subject }) = c0
    obtain ⟨records, told⟩ := restoreRecords fr.records (c0.setPhase fr.savedPhase, 0, 0)
    generalize hx : fr.records.foldl Claim.restoreRecord (c0.setPhase fr.savedPhase, 0, 0) = x at records told ⊢
    have entries : x.1.Floored (fr.entries.foldl Claim.returnEntry x.1) := foldl returnEntry _ _
    refine ofFloor (f := fun f => { f with stack := rest, subject := fr.subject }) (· ∈ heldSeats fr) rfl (fun m other => ?_) ?_ (fun m noted => ?_)
    · have away : fr.holds m = false := by
        rw [← Bool.not_eq_true, StackFrame.holds_iff]
        exact other
      refine ⟨.rfl, .rfl, .rfl, .rfl, ?_⟩
      rw [top, List.any_cons, away, Bool.false_or]
    · rw [ht]
      exact (((setPhase c0 _).trans records).trans entries).trans (late _ _)
    · refine (late _ _).told m ?_
      rcases List.mem_append.mp noted with record | entry
      · obtain ⟨h, hh, rfl⟩ := List.mem_map.mp record
        exact entries.told _ (told h hh)
      · obtain ⟨e, he, rfl⟩ := List.mem_map.mp entry
        exact foldl_told (key := HeldReply.seat) returnEntry returnEntry_told he _

/-! ### The presses (R30 to R33, R59 to R63, R89, R102) -/

theorem joinRequests (c : Claim) (n : Nat) (t : ChamberTime) : c.Floored (c.joinRequests n t) := by
  unfold Claim.joinRequests
  dsimp only
  repeat' split
  · exact refuse c n _ _
  · exact refuse c n _ _
  · exact refuse c n _ _
  · exact enqueue c _ le_rfl

theorem pressReq (c : Claim) (n : Nat) (t : ChamberTime) : c.Floored (c.pressReq n t) := by
  unfold Claim.pressReq
  split
  · exact dequeue c n _
  · split
    · exact closeSlotOf c n _
    · exact refuse c n _ _
  · exact refuse c n _ _
  · exact refuse c n _ _
  · exact joinRequests c n t
  · exact joinRequests c n t

theorem joinReplies (c : Claim) (n : Nat) (t : ChamberTime) : c.Floored (c.joinReplies n t) := by
  unfold Claim.joinReplies
  split
  · exact refuse c n _ _
  · split
    · exact refuse c n _ _
    · split
      · exact refuse c n _ _
      · refine ofFloor (· = n) rfl (fun m other => .ofReplies ?_) (((notify _ _).trans (raise _ _)).trans (touch _ n))
          (fun m own => by rw [own]; exact touch_told _ _)
        simp only [List.mem_append, List.mem_singleton]
        exact ⟨fun ⟨x, hx, own⟩ => ⟨x, hx.resolve_right fun h => other (by rw [← own, h]), own⟩, fun ⟨x, hx, own⟩ => ⟨x, .inl hx, own⟩⟩

theorem pressRpl (c : Claim) (n : Nat) (t : ChamberTime) : c.Floored (c.pressRpl n t) := by
  unfold Claim.pressRpl
  split
  · exact dropReply c n _
  · exact refuse c n _ _
  · exact refuse c n _ _
  · exact refuse c n _ _
  · exact joinReplies c n t
  · exact joinReplies c n t

theorem pressMic (c : Claim) (n : Nat) : c.Floored (c.pressMic n) := by
  unfold Claim.pressMic
  split
  · split
    · exact refuse c n _ _
    · exact closeChair c _ _
  · split
    · next i free => exact openChair c (by simpa using List.find?_some free) n _
    · exact refuse c n _ _

theorem pressCut (c : Claim) (n : Nat) : c.Floored (c.pressCut n) := by
  unfold Claim.pressCut
  split
  · split
    · exact closeSlot c _ _
    · exact refuse c n _ _
  · split
    · exact closeSlot c _ _
    · exact refuse c n _ _
  · exact refuse c n _ _
  · exact refuse c n _ _

theorem pressNext (c : Claim) (n : Nat) : c.Floored (c.pressNext n) := by
  unfold Claim.pressNext
  repeat' split
  · exact refuse c n _ _
  · exact refuse c n _ _
  · exact refuse c n _ _
  · exact refuse c n _ _
  · exact grantSpeak c _ _ _

theorem pressPrio (c : Claim) (n : Nat) : c.Floored (c.pressPrio n) := by
  unfold Claim.pressPrio
  repeat' split
  · exact pop c _
  · exact refuse c n _ _
  · exact pushSeat c n

theorem press (c : Claim) (n : Nat) (t : ChamberTime) (b : Button) : c.Floored (c.press n t b) := by
  unfold Claim.press
  dsimp only
  split
  · exact refuse c n b _
  · split
    · exact refuse c n b _
    · split
      · exact pressReq c n t
      · exact pressRpl c n t
      · exact pressMic c n
      · exact pressCut c n
      · exact pressNext c n
      · exact pressPrio c n

theorem applyRecord (c : Claim) (r : CaptureRecord) : c.Floored (c.applyRecord r) :=
  foldl (fun c b => press c r.seat r.stamp b) _ c

/-! ### The passes and the alarms -/

theorem passSlot (c : Claim) (i : Fin 6) : c.Floored (c.passSlot i) := by
  unfold Claim.passSlot
  split
  · exact refl c
  · dsimp only
    split
    · exact (touch c _).trans (expire _ i)
    · exact touch c _

theorem deadlinePass (c : Claim) : c.Floored c.deadlinePass := foldl passSlot _ c

/-- A refusal display removed, and told of. -/
theorem endRefusal (c : Claim) (n : Nat) : c.Floored ((c.modSeat n fun r => { r with refusalUntil := none }).touch n) := by
  have seat (m : Nat) : ((c.modSeat n fun r => { r with refusalUntil := none }).st.seat m).image = (c.st.seat m).image ∧
      ((c.modSeat n fun r => { r with refusalUntil := none }).st.seat m).presence = (c.st.seat m).presence ∧
      (m ≠ n → (c.st.seat m).Alike ((c.modSeat n fun r => { r with refusalUntil := none }).st.seat m)) := by
    by_cases own : m = n
    · subst own
      by_cases known : (seatIndex m).isSome
      · rw [show (c.modSeat m fun r => { r with refusalUntil := none }).st.seat m = _ from State.seat_modSeat_self c.st known _]
        exact ⟨rfl, rfl, fun other => absurd rfl other⟩
      · have outside : seatIndex m = none := by simpa using known
        rw [show (c.modSeat m fun r => { r with refusalUntil := none }).st = c.st from
          State.modSeat_outside c.st outside fun r => { r with refusalUntil := none }]
        exact ⟨rfl, rfl, fun other => absurd rfl other⟩
    · rw [show (c.modSeat n fun r => { r with refusalUntil := none }).st.seat m = _ from State.seat_modSeat_ne c.st own _]
      exact ⟨rfl, rfl, fun _ => .refl _⟩
  have floor : (c.modSeat n fun r => { r with refusalUntil := none }).floor = c.floor := Claim.modSeat_floor c n _
  have trunks : (c.modSeat n fun r => { r with refusalUntil := none }).st.trunks = c.st.trunks := State.modSeat_trunks c.st n _
  have touched : (c.modSeat n fun r => { r with refusalUntil := none }).touched = c.touched := rfl
  generalize (c.modSeat n fun r => { r with refusalUntil := none }) = e at *
  have leads (m : Nat) : e.st.leads m = c.st.leads m := by
    have here (k : Nat) : e.st.isHere k = c.st.isHere k := by
      unfold State.isHere
      rw [(seat k).2.1]
    unfold State.leads State.firstPresent
    simp only [here]
    rw [show e.st.floor = c.st.floor from floor]
  exact ⟨Tells.ofRaw (X := (· = n)) (fun m => (seat m).1) (fun m h => touched ▸ h)
    (fun m other => ⟨(seat m).2.2 other, by rw [floor]; exact .refl _ m, leads m⟩) (touch e n).toTells
    (fun m own => by rw [own]; exact touch_told e n), (touch e n).trunks.trans trunks⟩

theorem endRefusals (c : Claim) : c.Floored c.endRefusals :=
  foldl (f := fun c (x : SeatRecord × Nat) => (c.modSeat x.2 fun r => { r with refusalUntil := none }).touch x.2)
    (fun c x => endRefusal c x.2) _ c

theorem checkDisplacement (c : Claim) : c.Floored c.checkDisplacement := by
  unfold Claim.checkDisplacement
  split
  · exact fillPoint c
  · exact refl c

theorem fireAlarm (c : Claim) (i : Fin 3) : c.Floored (c.fireAlarm i) := by
  have told : c.Floored (((c.modAlarm i fun a => { a with armed := false }).raise (alarmFlag i)).notify
      ⟨.alarm, .alarm i, some (codeIn alarmActionRow c.st.timeBase.alarms[i].action), [c.st.timeBase.alarms[i].target]⟩) :=
    same rfl rfl rfl rfl
  unfold Claim.fireAlarm
  dsimp only
  split
  · exact told
  · exact told.trans (haltFloor _)
  · exact told.trans (closeGate _)

theorem checkAlarms (c : Claim) : c.Floored c.checkAlarms := by
  unfold Claim.checkAlarms
  refine foldl (fun c i => ?_) _ c
  split
  · exact fireAlarm c i
  · exact refl c

end Claim.Floored
end Sys2Proof.Machine
end

section
/-! SUPPORT. The end of an event: the noted seats take the image of R16's table, which marks their positions, and nothing else changes
an image or a trunk (R19, R146). -/

namespace Sys2Proof.Machine

namespace State

/-! ### The images settled one after another -/

/-- The seats' records but for their images stay. -/
theorem settleImage_record (s : State) (n m : Nat) : ((s.settleImage n).seat m).binding = (s.seat m).binding ∧
    ((s.settleImage n).seat m).presence = (s.seat m).presence ∧ ((s.settleImage n).seat m).refusalUntil = (s.seat m).refusalUntil := by
  rw [settleImage_seat]
  exact ⟨rfl, rfl, rfl⟩

theorem settleImage_timeBase (s : State) (n : Nat) : (s.settleImage n).timeBase = s.timeBase :=
  (State.FloorFrame.settleImage s n).timeBase

/-- A settled image is none of what R16's table reads. -/
theorem settleImage_image (s : State) (n m : Nat) : (s.settleImage n).image m = s.image m :=
  image_congr (settleImage_floor s n) (settleImage_timeBase s n) (fun k => (settleImage_record s n k).2.1)
    (settleImage_record s n m).1 (settleImage_record s n m).2.2

/-- A settled image is the table's. -/
theorem settleImage_settled (s : State) (n : Nat) : ((s.settleImage n).seat n).image = s.image n := by
  by_cases known : (seatIndex n).isSome
  · rw [settleImage_seat_self s known]
  · have outside : seatIndex n = none := by simpa using known
    have initial (t : State) : t.seat n = .initial := by
      unfold seat
      rw [outside]
    rw [initial]
    unfold image
    rw [initial]
    rfl

/-- A seat whose image is not the table's was so before. -/
theorem settleImage_differs {s : State} {n m : Nat} (h : (s.settleImage n).image m ≠ ((s.settleImage n).seat m).image) :
    m ≠ n ∧ s.image m ≠ (s.seat m).image := by
  rw [settleImage_image] at h
  by_cases own : m = n
  · subst own
    exact absurd (settleImage_settled s m).symm h
  · rw [settleImage_seat_ne s own] at h
    exact ⟨own, h⟩

section Settled

variable (l : List Nat) (s : State)

theorem foldl_settleImage_image (m : Nat) : (l.foldl settleImage s).image m = s.image m := by
  induction l generalizing s with
  | nil => rfl
  | cons n l ih => exact (ih (s.settleImage n)).trans (settleImage_image s n m)

/-- A seat of the list has the table's image in the end. -/
theorem foldl_settleImage_mem {m : Nat} (h : m ∈ l) : ((l.foldl settleImage s).seat m).image = s.image m := by
  have stays (l : List Nat) (s : State) (settled : (s.seat m).image = s.image m) :
      ((l.foldl settleImage s).seat m).image = s.image m := by
    induction l generalizing s with
    | nil => exact settled
    | cons n l ih =>
      rw [List.foldl_cons, ih, settleImage_image]
      by_cases own : m = n
      · subst own
        rw [settleImage_settled, settleImage_image]
      · rw [settleImage_seat_ne s own, settled, settleImage_image]
  induction l generalizing s with
  | nil => exact nomatch h
  | cons n l ih =>
    rw [List.foldl_cons]
    rcases List.mem_cons.mp h with rfl | later
    · rw [stays _ _ (by rw [settleImage_settled, settleImage_image]), settleImage_image]
    · rw [ih _ later, settleImage_image]

/-- Every other seat keeps its record. -/
theorem foldl_settleImage_other {m : Nat} (h : m ∉ l) : (l.foldl settleImage s).seat m = s.seat m := by
  induction l generalizing s with
  | nil => rfl
  | cons n l ih =>
    obtain ⟨other, later⟩ := not_or.mp (fun e => h (List.mem_cons.mpr e))
    rw [List.foldl_cons, ih _ later, settleImage_seat_ne s other]

/-- An entry that is new after images settled is that of a seat of the list, whose image changed; an old one keeps its label flag. -/
structure Entered (i : TrunkNo) (x : PendingUpdate) : Prop where
  label : x.label = false
  takes : (s.trunk i).takesMark x.position = true
  seat : ∃ n b, n ∈ l ∧ (s.seat n).binding = some b ∧ b.trunk = i ∧ b.position = x.position ∧ s.image n ≠ (s.seat n).image

/-- A mark without the label flag adds its own entry alone. -/
theorem mem_mark_false {e : TrunkEngine} {p : Nat} {x : PendingUpdate} (h : x ∈ (e.mark p false).pending) :
    x ∈ e.pending ∨ e.takesMark p = true ∧ x = ⟨p, false⟩ := by
  unfold TrunkEngine.mark at h
  split at h
  · next takes =>
    split at h
    · obtain ⟨y, hy, rfl⟩ := List.mem_map.mp h
      left
      split
      · simpa using hy
      · exact hy
    · rcases List.mem_append.mp h with old | new
      · exact .inl old
      · exact .inr ⟨takes, List.mem_singleton.mp new⟩
  · exact .inl h

/-- The pending lists after images settled. -/
theorem foldl_settleImage_pending {i : TrunkNo} {x : PendingUpdate} (h : x ∈ ((l.foldl settleImage s).trunk i).pending) :
    x ∈ (s.trunk i).pending ∨ s.Entered l i x := by
  induction l generalizing s with
  | nil => exact .inl h
  | cons n l ih =>
    have takes (p : Nat) : ((s.settleImage n).trunk i).takesMark p = (s.trunk i).takesMark p := by
      rw [(State.FloorFrame.settleImage s n).trunks i]
      rfl
    rcases ih (s.settleImage n) h with early | ⟨label, taken, m, b, hm, hb, trunk, position, differs⟩
    · cases hb : (s.seat n).binding with
      | none =>
        have same : (s.settleImage n).trunk i = s.trunk i := by
          unfold settleImage
          split
          · rfl
          · dsimp only
            have kept : (s.modSeat n fun r => { r with image := s.image n }).trunk i = s.trunk i :=
              congrArg (fun v : Vector TrunkEngine 4 => v[i]) (modSeat_trunks s n _)
            split
            · exact kept
            · unfold markSeat
              have unbound : ((s.modSeat n fun r => { r with image := s.image n }).seat n).binding = none := by
                have binding := (State.SameBindings.modSeat s n (fun r => { r with image := s.image n }) fun _ => rfl) n
                rw [binding, hb]
              rw [unbound]
              exact kept
        rw [same] at early
        exact .inl early
      | some b =>
        have known : (seatIndex n).isSome := by
          obtain ⟨low, high⟩ := State.bound_range hb
          exact seatIndex_isSome low high
        rw [settleImage_trunk s known hb] at early
        split at early
        · next marked =>
          obtain ⟨own, changed, -⟩ := marked
          rcases mem_mark_false early with old | ⟨takes, rfl⟩
          · exact .inl old
          · exact .inr ⟨rfl, takes, n, b, List.mem_cons_self, hb, own.symm, rfl, changed⟩
        · exact .inl early
    · obtain ⟨-, before⟩ := settleImage_differs differs
      rw [takes] at taken
      exact .inr ⟨label, taken, m, b, List.mem_cons_of_mem _ hm, (settleImage_record s n m).1.symm.trans hb, trunk, position, before⟩

end Settled

end State

/-! ### The end of an event -/

namespace Claim

/-- The state whose images the end of an event settles: the version counted. -/
def counted (before : List RequestEntry) (c : Claim) : State :=
  if before ≠ c.floor.requests ∨ c.tookEntry then (c.st.modFloor fun f => { f with listVersion := f.listVersion + 1 }).raise .list
  else c.st

theorem close_eq (before : List RequestEntry) (c : Claim) : close before c = c.touched.foldl State.settleImage (c.counted before) := rfl

/-- The version concerns no seat, no place, no trunk and no time. -/
theorem counted_rest (before : List RequestEntry) (c : Claim) : (c.counted before).seats = c.st.seats ∧
    (c.counted before).trunks = c.st.trunks ∧ (c.counted before).floor.places = c.floor.places ∧
    (c.counted before).timeBase = c.st.timeBase := by
  unfold counted
  split
  · exact ⟨rfl, rfl, rfl, rfl⟩
  · exact ⟨rfl, rfl, rfl, rfl⟩

theorem counted_image (before : List RequestEntry) (c : Claim) (n : Nat) : (c.counted before).image n = c.st.image n := by
  unfold counted
  split
  · rfl
  · rfl

/-- A seat told of shows at the end what the law of the images asks. -/
theorem close_imageOk (before : List RequestEntry) {c : Claim} {n : Nat} (h : c.Told n) : (close before c).ImageOk n := by
  have image : (close before c).image n = c.st.image n := by
    rw [close_eq, State.foldl_settleImage_image, counted_image]
  by_cases noted : n ∈ c.touched
  · refine State.imageOk_of_image ?_
    rw [image, close_eq, State.foldl_settleImage_mem _ _ noted, counted_image]
  · have ok := h.resolve_left noted
    obtain ⟨seats, -, places, -⟩ := c.counted_rest before
    have requests : (c.counted before).floor.requests = c.st.floor.requests := by
      unfold Floor.places at places
      simp only [Prod.mk.injEq] at places
      exact places.2.2.1
    have counted : (c.counted before).ImageOk n :=
      ok.congr (Floored.seats_alike seats n) (.ofPlaces places n) (Floored.leads_congr requests seats n)
    have seat (m : Nat) : ((close before c).seat m).presence = ((c.counted before).seat m).presence := by
      rw [close_eq, State.foldl_settleImage_seat]
    have floor : (close before c).floor = (c.counted before).floor := by rw [close_eq, State.foldl_settleImage_floor]
    refine counted.congr ?_ (by rw [floor]; exact .refl _ n) ?_
    · rw [close_eq, State.foldl_settleImage_other _ _ noted]
      exact .refl _
    · unfold State.leads
      rw [State.firstPresent_congr floor seat]

end Claim

namespace State

variable {s : State} {body : Claim → Claim}

/-- A seat that an event's body tells of shows after the event what the law of the images asks. -/
theorem event_imageOk {n : Nat} (h : (body (.start s)).Told n) : (s.event body).ImageOk n :=
  Claim.close_imageOk _ ((Claim.Floored.settleFloor _).told n h)

/-- An event keeps the law of the images when its body tells of every seat. -/
theorem event_imageLaw (h : (Claim.start s).Tells (body (.start s))) (law : s.ImageLaw) : (s.event body).ImageLaw :=
  imageLaw_iff.mpr fun n => event_imageOk (h.told n (.inr (imageLaw_iff.mp law n)))

/-- The trunks after an event's body and the fill are those of the body. -/
theorem event_trunks (s : State) (body : Claim → Claim) (i : TrunkNo) :
    (body (.start s)).settleFloor.st.trunk i = (body (.start s)).st.trunk i := by
  unfold trunk
  rw [(Claim.Floored.settleFloor _).trunks]

/-- What an event's end adds to a pending list is the position of a seat whose image it changed (R19, R146). -/
theorem event_pending {i : TrunkNo} {x : PendingUpdate} (h : x ∈ ((s.event body).trunk i).pending) :
    x ∈ ((body (.start s)).st.trunk i).pending ∨ x.label = false ∧ ((body (.start s)).st.trunk i).takesMark x.position = true ∧
      ∃ n b, ((body (.start s)).st.seat n).binding = some b ∧ b.trunk = i ∧ b.position = x.position ∧
        ((s.event body).seat n).image ≠ ((body (.start s)).st.seat n).image := by
  have settled := s.event_trunks body i
  have floored := Claim.Floored.settleFloor (body (.start s))
  have bindings : (body (.start s)).st.SameBindings (body (.start s)).settleFloor.st :=
    .ofFloor (Claim.settleFloor_frame (.refl _))
  unfold State.event at h ⊢
  generalize (body (.start s)).settleFloor = c at *
  obtain ⟨seats, trunks, -, -⟩ := c.counted_rest s.floor.requests
  have trunk : (c.counted s.floor.requests).trunk i = (body (.start s)).st.trunk i := by
    rw [← settled]
    unfold State.trunk
    rw [trunks]
  have seat (n : Nat) : (c.counted s.floor.requests).seat n = c.st.seat n := by
    unfold State.seat
    rw [seats]
  rw [Claim.close_eq] at h
  rcases State.foldl_settleImage_pending _ _ h with old | ⟨label, takes, n, b, noted, hb, own, position, differs⟩
  · rw [trunk] at old
    exact .inl old
  · rw [trunk] at takes
    rw [seat] at hb differs
    refine .inr ⟨label, takes, n, b, (bindings n).symm.trans hb, own, position, ?_⟩
    rw [Claim.close_eq, State.foldl_settleImage_mem _ _ noted, ← floored.image n]
    exact differs

end State

/-! ### Presences and trunks -/

namespace Claim

namespace Tells

variable {c d : Claim}

/-- Work on the trunks and the reports. -/
theorem same (seats : d.st.seats = c.st.seats) (touched : d.touched = c.touched) (places : d.floor.places = c.floor.places) : c.Tells d := by
  refine Tells.ofRaw (X := fun _ => False) (e := d) (fun m => (Floored.seats_alike seats m).image) (fun m h => touched ▸ h)
    (fun m _ => ⟨Floored.seats_alike seats m, .ofPlaces places m, Floored.leads_congr ?_ seats m⟩) (.refl d) (fun _ h => h.elim)
  unfold Floor.places at places
  simp only [Prod.mk.injEq] at places
  exact places.2.2.1

theorem modTrunk (c : Claim) (t : TrunkNo) (f : TrunkEngine → TrunkEngine) : c.Tells (c.modTrunk t f) := same rfl rfl rfl

theorem setTrunkState (c : Claim) (t : TrunkNo) (x : TrunkState) : c.Tells (c.setTrunkState t x) := same rfl rfl rfl

end Tells

/-- Presences written one after another are none of what an image but a leader's rests on. -/
theorem foldl_presence_alike (ns : List Nat) (p : Presence) (c : Claim) (m : Nat) :
    (c.st.seat m).Alike ((ns.foldl (fun c n => c.modSeat n fun r => { r with presence := p }) c).st.seat m) ∧
      (ns.foldl (fun c n => c.modSeat n fun r => { r with presence := p }) c).floor = c.floor ∧
      (ns.foldl (fun c n => c.modSeat n fun r => { r with presence := p }) c).touched = c.touched ∧
      (ns.foldl (fun c n => c.modSeat n fun r => { r with presence := p }) c).st.trunks = c.st.trunks := by
  induction ns generalizing c with
  | nil => exact ⟨.refl _, rfl, rfl, rfl⟩
  | cons n ns ih =>
    obtain ⟨seat, floor, touched, trunks⟩ := ih (c.modSeat n fun r => { r with presence := p })
    have one : (c.st.seat m).Alike ((c.modSeat n fun r => { r with presence := p }).st.seat m) := by
      have kept (g : SeatRecord → Prop) (hg : g (c.st.seat m)) (hf : g { c.st.seat m with presence := p }) :
          g ((c.modSeat n fun r => { r with presence := p }).st.seat m) := by
        by_cases own : m = n
        · subst own
          by_cases known : (seatIndex m).isSome
          · rw [show (c.modSeat m fun r => { r with presence := p }).st.seat m = _ from State.seat_modSeat_self c.st known _]
            exact hf
          · have outside : seatIndex m = none := by simpa using known
            rw [show (c.modSeat m fun r => { r with presence := p }).st = c.st from
              State.modSeat_outside c.st outside fun r => { r with presence := p }]
            exact hg
        · rw [show (c.modSeat n fun r => { r with presence := p }).st.seat m = _ from State.seat_modSeat_ne c.st own _]
          exact hg
      exact kept (c.st.seat m).Alike (.refl _) ⟨rfl, rfl, id⟩
    exact ⟨⟨seat.image.trans one.image, seat.binding.trans one.binding, seat.refusal ∘ one.refusal⟩, floor.trans (Claim.modSeat_floor c n _),
      touched, trunks.trans (State.modSeat_trunks c.st n _)⟩

namespace Floored

variable {c d : Claim}

theorem setPresences (c : Claim) (ns : List Nat) (p : Presence) : c.Floored (c.setPresences ns p) := by
  have alike := foldl_presence_alike ns p c
  refine ofHead (f := fun c => ns.foldl (fun c n => c.modSeat n fun r => { r with presence := p }) c) (fun _ => False)
    (fun m => (alike m).1.image) (alike 0).2.2.1 (alike 0).2.2.2 (fun m _ => ⟨(alike m).1, ?_⟩) (refl _) (fun _ h => h.elim)
  rw [show (ns.foldl (fun c n => c.modSeat n fun r => { r with presence := p }) c).floor = c.floor from (alike m).2.1]
  exact .refl _ m

theorem setPresence (c : Claim) (n : Nat) (p : Presence) : c.Floored (c.setPresence n p) := setPresences c [n] p

theorem reportPresence (c : Claim) (n : Nat) (p : Presence) : c.Floored (c.reportPresence n p) := (notify _ _).trans (raise _ _)

theorem closeTrunkSlots (c : Claim) (t : TrunkNo) : c.Floored (c.closeTrunkSlots t) := by
  have slots (l : List (Fin 6 × DelegateSlot)) (d : Claim) : d.Floored (l.foldl (fun c x => c.closeSlot x.1 .trunk) d) :=
    foldl (fun c x => closeSlot c x.1 .trunk) l d
  have chairs (l : List (Fin 2)) (d : Claim) : d.Floored (l.foldl (fun c i => c.closeChair i .trunk) d) :=
    foldl (fun c i => closeChair c i .trunk) l d
  unfold Claim.closeTrunkSlots
  dsimp only
  exact (slots _ _).trans (chairs _ _)

end Floored

namespace Tells

theorem markReturn (c : Claim) (n : Nat) : c.Tells (c.markReturn n) :=
  same (State.markSeat_seats _ _ _) rfl (congrArg Floor.places (State.markSeat_floor _ _ _))

theorem leave (c : Claim) (n : Nat) : c.Tells (c.leave n) := by
  unfold Claim.leave
  dsimp only
  split
  · exact (Floored.removeSeat c n _).toTells.trans (modTrunk _ _ _)
  · exact (Floored.removeSeat c n _).toTells

theorem becomeAbsent (c : Claim) (n : Nat) : c.Tells (c.becomeAbsent n) :=
  ((Floored.setPresence c n _).trans (Floored.reportPresence _ n _)).toTells.trans (leave _ n)

theorem becomePresent (c : Claim) (n : Nat) : c.Tells (c.becomePresent n) := by
  unfold Claim.becomePresent
  have returned : c.Tells (((c.setPresence n .present).reportPresence n .present).markReturn n) :=
    ((Floored.setPresence c n _).trans (Floored.reportPresence _ n _)).toTells.trans (markReturn _ n)
  have fills (d : Claim) (b : Prop) [Decidable b] : d.Tells (if b then d.fillPoint else d) := by
    split
    · exact (Floored.fillPoint d).toTells
    · exact refl d
  have serves (d : Claim) (b : Prop) [Decidable b] : d.Tells (if b then d.servePoint else d) := by
    split
    · exact (Floored.servePoint d).toTells
    · exact refl d
  split
  · exact refl c
  · exact (Floored.setPresence c n _).toTells
  · exact returned
  · exact (returned.trans (fills _ _)).trans (serves _ _)

theorem startEnumeration (c : Claim) (t : TrunkNo) : c.Tells (c.startEnumeration t) := by
  unfold Claim.startEnumeration
  dsimp only
  exact ((((((modTrunk c t _).trans (Floored.closeTrunkSlots _ t).toTells).trans (Floored.setPresences _ _ _).toTells).trans
    (Floored.raise _ _).toTells).trans (modTrunk _ _ _)).trans (setTrunkState _ _ _)).trans (Floored.fillPoint _).toTells

theorem disableTrunk (c : Claim) (t : TrunkNo) : c.Tells (c.disableTrunk t) := by
  unfold Claim.disableTrunk
  dsimp only
  exact (((((((modTrunk c t _).trans (Floored.closeTrunkSlots _ t).toTells).trans (Floored.setPresences _ _ _).toTells).trans
    (Floored.raise _ _).toTells).trans (Floored.removeSeats _ _ _).toTells).trans (modTrunk _ _ _)).trans (setTrunkState _ _ _)).trans
    (Floored.fillPoint _).toTells

theorem completeEnumeration (c : Claim) (t : TrunkNo) : c.Tells (c.completeEnumeration t) := by
  have marks (l : List Nat) (d : Claim) : d.Tells (l.foldl Claim.markReturn d) := foldl markReturn l d
  have leaves (l : List Nat) (d : Claim) : d.Tells (l.foldl Claim.leave d) := foldl leave l d
  unfold Claim.completeEnumeration
  dsimp only
  exact ((((((((Floored.setPresences c _ _).trans (Floored.setPresences _ _ _)).toTells.trans (marks _ _)).trans
    (Floored.dropReplies _ _ _).toTells).trans (leaves _ _)).trans (modTrunk _ _ _)).trans (Floored.raise _ _).toTells).trans
    (setTrunkState _ _ _)).trans (Floored.fillPoint _).toTells

end Tells
end Claim

end Sys2Proof.Machine
end

section
/-! SUPPORT. The completion of enumeration (R141) and the TALLY wait (R139). -/

namespace Sys2Proof.Machine

/-! ### The seats of a trunk, by their positions -/

/-- The seats bound on the trunk at the positions of which p holds, in position order. -/
def State.boundWhere (s : State) (t : TrunkNo) (p : Nat → Bool) : List Nat :=
  ((sortBy (fun (x y : Nat × Nat) => x.2 ≤ y.2) (s.boundOn t)).filter fun x => p x.2).map (·.1)

theorem State.mem_boundOn {s : State} {t : TrunkNo} {x : Nat × Nat} :
    x ∈ s.boundOn t ↔ ∃ b, (s.seat x.1).binding = some b ∧ b.trunk = t ∧ b.position = x.2 := by
  unfold State.boundOn
  simp only [List.mem_filterMap, Option.bind_eq_some_iff]
  constructor
  · rintro ⟨y, hy, b, hb, found⟩
    obtain ⟨-, -, record⟩ := State.mem_seatList.mp hy
    split at found
    · next own =>
      rw [← Option.some.inj found]
      exact ⟨b, record ▸ hb, own, rfl⟩
    · exact nomatch found
  · rintro ⟨b, hb, own, position⟩
    obtain ⟨low, high⟩ := State.bound_range hb
    exact ⟨(s.seat x.1, x.1), State.mem_seatList.mpr ⟨low, high, rfl⟩, b, hb, by rw [if_pos own, position]⟩

theorem State.mem_boundWhere {s : State} {t : TrunkNo} {p : Nat → Bool} {n : Nat} :
    n ∈ s.boundWhere t p ↔ ∃ b, (s.seat n).binding = some b ∧ b.trunk = t ∧ p b.position = true := by
  unfold State.boundWhere
  simp only [List.mem_map, List.mem_filter, (sortBy_perm _ _).mem_iff, State.mem_boundOn]
  constructor
  · rintro ⟨⟨m, q⟩, ⟨⟨b, hb, own, rfl⟩, hp⟩, rfl⟩
    exact ⟨b, hb, own, hp⟩
  · rintro ⟨b, hb, own, hp⟩
    exact ⟨(n, b.position), ⟨⟨b, hb, own, rfl⟩, hp⟩, rfl⟩

namespace Claim

/-! ### Presences written -/

theorem foldl_presence_seat (ns : List Nat) (p : Presence) (c : Claim) {n : Nat} (known : (seatIndex n).isSome) :
    (ns.foldl (fun c n => c.modSeat n fun r => { r with presence := p }) c).st.seat n =
      { c.st.seat n with presence := if n ∈ ns then p else (c.st.seat n).presence } := by
  induction ns generalizing c with
  | nil => simp
  | cons m ns ih =>
    rw [List.foldl_cons, ih]
    by_cases own : n = m
    · subst own
      rw [show (c.modSeat n fun r => { r with presence := p }).st.seat n = _ from State.seat_modSeat_self c.st known _]
      simp
    · rw [show (c.modSeat m fun r => { r with presence := p }).st.seat n = _ from State.seat_modSeat_ne c.st own _]
      simp [own]

theorem setPresences_seat (c : Claim) (ns : List Nat) (p : Presence) {n : Nat} (known : (seatIndex n).isSome) :
    (c.setPresences ns p).st.seat n = { c.st.seat n with presence := if n ∈ ns then p else (c.st.seat n).presence } := by
  unfold setPresences
  rw [trackHead_st]
  exact foldl_presence_seat ns p c known

theorem setPresences_floor (c : Claim) (ns : List Nat) (p : Presence) : (c.setPresences ns p).floor = c.floor := by
  unfold setPresences
  rw [show (c.trackHead fun c => ns.foldl (fun c n => c.modSeat n fun r => { r with presence := p }) c).floor = _ from
    congrArg State.floor (trackHead_st _ _)]
  exact (foldl_presence_alike ns p c 0).2.1

/-! ### Seats that return and seats that leave -/

/-- A return marks the seat's position, and else changes the pending lists of no trunk. -/
theorem markReturn_trunk (c : Claim) {n : Nat} {b : Binding} (hb : (c.st.seat n).binding = some b) (own : b.trunk = t) :
    (c.markReturn n).st.trunk t = (c.st.trunk t).mark b.position (c.st.seat n).label.isSome := by
  subst own
  unfold markReturn State.markSeat
  rw [lift_st, hb]
  exact State.trunk_modTrunk_self _ _ _

theorem markReturn_seats (c : Claim) (n : Nat) : (c.markReturn n).st.seats = c.st.seats := State.markSeat_seats _ _ _

theorem markReturn_floor (c : Claim) (n : Nat) : (c.markReturn n).floor = c.floor := State.markSeat_floor _ _ _

/-- A seat that leaves takes its position off the pending list (R8). -/
theorem leave_trunk (c : Claim) {n : Nat} {b : Binding} (hb : (c.st.seat n).binding = some b) (own : b.trunk = t) :
    (c.leave n).st.trunk t = (c.st.trunk t).unmark b.position := by
  subst own
  have kept : (c.removeSeat n .absent).st.trunk b.trunk = c.st.trunk b.trunk := by
    unfold State.trunk
    rw [(Floored.removeSeat c n .absent).trunks]
  unfold leave
  dsimp only
  rw [hb]
  dsimp only
  rw [lift_st, State.trunk_modTrunk_self, kept]

theorem leave_seats (c : Claim) (n : Nat) : (c.leave n).st.seats = c.st.seats := by
  have kept : (c.removeSeat n .absent).st.seats = c.st.seats := removeSeat_seats c n _
  unfold leave
  dsimp only
  cases (c.st.seat n).binding with
  | none => exact kept
  | some b =>
    dsimp only
    rw [lift_st, State.modTrunk_seats]
    exact kept

theorem leave_floor (c : Claim) (n : Nat) : (c.leave n).floor = (c.removeSeat n .absent).floor := by
  unfold leave
  dsimp only
  split <;> rfl

theorem leave_within (c : Claim) (n : Nat) : c.floor.Within (c.leave n).floor := by
  rw [leave_floor]
  exact c.removeSeat_within n .absent

section Folds

variable {c : Claim} {t : TrunkNo} {l : List Nat}

theorem foldl_markReturn_rest : (l.foldl markReturn c).st.seats = c.st.seats ∧ (l.foldl markReturn c).floor = c.floor := by
  induction l generalizing c with
  | nil => exact ⟨rfl, rfl⟩
  | cons n l ih =>
    obtain ⟨seats, floor⟩ := ih (c := c.markReturn n)
    exact ⟨seats.trans (markReturn_seats c n), floor.trans (markReturn_floor c n)⟩

/-- Returns mark positions and change nothing else of the trunk. -/
theorem foldl_markReturn_trunk (on : ∀ n ∈ l, ∃ b, (c.st.seat n).binding = some b ∧ b.trunk = t) :
    (l.foldl markReturn c).st.trunk t = { c.st.trunk t with pending := ((l.foldl markReturn c).st.trunk t).pending } ∧
      (∀ x ∈ (c.st.trunk t).pending, ∃ y ∈ ((l.foldl markReturn c).st.trunk t).pending, y.position = x.position ∧
        (x.label = true → y.label = true)) ∧
      ∀ n ∈ l, ∀ b, (c.st.seat n).binding = some b → (c.st.trunk t).takesMark b.position = true →
        ∃ y ∈ ((l.foldl markReturn c).st.trunk t).pending, y.position = b.position ∧ ((c.st.seat n).label ≠ none → y.label = true) := by
  induction l generalizing c with
  | nil => exact ⟨rfl, fun x hx => ⟨x, hx, rfl, id⟩, fun _ h => nomatch h⟩
  | cons m l ih =>
    obtain ⟨d, hd, own⟩ := on m List.mem_cons_self
    have seat (k : Nat) : (c.markReturn m).st.seat k = c.st.seat k := by
      unfold State.seat
      rw [markReturn_seats]
    have marked := markReturn_trunk c hd own
    obtain ⟨rest, kept, entered⟩ := ih (c := c.markReturn m) fun k hk => by
      rw [seat]
      exact on k (List.mem_cons_of_mem _ hk)
    rw [marked] at rest kept entered
    refine ⟨?_, fun x hx => ?_, fun n hn b hb takes => ?_⟩
    · rw [List.foldl_cons]
      conv_lhs => rw [rest, TrunkEngine.mark_rest]
    · obtain ⟨y, hy, position, label⟩ := TrunkEngine.mark_kept _ d.position (c.st.seat m).label.isSome hx
      obtain ⟨z, hz, position', label'⟩ := kept y hy
      exact ⟨z, hz, position'.trans position, label' ∘ label⟩
    · rcases List.mem_cons.mp hn with rfl | later
      · obtain rfl : d = b := Option.some.inj (hd.symm.trans hb)
        obtain ⟨y, hy, position, label⟩ := TrunkEngine.mark_entered _ _ (c.st.seat n).label.isSome takes
        obtain ⟨z, hz, position', label'⟩ := kept y hy
        exact ⟨z, hz, position'.trans position, fun some_ => label' (label (Option.isSome_iff_ne_none.mpr some_))⟩
      · have same : ((c.st.trunk t).mark d.position (c.st.seat m).label.isSome).takesMark b.position = (c.st.trunk t).takesMark b.position := by
          rw [TrunkEngine.mark_rest]
          rfl
        have found := entered n later b ((congrArg SeatRecord.binding (seat n)).trans hb) (same.trans takes)
        rw [seat] at found
        exact found

theorem foldl_leave_rest : (l.foldl leave c).st.seats = c.st.seats ∧ c.floor.Within (l.foldl leave c).floor := by
  induction l generalizing c with
  | nil => exact ⟨rfl, .refl _⟩
  | cons n l ih =>
    obtain ⟨seats, within⟩ := ih (c := c.leave n)
    exact ⟨seats.trans (leave_seats c n), (leave_within c n).trans within⟩

/-- Departures take their own positions off the pending list and change nothing else of the trunk. -/
theorem foldl_leave_trunk (on : ∀ n ∈ l, ∃ b, (c.st.seat n).binding = some b ∧ b.trunk = t) :
    (l.foldl leave c).st.trunk t = { c.st.trunk t with pending := ((l.foldl leave c).st.trunk t).pending } ∧
      ∀ x ∈ (c.st.trunk t).pending, (∀ n ∈ l, ∀ b, (c.st.seat n).binding = some b → b.position ≠ x.position) →
        x ∈ ((l.foldl leave c).st.trunk t).pending := by
  induction l generalizing c with
  | nil => exact ⟨rfl, fun x hx _ => hx⟩
  | cons m l ih =>
    obtain ⟨d, hd, own⟩ := on m List.mem_cons_self
    have seat (k : Nat) : (c.leave m).st.seat k = c.st.seat k := by
      unfold State.seat
      rw [leave_seats]
    have unmarked := leave_trunk c hd own
    obtain ⟨rest, kept⟩ := ih (c := c.leave m) fun k hk => by
      rw [seat]
      exact on k (List.mem_cons_of_mem _ hk)
    rw [unmarked] at rest kept
    refine ⟨?_, fun x hx other => ?_⟩
    · rw [List.foldl_cons]
      conv_lhs => rw [rest]
      rfl
    · refine kept x (List.mem_filter.mpr ⟨hx, by simpa using (other m List.mem_cons_self d hd).symm⟩) fun n hn b hb => ?_
      rw [seat] at hb
      exact other n (List.mem_cons_of_mem _ hn) b hb

/-- Every seat that leaves is found nowhere. -/
theorem foldl_leave_lacks {n : Nat} (hn : n ∈ l) (one : c.floor.oneSlot n) : (l.foldl leave c).floor.Lacks n := by
  induction l generalizing c with
  | nil => exact nomatch hn
  | cons m l ih =>
    rcases List.mem_cons.mp hn with rfl | later
    · refine (foldl_leave_rest (c := c.leave n) (l := l)).2.lacks ?_
      rw [leave_floor]
      exact removeSeat_lacks c one .absent
    · exact ih later ((leave_within c m).oneSlot one)

theorem dropReplies_within (c : Claim) (ns : List Nat) (why : Reason) : c.floor.Within (c.dropReplies ns why).floor := by
  unfold dropReplies
  generalize (c.floor.replies.map (·.seat)).filter (· ∈ ns) = l
  induction l generalizing c with
  | nil => exact .refl _
  | cons n l ih => exact (c.dropReply_within n why).trans (ih _)

end Folds

end Claim

end Sys2Proof.Machine
end

section
/-! SUPPORT. The event that completes enumeration (R141). -/

namespace Sys2Proof.Machine

/-- A position of which the completion holds that its probe was answered. -/
def TrunkEngine.heard (e : TrunkEngine) (p : Nat) : Bool := p ≤ e.found && (e.station p).miss = 0

namespace Claim

/-! ### The state of a trunk written -/

theorem modTrunk_trunk (c : Claim) (t : TrunkNo) (f : TrunkEngine → TrunkEngine) : (c.modTrunk t f).st.trunk t = f (c.st.trunk t) :=
  State.trunk_modTrunk_self c.st t f

theorem modTrunk_seats (c : Claim) (t : TrunkNo) (f : TrunkEngine → TrunkEngine) : (c.modTrunk t f).st.seats = c.st.seats := rfl
theorem modTrunk_floor (c : Claim) (t : TrunkNo) (f : TrunkEngine → TrunkEngine) : (c.modTrunk t f).floor = c.floor := rfl
theorem raise_trunk (c : Claim) (e : EventFlag) (t : TrunkNo) : (c.raise e).st.trunk t = c.st.trunk t := rfl
theorem fillPoint_trunk (c : Claim) (t : TrunkNo) : c.fillPoint.st.trunk t = c.st.trunk t := rfl

theorem setTrunkState_trunk (c : Claim) (t : TrunkNo) (x : TrunkState) :
    (c.setTrunkState t x).st.trunk t = { c.st.trunk t with state := x } :=
  State.trunk_modTrunk_self c.st t fun e => { e with state := x }

theorem setTrunkState_seats (c : Claim) (t : TrunkNo) (x : TrunkState) : (c.setTrunkState t x).st.seats = c.st.seats := rfl
theorem setTrunkState_floor (c : Claim) (t : TrunkNo) (x : TrunkState) : (c.setTrunkState t x).floor = c.floor := rfl

theorem setTrunkState_flagged (c : Claim) (t : TrunkNo) (x : TrunkState) (l : Link) : (c.setTrunkState t x).st.flagged l .trunk :=
  State.flagged_raise _ l .trunk

theorem setTrunkState_grown (c : Claim) (t : TrunkNo) (x : TrunkState) {l : Link} {e : EventFlag} (h : c.st.flagged l e) :
    (c.setTrunkState t x).st.flagged l e :=
  State.flagged_of_grown (State.FloorFrame.raise _ .trunk).report (State.flagged_notify h _)

/-- The seats bound at positions heard from are PRESENT, the trunk's others ABSENT. -/
def sorted (c : Claim) (t : TrunkNo) : Claim :=
  (c.setPresences (c.st.boundWhere t (c.st.trunk t).heard) .present).setPresences
    (c.st.boundWhere t fun p => !(c.st.trunk t).heard p) .absent

/-- The returns of a completion. -/
def returned (c : Claim) (t : TrunkNo) : Claim := (c.st.boundWhere t (c.st.trunk t).heard).foldl markReturn (c.sorted t)

/-- The returns and the departures of a completion. -/
def departed (c : Claim) (t : TrunkNo) : Claim :=
  (c.st.boundWhere t fun p => !(c.st.trunk t).heard p).foldl leave
    ((c.returned t).dropReplies (c.st.boundWhere t fun p => !(c.st.trunk t).heard p) .absent)

theorem completeEnumeration_eq (c : Claim) (t : TrunkNo) : c.completeEnumeration t =
    ((((c.departed t).modTrunk t fun e => { e with pending := e.pending.filter (·.position ≤ e.found), plan := .quiet }).raise
      .presence).setTrunkState t (if (c.st.trunk t).found = 0 then .fault else .running)).fillPoint := rfl

variable (c : Claim) (t : TrunkNo)

theorem sorted_frame : (c.sorted t).floor = c.floor ∧ (c.sorted t).st.trunks = c.st.trunks := by
  unfold sorted
  exact ⟨(setPresences_floor _ _ _).trans (setPresences_floor _ _ _),
    ((Floored.setPresences c _ _).trans (Floored.setPresences _ _ _)).trunks⟩

theorem sorted_seat {n : Nat} (known : (seatIndex n).isSome) : (c.sorted t).st.seat n = { c.st.seat n with
    presence := if n ∈ c.st.boundWhere t (fun p => !(c.st.trunk t).heard p) then .absent
      else if n ∈ c.st.boundWhere t (c.st.trunk t).heard then .present else (c.st.seat n).presence } := by
  unfold sorted
  rw [setPresences_seat _ _ _ known, setPresences_seat _ _ _ known]

/-- Presences are none of what a binding or a label is. -/
theorem sorted_bound {n : Nat} {b : Binding} (hb : (c.st.seat n).binding = some b) :
    ((c.sorted t).st.seat n).binding = some b ∧ ((c.sorted t).st.seat n).label = (c.st.seat n).label := by
  obtain ⟨low, high⟩ := State.bound_range hb
  rw [sorted_seat c t (seatIndex_isSome low high)]
  exact ⟨hb, rfl⟩

theorem returned_frame : (c.returned t).floor = c.floor ∧ (c.returned t).st.seats = (c.sorted t).st.seats := by
  obtain ⟨seats, floor⟩ := foldl_markReturn_rest (c := c.sorted t) (l := c.st.boundWhere t (c.st.trunk t).heard)
  exact ⟨floor.trans (c.sorted_frame t).1, seats⟩

theorem departed_frame : c.floor.Within (c.departed t).floor ∧ (c.departed t).st.seats = (c.sorted t).st.seats := by
  obtain ⟨floor, seats⟩ := c.returned_frame t
  obtain ⟨left, within⟩ := foldl_leave_rest
    (c := (c.returned t).dropReplies (c.st.boundWhere t fun p => !(c.st.trunk t).heard p) .absent)
    (l := c.st.boundWhere t fun p => !(c.st.trunk t).heard p)
  have dropped := (c.returned t).dropReplies_within (c.st.boundWhere t fun p => !(c.st.trunk t).heard p) .absent
  rw [floor] at dropped
  exact ⟨dropped.trans within, left.trans ((dropReplies_seats _ _ _).trans seats)⟩

/-- Every seat of the trunk that was not heard from is found nowhere. -/
theorem departed_lacks {n : Nat} (gone : n ∈ c.st.boundWhere t fun p => !(c.st.trunk t).heard p) (one : c.floor.oneSlot n) :
    (c.departed t).floor.Lacks n := by
  have dropped := (c.returned t).dropReplies_within (c.st.boundWhere t fun p => !(c.st.trunk t).heard p) .absent
  rw [(c.returned_frame t).1] at dropped
  exact foldl_leave_lacks gone (dropped.oneSlot one)

/-- The trunk's pending list takes the positions of the seats heard from; a departure takes only its own off it. -/
theorem departed_trunk : (c.departed t).st.trunk t = { c.st.trunk t with pending := ((c.departed t).st.trunk t).pending } ∧
    ∀ n b, (c.st.seat n).binding = some b → b.trunk = t → (c.st.trunk t).heard b.position = true →
      (c.st.trunk t).takesMark b.position = true →
      ∃ y ∈ ((c.departed t).st.trunk t).pending, y.position = b.position ∧ ((c.st.seat n).label ≠ none → y.label = true) := by
  have onTrunk (p : Nat → Bool) : ∀ n ∈ c.st.boundWhere t p, ∃ b, ((c.sorted t).st.seat n).binding = some b ∧ b.trunk = t ∧ p b.position = true ∧
      (c.st.seat n).binding = some b := fun n hn =>
    have ⟨b, hb, own, hp⟩ := State.mem_boundWhere.mp hn
    ⟨b, (c.sorted_bound t hb).1, own, hp, hb⟩
  have sorted : (c.sorted t).st.trunk t = c.st.trunk t := by
    unfold State.trunk
    rw [(c.sorted_frame t).2]
  obtain ⟨rest, -, entered⟩ := foldl_markReturn_trunk (c := c.sorted t) (t := t) (l := c.st.boundWhere t (c.st.trunk t).heard)
    fun n hn => have ⟨b, hb, own, _⟩ := onTrunk _ n hn; ⟨b, hb, own⟩
  rw [sorted] at rest entered
  have dropped (ns : List Nat) : ((c.returned t).dropReplies ns .absent).st.trunk t = (c.returned t).st.trunk t := by
    unfold State.trunk
    rw [(Floored.dropReplies (c.returned t) ns .absent).trunks]
  have seat (ns : List Nat) (n : Nat) : ((c.returned t).dropReplies ns .absent).st.seat n = (c.sorted t).st.seat n := by
    unfold State.seat
    rw [dropReplies_seats, (c.returned_frame t).2]
  obtain ⟨rest', kept⟩ := foldl_leave_trunk
    (c := (c.returned t).dropReplies (c.st.boundWhere t fun p => !(c.st.trunk t).heard p) .absent) (t := t)
    (l := c.st.boundWhere t fun p => !(c.st.trunk t).heard p) fun n hn => by
      obtain ⟨b, hb, own, -⟩ := onTrunk _ n hn
      rw [seat]
      exact ⟨b, hb, own⟩
  rw [dropped] at rest' kept
  change (c.returned t).st.trunk t = _ at rest
  change (c.departed t).st.trunk t = _ at rest'
  refine ⟨?_, fun n b hb own heard takes => ?_⟩
  · conv_lhs => rw [rest', rest]
    rfl
  · obtain ⟨bound, label⟩ := c.sorted_bound t hb
    obtain ⟨y, hy, position, flag⟩ := entered n (State.mem_boundWhere.mpr ⟨b, hb, own, heard⟩) b bound takes
    rw [label] at flag
    refine ⟨y, kept y hy fun m hm d hd => ?_, position, flag⟩
    obtain ⟨d', hd', -, unheard, -⟩ := onTrunk _ m hm
    rw [seat] at hd
    obtain rfl : d' = d := Option.some.inj (hd'.symm.trans hd)
    rintro same
    rw [same, position, heard] at unheard
    exact nomatch unheard

/-- What the completion leaves of the trunk (R141). -/
theorem completeEnumeration_trunk : (c.completeEnumeration t).st.trunk t = { c.st.trunk t with
      pending := ((c.departed t).st.trunk t).pending.filter (·.position ≤ (c.st.trunk t).found)
      plan := .quiet, state := if (c.st.trunk t).found = 0 then .fault else .running } := by
  rw [completeEnumeration_eq, fillPoint_trunk, setTrunkState_trunk, raise_trunk, modTrunk_trunk, (c.departed_trunk t).1]

theorem completeEnumeration_rest : (c.completeEnumeration t).st.seats = (c.sorted t).st.seats ∧
    (c.completeEnumeration t).floor = (c.departed t).floor ∧
    ∀ l, (c.completeEnumeration t).st.flagged l .trunk ∧ (c.completeEnumeration t).st.flagged l .presence := by
  rw [completeEnumeration_eq]
  refine ⟨?_, ?_, fun l => ⟨setTrunkState_flagged _ t _ l, setTrunkState_grown _ t _ (State.flagged_raise _ l .presence)⟩⟩
  · rw [fillPoint_seats, setTrunkState_seats, raise_seats, modTrunk_seats, (c.departed_frame t).2]
  · rw [fillPoint_floor, setTrunkState_floor, raise_floor, modTrunk_floor]

end Claim

namespace State

variable (s : State) (tr : TrunkNo)

/-- The trunk after the event that completes enumeration, and the flags. -/
theorem complete_trunk : ((s.event (·.completeEnumeration tr)).trunk tr = { s.trunk tr with
      pending := ((s.event (·.completeEnumeration tr)).trunk tr).pending
      plan := .quiet, state := if (s.trunk tr).found = 0 then .fault else .running }) ∧
    ∀ l, (s.event (·.completeEnumeration tr)).flagged l .trunk ∧ (s.event (·.completeEnumeration tr)).flagged l .presence := by
  have after := s.event_after (·.completeEnumeration tr)
  obtain ⟨-, -, flagged⟩ := (Claim.start s).completeEnumeration_rest tr
  refine ⟨?_, fun l => ⟨event_flagged (flagged l).1, event_flagged (flagged l).2⟩⟩
  conv_lhs => rw [after.trunks tr, (Claim.start s).completeEnumeration_trunk tr]

/-- Enumeration completed (R141): the seats heard from are PRESENT and marked, the others ABSENT and found nowhere. -/
theorem complete_completed : s.Completed (s.event (·.completeEnumeration tr)) tr fun p => (s.trunk tr).heard p = true := by
  have trunk := (Claim.start s).completeEnumeration_trunk tr
  obtain ⟨seats, floor, -⟩ := (Claim.start s).completeEnumeration_rest tr
  have presence (n : Nat) (known : (seatIndex n).isSome) : ((s.event (·.completeEnumeration tr)).seat n).presence =
      if n ∈ s.boundWhere tr (fun p => !(s.trunk tr).heard p) then .absent
      else if n ∈ s.boundWhere tr (s.trunk tr).heard then .present else (s.seat n).presence := by
    have body : ((Claim.start s).completeEnumeration tr).st.seat n = ((Claim.start s).sorted tr).st.seat n := by
      unfold State.seat
      rw [seats]
    rw [event_seat_granted]
    show (((Claim.start s).completeEnumeration tr).st.seat n).presence = _
    rw [body, Claim.sorted_seat _ _ known]
  have after := s.event_after (·.completeEnumeration tr)
  constructor
  · intro n b low high hb own heard
    have known := seatIndex_isSome low high
    have notGone : n ∉ s.boundWhere tr (fun p => !(s.trunk tr).heard p) := fun gone => by
      obtain ⟨d, hd, -, unheard⟩ := mem_boundWhere.mp gone
      obtain rfl : b = d := Option.some.inj (hb.symm.trans hd)
      rw [heard] at unheard
      exact nomatch unheard
    refine ⟨by rw [presence n known, if_neg notGone, if_pos (mem_boundWhere.mpr ⟨b, hb, own, heard⟩)], fun state one many => ?_⟩
    have takes : (s.trunk tr).takesMark b.position = true := by
      unfold TrunkEngine.takesMark
      rw [state]
      exact decide_eq_true ⟨one, many⟩
    obtain ⟨y, hy, position, label⟩ := ((Claim.start s).departed_trunk tr).2 n b hb own heard takes
    have near : b.position ≤ (s.trunk tr).found := by
      unfold TrunkEngine.heard at heard
      simp only [Bool.and_eq_true, decide_eq_true_eq] at heard
      exact heard.1
    have listed : y ∈ (((Claim.start s).completeEnumeration tr).st.trunk tr).pending := by
      rw [trunk]
      exact List.mem_filter.mpr ⟨hy, decide_eq_true (position ▸ near)⟩
    obtain ⟨z, hz, position', label'⟩ := after.marksKept tr y listed
    exact ⟨z, hz, position'.trans position, label' ∘ label⟩
  · intro n b low high hb own unheard
    have known := seatIndex_isSome low high
    have gone : n ∈ s.boundWhere tr (fun p => !(s.trunk tr).heard p) :=
      mem_boundWhere.mpr ⟨b, hb, own, by simpa using unheard⟩
    refine ⟨by rw [presence n known, if_pos gone], fun one => ?_⟩
    refine (event_lacks ?_).idle
    rw [floor]
    exact (Claim.start s).departed_lacks tr gone one
  · intro y hy
    rcases event_pending hy with old | ⟨-, takes, -⟩
    · rw [trunk] at old
      exact of_decide_eq_true (List.mem_filter.mp old).2
    · rw [trunk] at takes
      unfold TrunkEngine.takesMark at takes
      by_cases none_ : (s.trunk tr).found = 0
      · simp [none_] at takes ⊢
        omega
      · simp [none_] at takes
        exact takes.2

end State

end Sys2Proof.Machine
end

section
/-! SUPPORT and O48. The end of enumeration as the TALLY wait and the last probe reach it (R139, R141). -/

namespace Sys2Proof.Machine

namespace State

variable {s : State} {tr : TrunkNo}

/-- What a completion says of the state it acts on, it says of any other state with these bindings, labels and places. -/
theorem Completed.transfer {s' t t' : State} {p p' : Nat → Prop} (h : s'.Completed t tr p')
    (seat : ∀ n, (s'.seat n).binding = (s.seat n).binding ∧ (s'.seat n).label = (s.seat n).label) (floor : s'.floor = s.floor)
    (state : (s'.trunk tr).state = (s.trunk tr).state) (found : (s'.trunk tr).found ≤ (s.trunk tr).found)
    (same : ∀ n b, (s.seat n).binding = some b → b.trunk = tr → (p b.position ↔ p' b.position))
    (seats' : t'.seats = t.seats) (floor' : t'.floor = t.floor) (pending' : (t'.trunk tr).pending = (t.trunk tr).pending) :
    s.Completed t' tr p := by
  have seat' (n : Nat) : t'.seat n = t.seat n := by
    unfold State.seat
    rw [seats']
  have idle (n : Nat) : t'.floorState n = t.floorState n := by
    unfold State.floorState
    rw [floor']
  constructor
  · intro n b low high hb own answered
    have here := h.here n b low high ((seat n).1.trans hb) own ((same n b hb own).mp answered)
    rw [← seat', state, (seat n).2, ← pending'] at here
    exact here
  · intro n b low high hb own unheard
    have gone := h.gone n b low high ((seat n).1.trans hb) own fun answered => unheard ((same n b hb own).mpr answered)
    rw [← seat', ← idle, floor] at gone
    exact gone
  · intro y hy
    rw [pending'] at hy
    exact (h.beyond y hy).trans found

/-- A trunk on which no station was found is left in FAULT, without a sweep. -/
theorem completeTrunk_empty (none_ : (s.trunk tr).found = 0) : s.completeTrunk tr = s.event (·.completeEnumeration tr) := by
  unfold completeTrunk
  dsimp only
  rw [if_neg]
  rw [(s.complete_trunk tr).1, if_pos none_]
  exact fun h => nomatch h

/-- A trunk with a station is left RUNNING, in its first sweep. -/
theorem completeTrunk_running (some_ : (s.trunk tr).found ≠ 0) : s.completeTrunk tr =
    (s.event (·.completeEnumeration tr)).modTrunk tr (·.startSweep (s.event (·.completeEnumeration tr)).now) := by
  unfold completeTrunk
  dsimp only
  rw [if_pos]
  rw [(s.complete_trunk tr).1, if_neg some_]

/-- N = 0: the trunk is in FAULT, its seats are ABSENT and off the floor, and no entry for a position is pending (R139, R141). -/
theorem foundNone (s : State) (tr : TrunkNo) : ((s.foundCount tr 0).trunk tr).state = .fault ∧ ((s.foundCount tr 0).trunk tr).found = 0 ∧
    (s.foundCount tr 0).now = s.now ∧ (∀ y ∈ ((s.foundCount tr 0).trunk tr).pending, y.position = 0) ∧
    (∀ l, (s.foundCount tr 0).flagged l .trunk ∧ (s.foundCount tr 0).flagged l .presence) ∧
    (s.BindingsLaw → s.Completed (s.foundCount tr 0) tr fun _ => False) := by
  have begun : (s.modTrunk tr fun e => { e with found := 0, plan := .probing 1 }).trunk tr =
      { s.trunk tr with found := 0, plan := .probing 1 } := trunk_modTrunk_self _ _ _
  have done : s.foundCount tr 0 =
      (s.modTrunk tr fun e => { e with found := 0, plan := .probing 1 }).event (·.completeEnumeration tr) :=
    completeTrunk_empty (congrArg TrunkEngine.found begun)
  have now : ((s.modTrunk tr fun e => { e with found := 0, plan := .probing 1 }).event (·.completeEnumeration tr)).now = s.now :=
    (event_claim _ _ (Claim.completeEnumeration_claim (c := .start _) (.refl _) tr)).now
  obtain ⟨trunk, flagged⟩ := (s.modTrunk tr fun e => { e with found := 0, plan := .probing 1 }).complete_trunk tr
  have completed := (s.modTrunk tr fun e => { e with found := 0, plan := .probing 1 }).complete_completed tr
  rw [done]
  have seats : (s.modTrunk tr fun e => { e with found := 0, plan := .probing 1 }).seats = s.seats := rfl
  have floor : (s.modTrunk tr fun e => { e with found := 0, plan := .probing 1 }).floor = s.floor := rfl
  generalize s.modTrunk tr (fun e => { e with found := 0, plan := .probing 1 }) = s1 at *
  have none_ : (s1.trunk tr).found = 0 := congrArg TrunkEngine.found begun
  refine ⟨by rw [trunk, if_pos none_], by rw [trunk, none_], now, fun y hy => ?_, flagged, fun law => ?_⟩
  · have beyond := completed.beyond y hy
    rw [none_] at beyond
    exact Nat.le_zero.mp beyond
  · have seat (n : Nat) : s1.seat n = s.seat n := by
      unfold State.seat
      rw [seats]
    refine completed.transfer (fun n => by rw [seat]; exact ⟨rfl, rfl⟩) floor (begun ▸ rfl) (none_ ▸ Nat.zero_le _)
      (fun n b hb _ => ?_) rfl rfl rfl
    obtain ⟨low, high⟩ := bound_range hb
    have position : 1 ≤ b.position := (law.position n b hb).1
    refine ⟨False.elim, fun heard => ?_⟩
    unfold TrunkEngine.heard at heard
    rw [none_] at heard
    simp only [Bool.and_eq_true, decide_eq_true_eq] at heard
    omega

theorem foundCount_some (s : State) (tr : TrunkNo) {n : Nat} (h : n ≠ 0) :
    s.foundCount tr n = s.modTrunk tr fun e => { e with found := n, plan := .probing 1 } := by
  unfold foundCount
  dsimp only
  rw [if_neg h]

/-- The timer is none of what a completion speaks of. -/
theorem Completed.ofReached {m : Nat} {t : State} {p : Nat → Prop} (h : (s.reachMoment m).Completed t tr p) : s.Completed t tr p :=
  ⟨h.here, h.gone, h.beyond⟩

theorem BindingsLaw.reached (law : s.BindingsLaw) (m : Nat) : (s.reachMoment m).BindingsLaw := ⟨law.position, law.onePair⟩

/-- What a frame in the TALLY wait, complete in time, leaves (R139, R187). -/
def tallied (s : State) (tr : TrunkNo) (m : Nat) : TallyClass → State
  | .discarded => s.reachMoment (s.answerAt tr m)
  | .checkFault => (s.reachMoment (s.answerAt tr m)).modTrunk tr fun e => { e with crcErrors := countUp e.crcErrors }
  | .valid n =>
    if n ≤ Config.positions then (s.reachMoment (s.answerAt tr m)).foundCount tr n
    else ((s.reachMoment (s.answerAt tr m)).notify ⟨.excess, .trunk tr, none, [detailOf n]⟩).foundCount tr Config.positions

end State

/-- Settles O48: N = 0 completes enumeration with no position heard from; every other answer writes what the rule says. -/
theorem tallyWait : Obligations.TallyWait := by
  unfold Obligations.TallyWait
  intro tr until_ s plan
  refine ⟨fun bytes m timely => ?_, ?_⟩
  · have taken (a : TallyClass) (h : classifyTally bytes = a) : exec (.tallyReceived tr bytes m) s = .next (s.tallied tr m a) := by
      show execTallyReceived tr bytes m s = _
      unfold execTallyReceived
      rw [plan]
      dsimp only
      rw [if_pos timely, h]
      cases a <;> rfl
    refine ⟨fun n valid low high => ?_, fun n valid many => ?_, fun valid => ?_, fun h => taken .checkFault h, fun h => taken .discarded h⟩
    · have step := taken (.valid n) valid
      unfold State.tallied at step
      dsimp only at step
      rw [if_pos (show n ≤ Config.positions from high)] at step
      rw [step, State.foundCount_some _ _ (by omega)]
    · have step := taken (.valid n) valid
      unfold State.tallied at step
      dsimp only at step
      rw [if_neg (show ¬ n ≤ Config.positions from Nat.not_le.mpr many)] at step
      rw [State.foundCount_some _ _ (by decide)] at step
      exact ⟨_, step, State.trunk_modTrunk_self _ _ _, rfl⟩
    · obtain ⟨state, found, -, pending, flagged, completed⟩ := (s.reachMoment (s.answerAt tr m)).foundNone tr
      refine ⟨_, taken (.valid 0) valid, state, found, pending, flagged, fun law => ?_⟩
      exact (completed (law.reached _)).ofReached
  · have step : exec (.tallyWaitExpiry tr) s = .next ((s.reachMoment until_).foundCount tr 0) := by
      show execTallyWaitExpiry tr s = _
      unfold execTallyWaitExpiry
      rw [plan]
    obtain ⟨state, found, now, pending, flagged, completed⟩ := (s.reachMoment until_).foundNone tr
    refine ⟨_, step, state, found, now, fun l => (flagged l).1, pending, fun l => (flagged l).2, fun law => ?_⟩
    exact (completed (law.reached _)).ofReached

end Sys2Proof.Machine
end

section
/-! SUPPORT and O49. The transactions of enumeration (R140, R141). -/

namespace Sys2Proof.Machine

namespace State

variable {s : State} {tr : TrunkNo}

/-! ### The end of a probe -/

theorem afterTransaction_probing {next : Nat} (plan : (s.trunk tr).plan = .probing next) :
    s.afterTransaction tr = if (s.trunk tr).found < next then s.completeTrunk tr else s := by
  unfold afterTransaction
  dsimp only
  rw [plan]

/-- The last probe leaves the trunk RUNNING in its first sweep, and enumeration completed. -/
theorem lastProbe {next : Nat} (plan : (s.trunk tr).plan = .probing next) (some_ : 1 ≤ (s.trunk tr).found)
    (last : (s.trunk tr).found < next) : ∃ t : State, s.afterTransaction tr = t ∧ t.now = s.now ∧
      (∃ pending, t.trunk tr = { (s.trunk tr) with pending := pending, state := .running }.startSweep s.now) ∧
      (∀ l, t.flagged l .trunk ∧ t.flagged l .presence) ∧ s.Completed t tr fun p => (s.trunk tr).heard p = true := by
  have running : (s.trunk tr).found ≠ 0 := by omega
  refine ⟨_, ((afterTransaction_probing plan).trans (if_pos last)).trans (completeTrunk_running running), ?_⟩
  obtain ⟨trunk, flagged⟩ := s.complete_trunk tr
  have now : (s.event (·.completeEnumeration tr)).now = s.now :=
    (event_claim _ _ (Claim.completeEnumeration_claim (c := .start _) (.refl _) tr)).now
  have completed := s.complete_completed tr
  generalize s.event (·.completeEnumeration tr) = u at *
  refine ⟨now, ⟨(u.trunk tr).pending, ?_⟩, flagged, ?_⟩
  · rw [trunk_modTrunk_self, now]
    conv_lhs => rw [trunk, if_neg running]
    rfl
  · refine completed.transfer (fun _ => ⟨rfl, rfl⟩) rfl rfl le_rfl (fun _ _ _ _ => .rfl) rfl rfl ?_
    rw [trunk_modTrunk_self]
    rfl

/-! ### A valid answer to a probe -/

theorem recordKind_eq (c : Claim) (tr : TrunkNo) (p : Nat) (r : StatusReport) : (c.recordKind tr p r).st.trunks = c.st.trunks ∧
    (c.recordKind tr p r).floor = c.floor ∧ (c.recordKind tr p r).st.report = c.st.report ∧ (c.recordKind tr p r).st.now = c.st.now ∧
    (∀ n, c.st.seatAt tr p = some n → (c.recordKind tr p r).st.seat n = { c.st.seat n with kind := some r.counts.kind }) ∧
    ((c.st.seatAt tr p = none → (c.recordKind tr p r).st.seats = c.st.seats)) ∧
    ∀ n, ∃ kind, (c.recordKind tr p r).st.seat n = { c.st.seat n with kind := kind } := by
  unfold Claim.recordKind
  cases found : c.st.seatAt tr p with
  | none => exact ⟨rfl, rfl, rfl, rfl, fun _ h => (nomatch h), fun _ => rfl, fun n => ⟨(c.st.seat n).kind, rfl⟩⟩
  | some m =>
    obtain ⟨b, hb, -⟩ := binding_of_seatAt found
    obtain ⟨low, high⟩ := bound_range hb
    have own : (c.modSeat m fun x => { x with kind := some r.counts.kind }).st.seat m = _ :=
      seat_modSeat_self c.st (seatIndex_isSome low high) _
    refine ⟨modSeat_trunks _ _ _, modSeat_floor _ _ _, modSeat_report _ _ _, modSeat_now _ _ _, fun n h => ?_, fun h => (nomatch h), fun n => ?_⟩
    · obtain rfl := Option.some.inj h
      exact own
    · by_cases same : n = m
      · subst same
        exact ⟨_, own⟩
      · exact ⟨(c.st.seat n).kind, seat_modSeat_ne c.st same _⟩

/-! ### An answer fault -/

theorem modTrunk_congr (s : State) (tr : TrunkNo) {f g : TrunkEngine → TrunkEngine} (h : f (s.trunk tr) = g (s.trunk tr)) :
    s.modTrunk tr f = s.modTrunk tr g := by
  have written : s.trunks.set tr (f (s.trunk tr)) = s.trunks.set tr (g (s.trunk tr)) := by rw [h]
  exact congrArg (fun v => { s with trunks := v }) written

end State

/-- The error counts raised (R136). -/
def TrunkEngine.miscounted (e : TrunkEngine) (crc format misses : Nat) : TrunkEngine :=
  { e with crcErrors := min 65535 (e.crcErrors + crc), formatErrors := min 65535 (e.formatErrors + format)
           misses := min 65535 (e.misses + misses) }

namespace State

variable {s : State} {tr : TrunkNo}

/-- A row that ends a transaction with an answer fault: its counts, then the fault (R136). -/
theorem exec_fault {x : Transaction} {row : Instr} {crc format misses : Nat} (flying : (s.trunk tr).inFlight = some x)
    (fault : s.FaultRow tr x row crc format misses) (crcs : (s.trunk tr).crcErrors ≤ 65535)
    (formats : (s.trunk tr).formatErrors ≤ 65535) (missed : (s.trunk tr).misses ≤ 65535) :
    exec row s = .next (((s.reachMoment x.answerBy).modTrunk tr (·.miscounted crc format misses)).faultTransaction tr x) := by
  have counted {f : TrunkEngine → TrunkEngine} (h : f (s.trunk tr) = (s.trunk tr).miscounted crc format misses)
      (step : exec row s = .next (((s.reachMoment x.answerBy).modTrunk tr f).faultTransaction tr x)) :
      exec row s = .next (((s.reachMoment x.answerBy).modTrunk tr (·.miscounted crc format misses)).faultTransaction tr x) := by
    rw [step, modTrunk_congr (s.reachMoment x.answerBy) tr (g := (·.miscounted crc format misses)) h]
  rcases fault with ⟨rfl, rfl, rfl, rfl⟩ | ⟨bytes, m, rfl, timely, sort⟩
  · refine counted (f := fun e => { e with misses := countUp e.misses }) ?_ ?_
    · unfold TrunkEngine.miscounted
      rw [Nat.min_eq_right (show (s.trunk tr).crcErrors + 0 ≤ 65535 from crcs), Nat.min_eq_right (show (s.trunk tr).formatErrors + 0 ≤ 65535 from formats)]
      rfl
    · show execAnswerWaitExpiry tr s = _
      unfold execAnswerWaitExpiry
      rw [flying]
  · have answered : s.answered tr m (fun _ => true) = some x := by
      unfold State.answered
      rw [flying]
      simp [timely]
    rcases sort with ⟨checked, rfl, rfl, rfl⟩ | ⟨checked, rfl, rfl, rfl⟩
    · refine counted (f := fun e => { e with crcErrors := countUp e.crcErrors }) ?_ ?_
      · unfold TrunkEngine.miscounted
        rw [Nat.min_eq_right (show (s.trunk tr).misses + 0 ≤ 65535 from missed), Nat.min_eq_right (show (s.trunk tr).formatErrors + 0 ≤ 65535 from formats)]
        rfl
      · show execAnswerFault tr bytes m s = _
        unfold execAnswerFault
        rw [answered]
        dsimp only
        rw [checked]
    · refine counted (f := fun e => { e with formatErrors := countUp e.formatErrors }) ?_ ?_
      · unfold TrunkEngine.miscounted
        rw [Nat.min_eq_right (show (s.trunk tr).misses + 0 ≤ 65535 from missed), Nat.min_eq_right (show (s.trunk tr).crcErrors + 0 ≤ 65535 from crcs)]
        rfl
      · show execAnswerFault tr bytes m s = _
        unfold execAnswerFault
        rw [answered]
        dsimp only
        rw [checked]

end State

/-- The positions heard from rest on N and the miss counts. -/
theorem TrunkEngine.heard_iff {e : TrunkEngine} {p : Nat} : e.heard p = true ↔ p ≤ e.found ∧ (e.station p).miss = 0 := by
  unfold heard
  simp

theorem TrunkEngine.station_modStation_self (e : TrunkEngine) {p : Nat} (low : 1 ≤ p) (high : p ≤ 120) (f : PositionState → PositionState) :
    (e.modStation p f).station p = f (e.station p) := by
  rw [station_modStation, if_pos ⟨rfl, low, high⟩]

theorem TrunkEngine.station_modStation_ne (e : TrunkEngine) {p q : Nat} (other : q ≠ p) (f : PositionState → PositionState) :
    (e.modStation p f).station q = e.station q := by
  rw [station_modStation, if_neg fun h => other h.1]

theorem TrunkEngine.modStation_rest (e : TrunkEngine) (p : Nat) (f : PositionState → PositionState) :
    e.modStation p f = { e with positions := (e.modStation p f).positions } := by
  unfold modStation
  split <;> rfl

/-- Settles O49: a probe's end writes its position's state, and the last one completes enumeration. -/
theorem probes : Obligations.Probes := by
  unfold Obligations.Probes
  refine ⟨fun tr next s plan idle inside => ?_, fun tr bytes m x r next s flying probe timely low high valid plan => ?_,
    fun tr x next s row crc format misses flying probe low high plan fault crcs formats missed => ?_⟩
  · show execProbe tr s = _
    unfold execProbe
    dsimp only
    rw [plan, idle]
    dsimp only
    rw [if_pos inside]
    rfl
  · let s1 : State := (s.reachMoment (s.answerAt tr m)).modTrunk tr fun e => { e with inFlight := none }
    have answered : s.answered tr m (·.isProbe) = some x := by
      unfold State.answered
      rw [flying]
      simp [timely, probe]
    have step : exec (.probeAnswer tr bytes m) s = .next (((Claim.start s1).takeProbe tr x.position r).st.afterTransaction tr) := by
      show execProbeAnswer tr bytes m s = _
      unfold execProbeAnswer
      rw [answered]
      dsimp only
      rw [valid]
    have begun : s1.trunk tr = { s.trunk tr with inFlight := none } := State.trunk_modTrunk_self _ _ _
    have marked : ((Claim.start s1).modTrunk tr (·.modStation x.position fun y => { y with toggle := r.toggle, miss := 0 })).st.trunk tr =
        { s.trunk tr with inFlight := none }.modStation x.position fun y => { y with toggle := r.toggle, miss := 0 } := by
      rw [Claim.modTrunk_trunk]
      show (s1.trunk tr).modStation _ _ = _
      rw [begun]
    obtain ⟨trunks, floor, -, -, kind, -, record⟩ := State.recordKind_eq
      ((Claim.start s1).modTrunk tr (·.modStation x.position fun y => { y with toggle := r.toggle, miss := 0 })) tr x.position r
    change ((Claim.start s1).takeProbe tr x.position r).st.trunks = _ at trunks
    change ((Claim.start s1).takeProbe tr x.position r).st.floor = s.floor at floor
    change ∀ n, s.seatAt tr x.position = some n → ((Claim.start s1).takeProbe tr x.position r).st.seat n = _ at kind
    change ∀ n, ∃ k, ((Claim.start s1).takeProbe tr x.position r).st.seat n = { s.seat n with kind := k } at record
    rw [step]
    generalize ((Claim.start s1).takeProbe tr x.position r).st = u at *
    have trunk : u.trunk tr = { s.trunk tr with inFlight := none }.modStation x.position fun y => { y with toggle := r.toggle, miss := 0 } := by
      rw [← marked]
      unfold State.trunk
      rw [trunks]
    have rest : u.trunk tr = { s.trunk tr with inFlight := none, positions := (u.trunk tr).positions } := by
      conv_lhs => rw [trunk, TrunkEngine.modStation_rest, ← trunk]
    have station : (u.trunk tr).station x.position = { (s.trunk tr).station x.position with toggle := r.toggle, miss := 0 } := by
      rw [trunk, TrunkEngine.station_modStation_self _ low high]
      rfl
    have plan' : (u.trunk tr).plan = .probing next := by rw [rest]; exact plan
    have found : (u.trunk tr).found = (s.trunk tr).found := by rw [rest]
    refine ⟨fun inside => ?_, fun some_ last => ?_⟩
    · rw [State.afterTransaction_probing plan', if_neg (by omega)]
      refine ⟨_, rfl, by rw [rest], by rw [station], by rw [station], fun n hn => by rw [kind n hn], floor⟩
    · obtain ⟨t, done, -, ⟨pending, running⟩, flagged, completed⟩ := State.lastProbe plan' (by omega) (by omega)
      refine ⟨t, congrArg _ done, by rw [running]; rfl, by rw [running]; rfl, ?_, flagged, ?_⟩
      · rw [running, rest]
        rfl
      · refine completed.transfer (fun n => ?_) floor (by rw [rest]) found.le (fun n b hb own => ?_) rfl rfl rfl
        · obtain ⟨k, hk⟩ := record n
          rw [hk]
          exact ⟨rfl, rfl⟩
        · rw [TrunkEngine.heard_iff, found]
          by_cases here : b.position = x.position
          · simp [here, station]
          · rw [trunk, TrunkEngine.station_modStation_ne _ here]
            simp only [here, false_or]
            rfl
  · let s1 : State := (s.reachMoment x.answerBy).modTrunk tr (·.miscounted crc format misses)
    let u : State := (s1.modTrunk tr fun e => { e with inFlight := none }).modTrunk tr (·.modStation x.position fun y => { y with miss := 3 })
    have step : exec row s = .next (u.afterTransaction tr) := by
      rw [State.exec_fault flying fault (by omega) (by omega) (by omega)]
      unfold State.faultTransaction
      dsimp only
      rw [if_pos probe]
    have trunk : u.trunk tr =
        { (s.trunk tr).miscounted crc format misses with inFlight := none }.modStation x.position fun y => { y with miss := 3 } := by
      rw [State.trunk_modTrunk_self, State.trunk_modTrunk_self, State.trunk_modTrunk_self]
      rfl
    have rest : u.trunk tr = { s.trunk tr with
        crcErrors := (s.trunk tr).crcErrors + crc, formatErrors := (s.trunk tr).formatErrors + format
        misses := (s.trunk tr).misses + misses, inFlight := none, positions := (u.trunk tr).positions } := by
      conv_lhs => rw [trunk, TrunkEngine.modStation_rest, ← trunk]
      unfold TrunkEngine.miscounted
      rw [Nat.min_eq_right crcs, Nat.min_eq_right formats, Nat.min_eq_right missed]
    have station : (u.trunk tr).station x.position = { (s.trunk tr).station x.position with miss := 3 } := by
      rw [trunk, TrunkEngine.station_modStation_self _ low high]
      rfl
    have now : u.now = max s.now x.answerBy := rfl
    have same : u.seats = s.seats ∧ u.floor = s.floor := ⟨rfl, rfl⟩
    rw [step]
    generalize u = u at *
    have plan' : (u.trunk tr).plan = .probing next := by rw [rest]; exact plan
    have found : (u.trunk tr).found = (s.trunk tr).found := by rw [rest]
    by_cases inside : next ≤ (s.trunk tr).found
    · rw [State.afterTransaction_probing plan', if_neg (by omega)]
      exact ⟨_, rfl, now, by rw [rest], by rw [rest], by rw [rest], by rw [rest], station, fun _ => ⟨plan', same.2, same.1⟩, by omega⟩
    · by_cases some_ : 1 ≤ (s.trunk tr).found
      · obtain ⟨t, done, now', ⟨pending, running⟩, flagged, completed⟩ := State.lastProbe plan' (by omega) (by omega)
        refine ⟨t, congrArg _ done, now'.trans now, by rw [running, rest]; rfl, by rw [running, rest]; rfl, by rw [running, rest]; rfl,
          by rw [running, rest]; rfl, ?_, fun h => absurd h inside, fun _ _ => ⟨by rw [running]; rfl, by rw [running]; rfl, flagged, ?_⟩⟩
        · rw [running, ← station]
          rfl
        · have seat (n : Nat) : u.seat n = s.seat n := by
            unfold State.seat
            rw [same.1]
          refine completed.transfer (fun n => by rw [seat]; exact ⟨rfl, rfl⟩) same.2 (by rw [rest]) found.le (fun n b hb own => ?_) rfl rfl rfl
          rw [TrunkEngine.heard_iff, found]
          by_cases here : b.position = x.position
          · simp [here, station]
          · rw [trunk, TrunkEngine.station_modStation_ne _ here]
            simp only [here, not_false_iff, true_and, ne_eq]
            rfl
      · have none_ : (u.trunk tr).found = 0 := by omega
        rw [State.afterTransaction_probing plan', if_pos (by omega), State.completeTrunk_empty none_]
        have done : (u.event (·.completeEnumeration tr)).now = u.now :=
          (State.event_claim _ _ (Claim.completeEnumeration_claim (c := .start _) (.refl _) tr)).now
        have completed := (u.complete_trunk tr).1
        generalize u.event (·.completeEnumeration tr) = t at *
        refine ⟨t, rfl, done.trans now, by rw [completed, rest], by rw [completed, rest], by rw [completed, rest],
          by rw [completed, rest], ?_, fun h => absurd h inside, fun h => absurd h some_⟩
        rw [completed, ← station]
        rfl

end Sys2Proof.Machine
end

section
/-! SUPPORT. The end of a transaction of a sweep (R143), and misses (R151). -/

namespace Sys2Proof.Machine

/-- The sweep ends silent: a RUNNING trunk becomes FAULT (R143). -/
def TrunkEngine.Silent (e : TrunkEngine) : Prop := e.planAfter ≠ e.plan ∧ e.state = .running ∧ e.sweepHeard = false

namespace State

variable {s : State} {tr : TrunkNo}

/-- What follows the end of a transaction of a sweep. -/
structure Swept (s t : State) (tr : TrunkNo) : Prop where
  plan : (t.trunk tr).plan = (s.trunk tr).planAfter
  rest : t.trunk tr = { s.trunk tr with plan := (t.trunk tr).plan, state := (t.trunk tr).state }
  floor : t.floor = s.floor
  seats : t.seats = s.seats
  now : t.now = s.now
  told : (s.trunk tr).Silent → (t.trunk tr).state = .fault ∧ ∀ l, t.flagged l .trunk
  quiet : ¬ (s.trunk tr).Silent → (t.trunk tr).state = (s.trunk tr).state ∧ t.report = s.report
  grown : s.report.Grown t.report

theorem swept_afterTransaction (plan : ∀ next, (s.trunk tr).plan ≠ .probing next) : s.Swept (s.afterTransaction tr) tr := by
  have stays (same : (s.trunk tr).planAfter = (s.trunk tr).plan) (still : s.afterTransaction tr = s) : s.Swept (s.afterTransaction tr) tr := by
    rw [still]
    exact ⟨same.symm, rfl, rfl, rfl, rfl, fun silent => absurd same silent.1, fun _ => ⟨rfl, rfl⟩, (FloorFrame.refl s).report⟩
  cases hp : (s.trunk tr).plan with
  | probing next => exact absurd hp (plan next)
  | sweeping next served =>
    have after : (s.trunk tr).planAfter = if (s.trunk tr).found < next then .waiting else .sweeping next served := by
      unfold TrunkEngine.planAfter
      rw [hp]
    have done : s.afterTransaction tr = if (s.trunk tr).found < next then s.endSweep tr else s := by
      unfold afterTransaction
      dsimp only
      rw [hp]
    by_cases last : (s.trunk tr).found < next
    · rw [if_pos last] at after done
      have ended : (s.modTrunk tr fun e => { e with plan := .waiting }).trunk tr = { s.trunk tr with plan := .waiting } :=
        trunk_modTrunk_self _ _ _
      have moved : (s.trunk tr).planAfter ≠ (s.trunk tr).plan := by
        rw [after, hp]
        exact fun h => nomatch h
      rw [done]
      unfold endSweep
      dsimp only
      by_cases silent : (s.trunk tr).state = .running ∧ (!(s.trunk tr).sweepHeard) = true
      · rw [if_pos silent]
        have isSilent : (s.trunk tr).Silent := ⟨moved, silent.1, by simpa using silent.2⟩
        have trunk := Claim.setTrunkState_trunk (.start (s.modTrunk tr fun e => { e with plan := .waiting })) tr .fault
        rw [show (Claim.start (s.modTrunk tr fun e => { e with plan := .waiting })).st.trunk tr = _ from ended] at trunk
        have grown : s.report.Grown ((Claim.start (s.modTrunk tr fun e => { e with plan := .waiting })).setTrunkState tr .fault).st.report :=
          (FloorFrame.notify s _).report.trans (FloorFrame.raise _ .trunk).report
        refine ⟨by rw [trunk, after], by rw [trunk], rfl, rfl, rfl, fun _ => ⟨by rw [trunk], Claim.setTrunkState_flagged _ tr _⟩,
          fun h => absurd isSilent h, grown⟩
      · rw [if_neg silent]
        refine ⟨by rw [ended, after], by rw [ended], rfl, rfl, rfl, fun h => absurd ⟨h.2.1, by simp [h.2.2]⟩ silent, fun _ => ⟨by rw [ended], rfl⟩,
          (FloorFrame.refl s).report⟩
    · rw [if_neg last] at after done
      exact stays (after.trans hp.symm) done
  | quiet | tallyWait _ | waiting =>
    refine stays ?_ ?_
    · unfold TrunkEngine.planAfter
      rw [hp]
    · unfold afterTransaction
      dsimp only
      rw [hp]

/-- What the fill point leaves after an event rests on the floor, the reports and the presences. -/
theorem Settles.congr {x t u : State} (h : x.Settles t) (floor : u.floor = t.floor) (report : u.report = t.report) (seats : u.seats = t.seats) :
    x.Settles u := by
  have here (n : Nat) : u.isHere n = t.isHere n := by
    unfold isHere seat
    rw [seats]
  refine ⟨fun y hy => ?_, fun hp ha hm hr room e he => ?_⟩
  · rw [floor, report]
    exact h.fixed y hy
  · rw [floor] at room he
    rw [here]
    exact h.filled hp ha hm hr room e he

theorem roundSettles.congr {x t u : State} (h : x.roundSettles t) (floor : u.floor = t.floor) (report : u.report = t.report)
    (seats : u.seats = t.seats) : x.roundSettles u := by
  refine ⟨fun other => ?_, fun round => (h.2 round).congr floor report seats⟩
  rw [floor, report]
  exact h.1 other

end State

end Sys2Proof.Machine
end

section
/-! SUPPORT and O52. The event of a miss: what it writes, and the removal of a seat that becomes ABSENT (R8, R151). -/

namespace Sys2Proof.Machine

namespace Claim

variable {c : Claim} {n : Nat} {why : Reason}

/-! ### What is due after a removal -/

theorem dropHeld_same (c : Claim) (n : Nat) (why : Reason) : c.SameDue (c.dropHeld n why) := by
  have walk {α : Type} (g : α → Notice) (l : List α) (c : Claim) : c.SameDue (l.foldl (fun c a => c.notify (g a)) c) :=
    .foldl (fun c a => ⟨by simp, by simp⟩) l c
  unfold dropHeld
  split
  · dsimp only
    have first : c.SameDue (c.modFloor fun f => { f with stack := f.stack.map fun fr =>
      { fr with records := fr.records.filter (·.seat ≠ n), entries := fr.entries.filter (·.seat ≠ n) } }) := ⟨by simp, by simp⟩
    have last (c : Claim) : c.SameDue ((c.raise .stack).touch n) := ⟨by simp, by simp⟩
    exact ((first.trans (walk _ _ _)).trans (walk _ _ _)).trans (last _)
  · exact .refl c

theorem closeChairOf_same (c : Claim) (n : Nat) (why : Reason) : c.SameDue (c.closeChairOf n why) := by
  unfold closeChairOf
  split
  · exact .closeChair c _ why
  · exact .refl c

/-- The places a seat's request and reply entries leave are no delegate slots. -/
theorem slotOf_removed (c : Claim) (n : Nat) (why : Reason) : ((c.dequeue n why).dropReply n why).floor.slotOf n = c.floor.slotOf n := by
  rw [dropReply_floor, dequeue_floor]
  rfl

/-- A removal with a delegate slot is a fill point (R50). -/
theorem removeSeat_fillDue (h : c.floor.slotOf n ≠ none) : (c.removeSeat n why).fillDue = true := by
  obtain ⟨i, hi⟩ := Option.ne_none_iff_exists'.mp h
  obtain ⟨d, hd, -⟩ := Floor.slotOf_some ((slotOf_removed c n why).trans hi)
  unfold removeSeat
  rw [(dropHeld_same _ n why).fill, (closeChairOf_same _ n why).fill]
  unfold closeSlotOf
  rw [slotOf_removed, hi]
  exact closeSlot_fillPoint hd why

/-- A removal without one is what the reply entry makes it (R92). -/
theorem removeSeat_due (h : c.floor.slotOf n = none) : (c.removeSeat n why).fillDue = c.fillDue ∧
    (c.floor.replyOf n ≠ none → (c.removeSeat n why).serveDue = true) ∧
    (c.floor.replyOf n = none → c.SameDue (c.removeSeat n why)) := by
  have tail : ((c.dequeue n why).dropReply n why).SameDue (c.removeSeat n why) := by
    unfold removeSeat
    have none_ : ((c.dequeue n why).dropReply n why).closeSlotOf n why = (c.dequeue n why).dropReply n why := by
      unfold closeSlotOf
      rw [slotOf_removed, h]
    rw [none_]
    exact (closeChairOf_same _ n why).trans (dropHeld_same _ n why)
  have head : c.SameDue (c.dequeue n why) := .dequeue c n why
  have reply : (c.dequeue n why).floor.replyOf n = c.floor.replyOf n := by
    rw [dequeue_floor]
    rfl
  cases found : c.floor.replyOf n with
  | none =>
    have same : (c.dequeue n why).dropReply n why = c.dequeue n why := by
      unfold dropReply
      rw [reply, found]
    rw [same] at tail
    exact ⟨tail.fill.trans head.fill, fun h => absurd rfl h, fun _ => head.trans tail⟩
  | some e =>
    have fill : ((c.dequeue n why).dropReply n why).fillDue = (c.dequeue n why).fillDue := by
      unfold dropReply
      rw [reply, found]
      simp
    have serve : ((c.dequeue n why).dropReply n why).serveDue = true := by
      unfold dropReply
      rw [reply, found]
      rfl
    exact ⟨tail.fill.trans (fill.trans head.fill), fun _ => tail.serve.trans serve, fun h => nomatch h⟩

/-! ### A seat that becomes ABSENT -/

theorem setPresence_same (c : Claim) (n : Nat) (p : Presence) : c.SameDue (c.setPresence n p) := ⟨by simp [setPresence], by simp [setPresence]⟩

theorem leave_due (c : Claim) (n : Nat) : (c.removeSeat n .absent).SameDue (c.leave n) := by
  unfold leave
  generalize c.removeSeat n .absent = d
  cases (c.st.seat n).binding <;> exact ⟨rfl, rfl⟩

theorem setPresence_seat (c : Claim) {n : Nat} (p : Presence) (known : (seatIndex n).isSome) :
    (c.setPresence n p).st.seat n = { c.st.seat n with presence := p } := by
  have written := setPresences_seat c [n] p known
  rw [if_pos List.mem_cons_self] at written
  exact written

theorem Shows.setPresence {x : State} (h : c.Shows x) (n : Nat) (p : Presence) : (c.setPresence n p).Shows x := (h.modSeat n _).trackHead

theorem Shows.leave {x : State} (h : c.Shows x) (n : Nat) : (c.leave n).Shows (x.seatRemoved n 5) := by
  unfold Claim.leave
  dsimp only
  split
  · exact (h.removeSeat n .absent).modTrunk _ _
  · exact h.removeSeat n .absent

/-- The claim of a seat that becomes ABSENT: its report, and its removal (R8). -/
theorem Shows.becomeAbsent {x : State} (h : c.Shows x) (n : Nat) :
    (c.becomeAbsent n).Shows (((x.notify ⟨.presence, .seat n, some 0, []⟩).raise .presence).seatRemoved n 5) :=
  (((h.setPresence n .absent).notify _).raise .presence).leave n

theorem leave_tookEntry (c : Claim) (n : Nat) : (c.leave n).tookEntry = c.tookEntry := by
  have kept := c.removeSeat_tookEntry n .absent
  unfold leave
  generalize c.removeSeat n .absent = d at *
  cases (c.st.seat n).binding <;> exact kept

theorem becomeAbsent_floor (c : Claim) (n : Nat) :
    ∃ d : Claim, d.floor = c.floor ∧ c.SameDue d ∧ d.tookEntry = c.tookEntry ∧ c.becomeAbsent n = d.leave n :=
  ⟨(c.setPresence n .absent).reportPresence n .absent, setPresences_floor c [n] .absent, (setPresence_same c n .absent).trans ⟨rfl, rfl⟩,
    trackHead_tookEntry _ _, rfl⟩

theorem becomeAbsent_tookEntry (c : Claim) (n : Nat) : (c.becomeAbsent n).tookEntry = c.tookEntry := by
  obtain ⟨d, -, -, took, same⟩ := c.becomeAbsent_floor n
  rw [same, leave_tookEntry, took]

theorem becomeAbsent_seats (c : Claim) (n : Nat) : (c.becomeAbsent n).st.seats = (c.setPresence n .absent).st.seats := leave_seats _ n

theorem becomeAbsent_seat (c : Claim) {n : Nat} (known : (seatIndex n).isSome) :
    (c.becomeAbsent n).st.seat n = { c.st.seat n with presence := .absent } := by
  have seat : (c.becomeAbsent n).st.seat n = (c.setPresence n .absent).st.seat n := by
    unfold State.seat
    rw [becomeAbsent_seats]
  rw [seat, setPresence_seat c .absent known]

theorem becomeAbsent_seat_ne (c : Claim) {n m : Nat} (other : m ≠ n) : (c.becomeAbsent n).st.seat m = c.st.seat m := by
  have seat : (c.becomeAbsent n).st.seat m = (c.setPresence n .absent).st.seat m := by
    unfold State.seat
    rw [becomeAbsent_seats]
  rw [seat]
  unfold Claim.setPresence
  rw [trackHead_st]
  exact State.seat_modSeat_ne c.st other _

theorem becomeAbsent_lacks (c : Claim) {n : Nat} (one : c.floor.oneSlot n) : (c.becomeAbsent n).floor.Lacks n := by
  obtain ⟨d, floor, -, -, same⟩ := c.becomeAbsent_floor n
  rw [same, leave_floor]
  exact removeSeat_lacks d (floor ▸ one) .absent

end Claim

section AbsentEvent

variable {s x : State} {c : Claim} {body : Claim → Claim} {n : Nat}

/-- The event whose body ends with a seat's becoming ABSENT (R8): a slot closed makes it a fill point, a reply entry alone a serve
point. -/
theorem absent_event (is : body (.start s) = c.becomeAbsent n) (shows_ : c.Shows x) (seats : c.st.seats = x.seats)
    (due : (Claim.start s).SameDue c) (took : c.tookEntry = false) (y : State)
    (hy : y = (((x.notify ⟨.presence, .seat n, some 0, []⟩).raise .presence).seatRemoved n 5).listTold s) :
    (x.floor.slotOf n ≠ none → y.Settles (s.event body)) ∧
      (x.floor.slotOf n = none → x.floor.replyOf n ≠ none → y.roundSettles (s.event body)) ∧
      (x.floor.slotOf n = none → x.floor.replyOf n = none → (s.event body).floor = y.floor ∧ (s.event body).report = y.report) := by
  obtain ⟨d, floor, due', took', same⟩ := c.becomeAbsent_floor n
  have shown : (body (.start s)).Shows (((x.notify ⟨.presence, .seat n, some 0, []⟩).raise .presence).seatRemoved n 5) := by
    rw [is]
    exact shows_.becomeAbsent n
  have tookNone : (body (.start s)).tookEntry = false := by rw [is, Claim.becomeAbsent_tookEntry, took]
  have version := State.versionDue_shows (s := s) shown tookNone
  rw [hy, ← version]
  have begun := due.trans due'
  have here : (body (.start s)).st.firstPresentReply =
      (((x.notify ⟨.presence, .seat n, some 0, []⟩).raise .presence).seatRemoved n 5).firstPresentReply := by
    refine State.firstPresentReply_congr_mem (congrArg Floor.replies shown.floor) fun e he => ?_
    have other : e.seat ≠ n := by
      rw [is, same, show (d.leave n).st.floor = _ from d.leave_floor n] at he
      exact d.removeSeat_replies n .absent e he
    unfold State.isHere
    rw [is, c.becomeAbsent_seat_ne other]
    unfold State.seat
    rw [State.seatRemoved_seats, seats]
    rfl
  have slot : d.floor.slotOf n = x.floor.slotOf n := by rw [floor, shows_.floor]
  have reply : d.floor.replyOf n = x.floor.replyOf n := by rw [floor, shows_.floor]
  have left := d.leave_due n
  rw [← same, ← is] at left
  refine ⟨fun slot_ => ?_, fun none_ reply_ => ?_, fun none_ noReply => ?_⟩
  · have fill := left.fill.trans (Claim.removeSeat_fillDue (slot ▸ slot_))
    exact State.event_settles shown (fun _ => fill) (fun _ => .inl fill) here
  · obtain ⟨fill, serve, -⟩ := Claim.removeSeat_due (why := .absent) (slot.trans none_)
    exact State.event_roundSettles shown (fun _ => left.fill.trans (fill.trans begun.fill)) (fun _ => .inr (left.serve.trans (serve (reply ▸ reply_)))) here
  · obtain ⟨-, -, quiet⟩ := Claim.removeSeat_due (why := .absent) (slot.trans none_)
    exact State.event_undue shown (begun.trans ((quiet (reply.trans noReply)).trans left))

end AbsentEvent

end Sys2Proof.Machine
end

section
/-! O52. Answer faults of the sweeps (R136, R143, R151). -/

namespace Sys2Proof.Machine

namespace Claim

variable {c : Claim} {t : TrunkNo} {p : Nat}

/-- The claim in which a position has one miss more. -/
def missed (c : Claim) (t : TrunkNo) (p : Nat) : Claim :=
  c.modTrunk t (·.modStation p fun y => { y with miss := min 3 (((c.st.trunk t).station p).miss + 1) })

theorem takeMiss_eq (c : Claim) (t : TrunkNo) (p : Nat) : c.takeMiss t p = match c.st.seatAt t p with
    | none => c.missed t p
    | some n =>
      match (c.st.seat n).presence with
      | .absent => c.missed t p
      | .unconfirmed => if min 3 (((c.st.trunk t).station p).miss + 1) = 3 then (c.missed t p).becomeAbsent n else c.missed t p
      | .present | .fading =>
        if min 3 (((c.st.trunk t).station p).miss + 1) = 3 then (c.missed t p).becomeAbsent n
        else (c.missed t p).setPresence n .fading := rfl

/-- A miss that changes no presence. -/
theorem takeMiss_kept (h : c.st.seatAt t p = none ∨ ∃ n, c.st.seatAt t p = some n ∧ ((c.st.seat n).presence = .absent ∨
    (c.st.seat n).presence = .unconfirmed ∧ ((c.st.trunk t).station p).miss < 2)) : c.takeMiss t p = c.missed t p := by
  rw [takeMiss_eq]
  rcases h with unbound | ⟨n, at_, absent | ⟨unconfirmed, few⟩⟩
  · rw [unbound]
  · rw [at_]
    dsimp only
    rw [absent]
  · rw [at_]
    dsimp only
    rw [unconfirmed]
    dsimp only
    rw [if_neg (by omega)]

/-- An early miss of a seat that was heard. -/
theorem takeMiss_fading {n : Nat} (at_ : c.st.seatAt t p = some n)
    (heard : (c.st.seat n).presence = .present ∨ (c.st.seat n).presence = .fading) (few : ((c.st.trunk t).station p).miss < 2) :
    c.takeMiss t p = (c.missed t p).setPresence n .fading := by
  rw [takeMiss_eq]
  rw [at_]
  dsimp only
  rcases heard with present | fading
  · rw [present]
    dsimp only
    rw [if_neg (by omega)]
  · rw [fading]
    dsimp only
    rw [if_neg (by omega)]

/-- The third miss. -/
theorem takeMiss_absent {n : Nat} (at_ : c.st.seatAt t p = some n) (here : (c.st.seat n).presence ≠ .absent)
    (many : 2 ≤ ((c.st.trunk t).station p).miss) : c.takeMiss t p = (c.missed t p).becomeAbsent n := by
  rw [takeMiss_eq]
  rw [at_]
  dsimp only
  cases hp : (c.st.seat n).presence with
  | absent => exact absurd hp here
  | unconfirmed | present | fading =>
    dsimp only
    rw [if_pos (by omega)]

/-- A seat's becoming ABSENT takes its position off the pending list and changes nothing else of its trunk. -/
theorem becomeAbsent_trunk {n : Nat} (at_ : c.st.seatAt t p = some n) :
    (c.becomeAbsent n).st.trunk t = { c.st.trunk t with pending := ((c.becomeAbsent n).st.trunk t).pending } := by
  obtain ⟨b, hb, own, -⟩ := State.binding_of_seatAt at_
  obtain ⟨low, high⟩ := State.bound_range hb
  have bound : (((c.setPresence n .absent).reportPresence n .absent).st.seat n).binding = some b := by
    show ((c.setPresence n .absent).st.seat n).binding = some b
    rw [setPresence_seat c .absent (seatIndex_isSome low high)]
    exact hb
  have before : ((c.setPresence n .absent).reportPresence n .absent).st.trunk t = c.st.trunk t :=
    congrArg (fun v : Vector TrunkEngine 4 => v[t]) (Floored.setPresence c n .absent).trunks
  have left := leave_trunk ((c.setPresence n .absent).reportPresence n .absent) bound own
  rw [before] at left
  change (c.becomeAbsent n).st.trunk t = _ at left
  conv_lhs => rw [left]
  rw [left]
  rfl

end Claim

namespace State

variable {s : State} {tr : TrunkNo} {p : Nat}

/-- The trunk after the event of a miss. -/
theorem miss_trunk (s : State) (tr : TrunkNo) (p : Nat) : (s.event (·.takeMiss tr p)).trunk tr =
    { (s.trunk tr).modStation p fun y => { y with miss := min 3 (((s.trunk tr).station p).miss + 1) } with
      pending := ((s.event (·.takeMiss tr p)).trunk tr).pending } := by
  have missed : ((Claim.start s).missed tr p).st.trunk tr = _ := trunk_modTrunk_self _ _ _
  have body : ((Claim.start s).takeMiss tr p).st.trunk tr = { ((Claim.start s).missed tr p).st.trunk tr with
      pending := (((Claim.start s).takeMiss tr p).st.trunk tr).pending } := by
    cases at_ : s.seatAt tr p with
    | none => rw [Claim.takeMiss_kept (c := .start s) (.inl at_)]
    | some n =>
      by_cases absent : (s.seat n).presence = .absent
      · rw [Claim.takeMiss_kept (c := .start s) (.inr ⟨n, at_, .inl absent⟩)]
      · by_cases many : 2 ≤ ((s.trunk tr).station p).miss
        · rw [Claim.takeMiss_absent (c := .start s) at_ absent many]
          exact Claim.becomeAbsent_trunk (c := (Claim.start s).missed tr p) at_
        · cases hp : (s.seat n).presence with
          | absent => exact absurd hp absent
          | unconfirmed => rw [Claim.takeMiss_kept (c := .start s) (.inr ⟨n, at_, .inr ⟨hp, Nat.not_le.mp many⟩⟩)]
          | present =>
            rw [Claim.takeMiss_fading (c := .start s) at_ (.inl hp) (Nat.not_le.mp many)]
            unfold State.trunk
            rw [(Claim.Floored.setPresence _ n .fading).trunks]
          | fading =>
            rw [Claim.takeMiss_fading (c := .start s) at_ (.inr hp) (Nat.not_le.mp many)]
            unfold State.trunk
            rw [(Claim.Floored.setPresence _ n .fading).trunks]
  conv_lhs => rw [(s.event_after (·.takeMiss tr p)).trunks tr, body, missed]

/-- A miss that removes no seat leaves the floor. -/
theorem miss_floor {body : Claim → Claim} {c : Claim} (is : body (.start s) = c) (shows_ : c.Shows s) (due : (Claim.start s).SameDue c)
    (took : c.tookEntry = false) : (s.event body).floor = s.floor := by
  subst is
  obtain ⟨floor, -⟩ := event_undue shows_ due
  rw [versionDue_kept (s := s) shows_ rfl took] at floor
  exact floor

theorem missed_shows : ((Claim.start s).missed tr p).Shows s := (Claim.Shows.start s).modTrunk _ _

/-- The seat bound at a position after a miss there. -/
theorem miss_kept {n : Nat} (at_ : s.seatAt tr p = some n) (h : (s.seat n).presence = .absent ∨
    (s.seat n).presence = .unconfirmed ∧ ((s.trunk tr).station p).miss < 2) :
    (s.event (·.takeMiss tr p)).floor = s.floor ∧ ((s.event (·.takeMiss tr p)).seat n).presence = (s.seat n).presence := by
  have is := Claim.takeMiss_kept (c := .start s) (t := tr) (p := p) (.inr ⟨n, at_, h⟩)
  refine ⟨miss_floor (body := (·.takeMiss tr p)) is missed_shows ⟨rfl, rfl⟩ rfl, ?_⟩
  rw [event_seat_granted]
  show (((Claim.start s).takeMiss tr p).st.seat n).presence = _
  rw [is]
  rfl

theorem miss_fading {n : Nat} (at_ : s.seatAt tr p = some n) (heard : (s.seat n).presence = .present ∨ (s.seat n).presence = .fading)
    (few : ((s.trunk tr).station p).miss < 2) :
    (s.event (·.takeMiss tr p)).floor = s.floor ∧ ((s.event (·.takeMiss tr p)).seat n).presence = .fading := by
  obtain ⟨b, hb, -⟩ := binding_of_seatAt at_
  obtain ⟨low, high⟩ := bound_range hb
  have is := Claim.takeMiss_fading (c := .start s) at_ heard few
  refine ⟨miss_floor (body := (·.takeMiss tr p)) is (missed_shows.setPresence n .fading) (.trans (d := (Claim.start s).missed tr p) ⟨rfl, rfl⟩ (Claim.setPresence_same _ n .fading))
    (Claim.trackHead_tookEntry _ _), ?_⟩
  rw [event_seat_granted]
  show (((Claim.start s).takeMiss tr p).st.seat n).presence = _
  rw [is, Claim.setPresence_seat _ _ (seatIndex_isSome low high)]

/-- The third miss leaves the seat ABSENT, reported and off the floor. -/
theorem miss_absent {n : Nat} (at_ : s.seatAt tr p = some n) (here : (s.seat n).presence ≠ .absent)
    (many : 2 ≤ ((s.trunk tr).station p).miss) : ((s.event (·.takeMiss tr p)).seat n).presence = .absent ∧
      (∀ l, (s.event (·.takeMiss tr p)).flagged l .presence) ∧
      (s.floor.oneSlot n → (s.event (·.takeMiss tr p)).floorState n = .idle) := by
  obtain ⟨b, hb, -⟩ := binding_of_seatAt at_
  obtain ⟨low, high⟩ := bound_range hb
  have is := Claim.takeMiss_absent (c := .start s) at_ here many
  refine ⟨?_, fun l => event_flagged ?_, fun one => (event_lacks ?_).idle⟩
  · rw [event_seat_granted]
    show (((Claim.start s).takeMiss tr p).st.seat n).presence = _
    rw [is, Claim.becomeAbsent_seat _ (seatIndex_isSome low high)]
  · show ((Claim.start s).takeMiss tr p).st.flagged l .presence
    rw [is]
    have told : (((Claim.start s).missed tr p).setPresence n .absent |>.reportPresence n .absent).st.flagged l .presence :=
      flagged_raise _ l .presence
    have left := Claim.leave_claim (c := ((Claim.start s).missed tr p).setPresence n .absent |>.reportPresence n .absent) (.refl _) n
    exact flagged_of_grown left.report told
  · show ((Claim.start s).takeMiss tr p).floor.Lacks n
    rw [is]
    exact Claim.becomeAbsent_lacks ((Claim.start s).missed tr p) one

end State

/-- Settles O52: the counts, the miss at the position, then what the end of the transaction makes of the sweep. -/
theorem answerFaults : Obligations.AnswerFaults := by
  unfold Obligations.AnswerFaults
  intro tr x s flying sweep low high plan row crc format misses fault crcs formats missed
  let v : State := ((s.reachMoment x.answerBy).modTrunk tr (·.miscounted crc format misses)).modTrunk tr fun e => { e with inFlight := none }
  have step : exec row s = .next ((v.event (·.takeMiss tr x.position)).afterTransaction tr) := by
    rw [State.exec_fault flying fault crcs formats missed]
    unfold State.faultTransaction
    dsimp only
    rw [if_neg (by simp [sweep])]
  have before : v.trunk tr = { (s.trunk tr).miscounted crc format misses with inFlight := none } := by
    rw [State.trunk_modTrunk_self, State.trunk_modTrunk_self]
    rfl
  have now : (v.event (·.takeMiss tr x.position)).now = max s.now x.answerBy :=
    (State.event_claim v _ (Claim.takeMiss_claim (c := .start v) (.refl v) tr x.position)).now
  have floor : v.floor = s.floor := rfl
  have seat : ∀ n, v.seat n = s.seat n := fun _ => rfl
  have at_ : v.seatAt tr x.position = s.seatAt tr x.position := rfl
  have shows_ : ((Claim.start v).missed tr x.position).Shows s := ⟨rfl, rfl, rfl⟩
  have seats : v.seats = s.seats := rfl
  have count : ((v.trunk tr).station x.position).miss = ((s.trunk tr).station x.position).miss := by
    rw [before]
    rfl
  generalize v = v at *
  have trunk := v.miss_trunk tr x.position
  rw [before] at trunk
  have station : (((v.event (·.takeMiss tr x.position)).trunk tr).station x.position).miss = min 3 (((s.trunk tr).station x.position).miss + 1) := by
    rw [trunk]
    show ((TrunkEngine.modStation _ x.position _).station x.position).miss = _
    rw [TrunkEngine.station_modStation_self _ low high]
    rfl
  rw [TrunkEngine.modStation_rest] at trunk
  have swept := State.swept_afterTransaction (s := v.event (·.takeMiss tr x.position)) (tr := tr) (by rw [trunk]; exact plan)
  have planAfter : ((v.event (·.takeMiss tr x.position)).trunk tr).planAfter = (s.trunk tr).planAfter := by
    rw [trunk]
    rfl
  have silent : ((v.event (·.takeMiss tr x.position)).trunk tr).Silent ↔ (s.trunk tr).Silent := by
    unfold TrunkEngine.Silent
    rw [planAfter, trunk]
    rfl
  have loud (h : (s.trunk tr).planAfter = (s.trunk tr).plan ∨ (s.trunk tr).state ≠ .running ∨ (s.trunk tr).sweepHeard = true) :
      ¬ ((v.event (·.takeMiss tr x.position)).trunk tr).Silent := by
    rw [silent]
    rintro ⟨moved, running, unheard⟩
    rcases h with h | h | h
    · exact moved h
    · exact h running
    · exact Bool.false_ne_true (unheard.symm.trans h)
  refine ⟨_, step, ?_⟩
  generalize (v.event (·.takeMiss tr x.position)).afterTransaction tr = t at *
  have presence (n : Nat) : (t.seat n).presence = ((v.event (·.takeMiss tr x.position)).seat n).presence := by
    unfold State.seat
    rw [swept.seats]
  refine ⟨by rw [swept.rest, trunk]; rfl, by rw [swept.rest, trunk]; rfl, by rw [swept.rest, trunk]; rfl, by rw [swept.rest, trunk],
    swept.now.trans now, ?_, swept.plan.trans planAfter, ⟨fun h => swept.told (silent.mpr h), fun h => ?_⟩, fun n hn => ⟨fun few => ?_,
      fun absent => ?_, fun here many => ?_⟩⟩
  · rw [swept.rest]
    exact station
  · rw [(swept.quiet (loud h)).1, trunk]
    rfl
  · have hv := at_.trans hn
    cases hp : (s.seat n).presence with
    | present | fading =>
      obtain ⟨same, left⟩ := State.miss_fading hv (by simp [seat, hp]) (count ▸ few)
      exact ⟨swept.floor.trans (same.trans floor), fun _ => (presence n).trans left, fun h => by simp at h⟩
    | unconfirmed | absent =>
      obtain ⟨same, left⟩ := State.miss_kept hv (by simp [seat, hp, count, few])
      exact ⟨swept.floor.trans (same.trans floor), fun h => by simp at h, fun _ => (presence n).trans (left.trans (by rw [seat, hp]))⟩
  · obtain ⟨same, left⟩ := State.miss_kept (at_.trans hn) (.inl (by rw [seat, absent]))
    exact ⟨(presence n).trans (left.trans (by rw [seat, absent])), swept.floor.trans (same.trans floor)⟩
  · have hv := at_.trans hn
    have here' : (v.seat n).presence ≠ .absent := by
      rw [seat]
      exact here
    obtain ⟨left, told, idle⟩ := State.miss_absent hv here' (count ▸ many)
    refine ⟨(presence n).trans left, fun l => State.flagged_of_grown swept.grown (told l), fun one => ?_, fun y hy still => ?_⟩
    · have gone := idle (floor ▸ one)
      unfold State.floorState at gone ⊢
      rw [swept.floor]
      exact gone
    · have report := (swept.quiet (loud still)).2
      have is := Claim.takeMiss_absent (c := .start v) hv here' (count ▸ many)
      obtain ⟨slot, reply, none_⟩ := absent_event (body := (·.takeMiss tr x.position)) is shows_ seats ⟨rfl, rfl⟩ rfl y
        (hy.trans (by unfold State.listTold; rw [floor]))
      refine ⟨fun h => (slot h).congr swept.floor report swept.seats, fun h g => (reply h g).congr swept.floor report swept.seats, fun h g => ?_⟩
      obtain ⟨floor', report'⟩ := none_ h g
      exact ⟨swept.floor.trans floor', report.trans report'⟩

end Sys2Proof.Machine
end

section
/-! SUPPORT. What the parts of a valid answer leave (R8, R148 to R153). -/

namespace Sys2Proof.Machine

namespace Claim

variable {c : Claim} {t : TrunkNo} {p : Nat}

/-- What an answer's part leaves as it was: the floor, chamber time, what is due, and every trunk field that answers do not write. -/
structure Heard (c d : Claim) (t : TrunkNo) : Prop where
  floor : d.floor = c.floor
  took : d.tookEntry = c.tookEntry
  grown : c.st.report.Grown d.st.report
  bindings : c.st.SameBindings d.st
  trunk : d.st.trunk t = { c.st.trunk t with
    state := (d.st.trunk t).state, sweepHeard := (d.st.trunk t).sweepHeard, positions := (d.st.trunk t).positions
    fifo := (d.st.trunk t).fifo, pending := (d.st.trunk t).pending }

namespace Heard

variable {d : Claim}

theorem refl (c : Claim) (t : TrunkNo) : c.Heard c t := ⟨rfl, rfl, .refl _, .refl _, rfl⟩

theorem trans {e : Claim} (h : c.Heard d t) (g : d.Heard e t) : c.Heard e t := by
  refine ⟨g.floor.trans h.floor, g.took.trans h.took, h.grown.trans g.grown, h.bindings.trans g.bindings, ?_⟩
  conv_lhs => rw [g.trunk, h.trunk]

theorem notify (c : Claim) (t : TrunkNo) (n : Notice) : c.Heard (c.notify n) t :=
  ⟨rfl, rfl, (State.FloorFrame.notify c.st n).report, fun _ => rfl, rfl⟩

theorem raise (c : Claim) (t : TrunkNo) (e : EventFlag) : c.Heard (c.raise e) t :=
  ⟨rfl, rfl, (State.FloorFrame.raise c.st e).report, fun _ => rfl, rfl⟩

/-- A change of the trunk's own fields. -/
theorem modTrunk (c : Claim) (t : TrunkNo) (f : TrunkEngine → TrunkEngine) (h : ∀ e, f e = { e with
    state := (f e).state, sweepHeard := (f e).sweepHeard, positions := (f e).positions, fifo := (f e).fifo, pending := (f e).pending }) :
    c.Heard (c.modTrunk t f) t := by
  refine ⟨rfl, rfl, .refl _, fun _ => rfl, ?_⟩
  rw [modTrunk_trunk]
  exact h _

theorem modStation (c : Claim) (t : TrunkNo) (p : Nat) (f : PositionState → PositionState) : c.Heard (c.modTrunk t (·.modStation p f)) t := by
  refine modTrunk c t _ fun e => ?_
  rw [TrunkEngine.modStation_rest]

/-- A change of a seat's record but its binding. -/
theorem modSeat (c : Claim) (t : TrunkNo) (n : Nat) (f : SeatRecord → SeatRecord) (hf : ∀ r, (f r).binding = r.binding) :
    c.Heard (c.modSeat n f) t := by
  have trunk : (c.modSeat n f).st.trunk t = c.st.trunk t := modSeat_trunk c n f t
  refine ⟨modSeat_floor c n f, rfl, ?_, .modSeat c.st n f hf, ?_⟩
  · rw [show (c.modSeat n f).st.report = _ from State.modSeat_report _ _ _]
    exact .refl _
  · rw [trunk]

theorem setPresence (c : Claim) (t : TrunkNo) (n : Nat) (q : Presence) : c.Heard (c.setPresence n q) t := by
  have floored := Floored.setPresence c n q
  have st : (c.setPresence n q).st = (c.modSeat n fun r => { r with presence := q }).st := trackHead_st _ _
  have one := modSeat c t n (fun r => { r with presence := q }) fun _ => rfl
  refine ⟨setPresences_floor c [n] q, trackHead_tookEntry _ _, ?_, ?_, ?_⟩
  · rw [st]
    exact one.grown
  · rw [st]
    exact one.bindings
  · rw [st]
    exact one.trunk

theorem reportPresence (c : Claim) (t : TrunkNo) (n : Nat) (q : Presence) : c.Heard (c.reportPresence n q) t := (notify c t _).trans (raise _ t _)

theorem markReturn (h : c.st.seatAt t p = some n) : c.Heard (c.markReturn n) t := by
  obtain ⟨b, hb, own, -⟩ := State.binding_of_seatAt h
  have marked := markReturn_trunk c hb own
  refine ⟨markReturn_floor c n, rfl, ?_, .ofSeats (markReturn_seats c n), ?_⟩
  · rw [show (c.markReturn n).st.report = _ from State.markSeat_report _ _ _]
    exact .refl _
  · rw [marked, TrunkEngine.mark_rest]

theorem becomePresent (h : c.st.seatAt t p = some n) : c.Heard (c.becomePresent n) t := by
  have written := (setPresence c t n .present).trans (reportPresence _ t n .present)
  have returned := written.trans (markReturn ((written.bindings.seatAt t p).trans h))
  unfold Claim.becomePresent
  split
  · exact refl c t
  · exact setPresence c t n .present
  · exact returned
  · dsimp only
    have fills (d : Claim) (b : Prop) [Decidable b] : d.Heard (if b then d.fillPoint else d) t := by split <;> exact ⟨rfl, rfl, .refl _, fun _ => rfl, rfl⟩
    have serves (d : Claim) (b : Prop) [Decidable b] : d.Heard (if b then d.servePoint else d) t := by split <;> exact ⟨rfl, rfl, .refl _, fun _ => rfl, rfl⟩
    exact (returned.trans (fills _ _)).trans (serves _ _)

theorem recordKind (c : Claim) (t : TrunkNo) (p : Nat) (r : StatusReport) : c.Heard (c.recordKind t p r) t := by
  unfold Claim.recordKind
  split
  · exact modSeat c t _ _ fun _ => rfl
  · exact refl c t

theorem checkMic (c : Claim) (t : TrunkNo) (p : Nat) (x y : Bool) : c.Heard (c.checkMic t p x y) t := by
  unfold Claim.checkMic
  dsimp only
  split
  · exact modStation c t p _
  · split
    · exact refl c t
    · split
      · exact ((modStation c t p _).trans (notify _ t _)).trans (modSeat _ t _ _ fun _ => rfl)
      · exact (modStation c t p _).trans (notify _ t _)

theorem takeReport (c : Claim) (t : TrunkNo) (p : Nat) (r : StatusReport) : c.Heard (c.takeReport t p r) t := by
  unfold Claim.takeReport
  dsimp only
  split
  · exact refl c t
  · split
    · split
      · exact (modTrunk c t _ fun _ => rfl).trans (modStation _ t p _)
      · exact refl c t
    · exact (notify c t _).trans (modStation _ t p _)

theorem setTrunkState (c : Claim) (t : TrunkNo) (x : TrunkState) : c.Heard (c.setTrunkState t x) t := by
  unfold Claim.setTrunkState
  dsimp only
  exact ((modTrunk c t _ fun _ => rfl).trans (notify _ t _)).trans (raise _ t _)

end Heard

end Claim

end Sys2Proof.Machine
end

section
/-! SUPPORT. What the parts of a valid answer write (R8, R148 to R153). -/

namespace Sys2Proof.Machine

namespace Claim

variable {c : Claim} {t : TrunkNo} {p n : Nat}

/-! ### A seat that answers (R8) -/

/-- A seat that was ABSENT or UNCONFIRMED returns. -/
def returns (c : Claim) (n : Nat) : Claim := ((c.setPresence n .present).reportPresence n .present).markReturn n

theorem becomePresent_present (h : (c.st.seat n).presence = .present) : c.becomePresent n = c := by
  unfold becomePresent
  rw [h]

theorem becomePresent_fading (h : (c.st.seat n).presence = .fading) : c.becomePresent n = c.setPresence n .present := by
  unfold becomePresent
  rw [h]

theorem becomePresent_absent (h : (c.st.seat n).presence = .absent) : c.becomePresent n = c.returns n := by
  unfold becomePresent
  rw [h]
  rfl

/-- The return of an UNCONFIRMED seat is that of an ABSENT one, but for what is due. -/
theorem becomePresent_unconfirmed (h : (c.st.seat n).presence = .unconfirmed) : (c.becomePresent n).st = (c.returns n).st ∧
    (c.becomePresent n).tookEntry = (c.returns n).tookEntry := by
  unfold becomePresent
  rw [h]
  dsimp only
  split <;> split <;> exact ⟨rfl, rfl⟩

theorem becomePresent_back (h : (c.st.seat n).presence = .absent ∨ (c.st.seat n).presence = .unconfirmed) :
    (c.becomePresent n).st = (c.returns n).st := by
  rcases h with absent | unconfirmed
  · rw [becomePresent_absent absent]
  · exact (becomePresent_unconfirmed unconfirmed).1

theorem markReturn_time (c : Claim) (n : Nat) : (c.markReturn n).time = c.time := by
  have kept (s : State) (label : Bool) : (s.markSeat n label).timeBase = s.timeBase := by
    unfold State.markSeat
    split <;> rfl
  exact congrArg TimeBase.chamberTime (kept c.st _)

theorem returns_seat (c : Claim) (known : (seatIndex n).isSome) : (c.returns n).st.seat n = { c.st.seat n with presence := .present } := by
  have seats : (c.returns n).st.seats = (c.setPresence n .present).st.seats := markReturn_seats _ n
  rw [State.seat_congr seats, setPresence_seat c .present known]

/-- A seat that answers is PRESENT; nothing else of its record changes. -/
theorem becomePresent_seat (known : (seatIndex n).isSome) : (c.becomePresent n).st.seat n = { c.st.seat n with presence := .present } := by
  cases h : (c.st.seat n).presence with
  | present =>
    rw [becomePresent_present h, ← h]
  | fading => rw [becomePresent_fading h, setPresence_seat c .present known]
  | absent => rw [becomePresent_back (.inl h), returns_seat c known]
  | unconfirmed => rw [becomePresent_back (.inr h), returns_seat c known]

theorem setPresence_trunk (c : Claim) (n : Nat) (q : Presence) (t : TrunkNo) : (c.setPresence n q).st.trunk t = c.st.trunk t :=
  congrArg (fun v : Vector TrunkEngine 4 => v[t]) (Floored.setPresence c n q).trunks

/-- A return marks the seat's position (R8). -/
theorem returns_trunk {b : Binding} (hb : (c.st.seat n).binding = some b) (own : b.trunk = t) :
    (c.returns n).st.trunk t = (c.st.trunk t).mark b.position (c.st.seat n).label.isSome := by
  obtain ⟨low, high⟩ := State.bound_range hb
  have seat : ((c.setPresence n .present).reportPresence n .present).st.seat n = { c.st.seat n with presence := .present } :=
    setPresence_seat c .present (seatIndex_isSome low high)
  have marked := markReturn_trunk ((c.setPresence n .present).reportPresence n .present) (t := t) (by rw [seat]; exact hb) own
  rw [seat] at marked
  exact marked.trans (congrArg (TrunkEngine.mark · b.position (c.st.seat n).label.isSome) (setPresence_trunk c n .present t))

/-- A seat that answers changes of its trunk the pending list alone. -/
theorem becomePresent_trunk (at_ : c.st.seatAt t p = some n) :
    (c.becomePresent n).st.trunk t = { c.st.trunk t with pending := ((c.becomePresent n).st.trunk t).pending } := by
  obtain ⟨b, hb, own, -⟩ := State.binding_of_seatAt at_
  have back (h : (c.becomePresent n).st = (c.returns n).st) :
      (c.becomePresent n).st.trunk t = { c.st.trunk t with pending := ((c.becomePresent n).st.trunk t).pending } := by
    rw [h, returns_trunk hb own]
    exact TrunkEngine.mark_rest _ _ _
  cases h : (c.st.seat n).presence with
  | present => rw [becomePresent_present h]
  | fading => rw [becomePresent_fading h, setPresence_trunk]
  | absent => exact back (becomePresent_back (.inl h))
  | unconfirmed => exact back (becomePresent_back (.inr h))

theorem Shows.becomePresent_back {x : State} (shown : c.Shows x)
    (h : (c.st.seat n).presence = .absent ∨ (c.st.seat n).presence = .unconfirmed) :
    (c.becomePresent n).Shows ((x.notify ⟨.presence, .seat n, some 2, []⟩).raise .presence) := by
  have told := ((shown.setPresence n .present).notify ⟨.presence, .seat n, some 2, []⟩).raise .presence
  have marked : (c.returns n).Shows ((x.notify ⟨.presence, .seat n, some 2, []⟩).raise .presence) :=
    told.congr (markReturn_floor _ n) (State.markSeat_report _ _ _)
      (markReturn_time _ n)
  exact marked.of_st (Claim.becomePresent_back h)

theorem Shows.becomePresent_here {x : State} (shown : c.Shows x)
    (h : (c.st.seat n).presence = .present ∨ (c.st.seat n).presence = .fading) : (c.becomePresent n).Shows x ∧ c.SameDue (c.becomePresent n) := by
  rcases h with present | fading
  · rw [Claim.becomePresent_present present]
    exact ⟨shown, .refl c⟩
  · rw [Claim.becomePresent_fading fading]
    exact ⟨shown.setPresence n .present, setPresence_same c n .present⟩

/-! ### The microphone compared (R153) -/

theorem notify_trunk (c : Claim) (n : Notice) (t : TrunkNo) : (c.notify n).st.trunk t = c.st.trunk t := rfl

section Mic

variable {x y : Bool}

theorem checkMic_equal (h : x = y) : c.checkMic t p x y = c.modTrunk t (·.modStation p fun z => { z with mismatch := false }) := by
  unfold checkMic
  dsimp only
  rw [if_pos h]

theorem checkMic_known (h : x ≠ y) (known : ((c.st.trunk t).station p).mismatch = true) : c.checkMic t p x y = c := by
  unfold checkMic
  dsimp only
  rw [if_neg h, if_pos known]

theorem checkMic_bound (h : x ≠ y) (new : ((c.st.trunk t).station p).mismatch = false) (at_ : c.st.seatAt t p = some n) :
    c.checkMic t p x y = (((c.modTrunk t (·.modStation p fun z => { z with mismatch := true })).notify
      (.ofSeat .micFault n none [detailCode (yesNo x), detailCode (yesNo y)])).modSeat n fun r => { r with micFaultMark := true }) := by
  unfold checkMic
  dsimp only
  rw [if_neg h, if_neg (by simp [new]), at_]

theorem checkMic_unbound (h : x ≠ y) (new : ((c.st.trunk t).station p).mismatch = false) (at_ : c.st.seatAt t p = none) :
    c.checkMic t p x y = ((c.modTrunk t (·.modStation p fun z => { z with mismatch := true })).notify
      ⟨.micFault, .trunk t, none, [detailOf p, detailCode (yesNo y)]⟩) := by
  unfold checkMic
  dsimp only
  rw [if_neg h, if_neg (by simp [new]), at_]

/-- What the comparison leaves of the trunk: the position's mark alone changes. -/
theorem checkMic_trunk (low : 1 ≤ p) (high : p ≤ 120) :
    (c.checkMic t p x y).st.trunk t = { c.st.trunk t with positions := ((c.checkMic t p x y).st.trunk t).positions } ∧
      ((c.checkMic t p x y).st.trunk t).station p = { (c.st.trunk t).station p with mismatch := decide (x ≠ y) } := by
  have written (v : Bool) (d : Claim) (trunk : d.st.trunk t = (c.st.trunk t).modStation p fun z => { z with mismatch := v }) :
      d.st.trunk t = { c.st.trunk t with positions := (d.st.trunk t).positions } ∧
        (d.st.trunk t).station p = { (c.st.trunk t).station p with mismatch := v } := by
    rw [trunk, TrunkEngine.station_modStation_self _ low high]
    exact ⟨TrunkEngine.modStation_rest _ _ _, rfl⟩
  by_cases same : x = y
  · rw [checkMic_equal same]
    simpa [same] using written false _ (modTrunk_trunk _ _ _)
  · cases known : ((c.st.trunk t).station p).mismatch with
    | true =>
      rw [checkMic_known same known]
      refine ⟨rfl, ?_⟩
      simp only [ne_eq, same, not_false_eq_true, decide_true, ← known]
    | false =>
      have isTrue : decide (x ≠ y) = true := by simpa using same
      rw [isTrue]
      cases at_ : c.st.seatAt t p with
      | some m =>
        rw [checkMic_bound same known at_]
        exact written true _ ((modSeat_trunk _ _ _ t).trans ((notify_trunk _ _ t).trans (modTrunk_trunk c t _)))
      | none =>
        rw [checkMic_unbound same known at_]
        exact written true _ ((notify_trunk _ _ t).trans (modTrunk_trunk c t _))

/-- What it leaves of the seats: the mark alone, and that of the seat bound there. -/
theorem checkMic_seat (n : Nat) : ∃ m, (c.checkMic t p x y).st.seat n = { c.st.seat n with micFaultMark := m } ∧
    (x ≠ y → ((c.st.trunk t).station p).mismatch = false → c.st.seatAt t p = some n → m = true) := by
  by_cases same : x = y
  · rw [checkMic_equal same]
    exact ⟨_, rfl, fun h => absurd same h⟩
  · cases known : ((c.st.trunk t).station p).mismatch with
    | true =>
      rw [checkMic_known same known]
      exact ⟨_, rfl, fun _ h => nomatch h⟩
    | false =>
      cases at_ : c.st.seatAt t p with
      | some m =>
        rw [checkMic_bound same known at_]
        obtain ⟨b, hb, -⟩ := State.binding_of_seatAt at_
        obtain ⟨low, high⟩ := State.bound_range hb
        by_cases own : n = m
        · subst own
          exact ⟨true, State.seat_modSeat_self _ (seatIndex_isSome low high) _, fun _ _ _ => rfl⟩
        · exact ⟨_, State.seat_modSeat_ne _ own _, fun _ _ h => absurd (Option.some.inj h).symm own⟩
      | none =>
        rw [checkMic_unbound same known at_]
        exact ⟨_, rfl, fun _ _ h => nomatch h⟩

theorem checkMic_unboundSeats (at_ : c.st.seatAt t p = none) : (c.checkMic t p x y).st.seats = c.st.seats := by
  by_cases same : x = y
  · rw [checkMic_equal same]
    rfl
  · cases known : ((c.st.trunk t).station p).mismatch with
    | true => rw [checkMic_known same known]
    | false =>
      rw [checkMic_unbound same known at_]
      rfl

theorem checkMic_same (c : Claim) (t : TrunkNo) (p : Nat) (x y : Bool) : c.SameDue (c.checkMic t p x y) := by
  unfold checkMic
  dsimp only
  split
  · exact ⟨rfl, rfl⟩
  · split
    · exact .refl c
    · split <;> exact ⟨rfl, rfl⟩

theorem Shows.checkMic_quiet {z : State} (h : c.Shows z) (quiet : x = y ∨ ((c.st.trunk t).station p).mismatch = true) :
    (c.checkMic t p x y).Shows z := by
  by_cases same : x = y
  · rw [checkMic_equal same]
    exact h.modTrunk _ _
  · rw [checkMic_known same (quiet.resolve_left same)]
    exact h

end Mic

/-! ### The report (R149, R150) -/

section Report

variable {r : StatusReport}

/-- The report is new: not empty, and of the toggle awaited. -/
def isNew (c : Claim) (t : TrunkNo) (p : Nat) (r : StatusReport) : Prop := r.counts.isZero = false ∧ r.toggle = ((c.st.trunk t).station p).toggle

theorem takeReport_old (h : ¬ c.isNew t p r) : c.takeReport t p r = c := by
  unfold takeReport
  dsimp only
  rw [if_pos]
  by_contra none_
  obtain ⟨some_, same⟩ := not_or.mp none_
  exact h ⟨by simpa using some_, by simpa using same⟩

theorem takeReport_bound (new : c.isNew t p r) (at_ : c.st.seatAt t p = some n) : c.takeReport t p r =
    if (c.st.trunk t).fifo.length < 24 then
      (c.modTrunk t fun e => { e with fifo := e.fifo ++ [⟨t, p, n, r.counts, c.time⟩] }).modTrunk t
        (·.modStation p fun x => { x with toggle := !x.toggle })
    else c := by
  unfold takeReport
  dsimp only
  rw [if_neg (by simp [new.1, new.2]), at_]
  rfl

theorem takeReport_stray (new : c.isNew t p r) (at_ : c.st.seatAt t p = none) : c.takeReport t p r =
    (c.notify ⟨.stray, .trunk t, none, [detailOf p]⟩).modTrunk t (·.modStation p fun x => { x with toggle := !x.toggle }) := by
  unfold takeReport
  dsimp only
  rw [if_neg (by simp [new.1, new.2]), at_]
  rfl

theorem takeReport_seats (c : Claim) (t : TrunkNo) (p : Nat) (r : StatusReport) : (c.takeReport t p r).st.seats = c.st.seats := by
  unfold takeReport
  dsimp only
  split
  · rfl
  · split
    · split <;> rfl
    · rfl

theorem takeReport_same (c : Claim) (t : TrunkNo) (p : Nat) (r : StatusReport) : c.SameDue (c.takeReport t p r) := by
  unfold takeReport
  dsimp only
  split
  · exact .refl c
  · split
    · split
      · exact ⟨rfl, rfl⟩
      · exact .refl c
    · exact ⟨rfl, rfl⟩

/-- What the report leaves of the trunk: the FIFO and the position's acknowledgement alone change. -/
theorem takeReport_trunk (low : 1 ≤ p) (high : p ≤ 120) :
    (c.takeReport t p r).st.trunk t = { c.st.trunk t with
      positions := ((c.takeReport t p r).st.trunk t).positions, fifo := ((c.takeReport t p r).st.trunk t).fifo } ∧
    ∃ toggle, ((c.takeReport t p r).st.trunk t).station p = { (c.st.trunk t).station p with toggle := toggle } := by
  have turned (e : TrunkEngine) : e.modStation p (fun x => { x with toggle := !x.toggle }) =
      { e with positions := (e.modStation p fun x => { x with toggle := !x.toggle }).positions
               fifo := (e.modStation p fun x => { x with toggle := !x.toggle }).fifo } := by
    unfold TrunkEngine.modStation
    split <;> rfl
  by_cases new : c.isNew t p r
  · cases at_ : c.st.seatAt t p with
    | none =>
      rw [takeReport_stray new at_, modTrunk_trunk, notify_trunk, TrunkEngine.station_modStation_self _ low high]
      exact ⟨turned _, _, rfl⟩
    | some n =>
      rw [takeReport_bound new at_]
      split
      · rw [modTrunk_trunk, modTrunk_trunk, TrunkEngine.station_modStation_self _ low high]
        refine ⟨?_, _, rfl⟩
        conv_lhs => rw [turned]
      · exact ⟨rfl, _, rfl⟩
  · rw [takeReport_old new]
    exact ⟨rfl, _, rfl⟩

end Report

end Claim

end Sys2Proof.Machine
end

section
/-! SUPPORT. A valid answer in its parts (R148). -/

namespace Sys2Proof.Machine

namespace Claim

/-- A FAULT trunk that is heard from is RUNNING (R148). -/
def awake (c : Claim) (t : TrunkNo) : Claim := if (c.st.trunk t).state = .fault then c.setTrunkState t .running else c

/-- The position's miss count is 0. -/
def cleared (c : Claim) (t : TrunkNo) (p : Nat) : Claim :=
  (c.awake t).modTrunk t fun e => { e.modStation p fun y => { y with miss := 0 } with sweepHeard := true }

/-- The seat bound there answers. -/
def seatAnswers (c : Claim) (t : TrunkNo) (p : Nat) : Claim :=
  match (c.cleared t p).st.seatAt t p with
  | some n => (c.cleared t p).becomePresent n
  | none => c.cleared t p

/-- The station kind is recorded and the microphone compared. -/
def compared (c : Claim) (t : TrunkNo) (x : Transaction) (r : StatusReport) : Claim :=
  ((c.seatAnswers t x.position).recordKind t x.position r).checkMic t x.position x.micOpen r.micOpen

variable {c : Claim} {t : TrunkNo} {x : Transaction} {r : StatusReport} {n : Nat}

theorem takeStatus_lost (h : ((c.st.trunk t).station x.position).miss = 3) :
    c.takeStatus t x r = (c.compared t x r).modTrunk t (·.modStation x.position fun y => { y with toggle := r.toggle }) :=
  if_pos (decide_eq_true h)

theorem takeStatus_known (h : ((c.st.trunk t).station x.position).miss ≠ 3) :
    c.takeStatus t x r = (c.compared t x r).takeReport t x.position r := by
  have notLost : ¬ decide (((c.st.trunk t).station x.position).miss = 3) = true := by simpa using h
  exact if_neg notLost

/-! ### What the parts leave -/

theorem awake_heard (c : Claim) (t : TrunkNo) : c.Heard (c.awake t) t := by
  unfold awake
  split
  · exact .setTrunkState c t _
  · exact .refl c t

theorem awake_trunk (h : (c.st.trunk t).state = .running ∨ (c.st.trunk t).state = .fault) :
    (c.awake t).st.trunk t = { c.st.trunk t with state := .running } := by
  unfold awake
  split
  · exact setTrunkState_trunk c t _
  · next other => rw [← h.resolve_right other]

theorem awake_seats (c : Claim) (t : TrunkNo) : (c.awake t).st.seats = c.st.seats := by
  unfold awake
  split <;> rfl

theorem awake_same (c : Claim) (t : TrunkNo) : c.SameDue (c.awake t) := by
  unfold awake
  split <;> exact ⟨rfl, rfl⟩

theorem cleared_heard (c : Claim) (t : TrunkNo) (p : Nat) : c.Heard (c.cleared t p) t := by
  refine (awake_heard c t).trans (.modTrunk _ t _ fun e => ?_)
  unfold TrunkEngine.modStation
  split <;> rfl

theorem cleared_trunk (h : (c.st.trunk t).state = .running ∨ (c.st.trunk t).state = .fault) {p : Nat} (low : 1 ≤ p) (high : p ≤ 120) :
    (c.cleared t p).st.trunk t = { c.st.trunk t with
        state := .running, sweepHeard := true, positions := ((c.cleared t p).st.trunk t).positions } ∧
      ((c.cleared t p).st.trunk t).station p = { (c.st.trunk t).station p with miss := 0 } := by
  have written : (c.cleared t p).st.trunk t =
      { ({ c.st.trunk t with state := .running } : TrunkEngine).modStation p fun y => { y with miss := 0 } with sweepHeard := true } := by
    unfold cleared
    rw [modTrunk_trunk, awake_trunk h]
  constructor
  · conv_lhs => rw [written, TrunkEngine.modStation_rest]
    rw [written]
  · rw [written]
    exact TrunkEngine.station_modStation_self { c.st.trunk t with state := .running } low high _

theorem cleared_seat (c : Claim) (t : TrunkNo) (p n : Nat) : (c.cleared t p).st.seat n = c.st.seat n := State.seat_congr (awake_seats c t) n

theorem seatAnswers_bound {p : Nat} (at_ : c.st.seatAt t p = some n) : c.seatAnswers t p = (c.cleared t p).becomePresent n := by
  unfold seatAnswers
  rw [(cleared_heard c t p).bindings.seatAt t p, at_]

theorem seatAnswers_unbound {p : Nat} (at_ : c.st.seatAt t p = none) : c.seatAnswers t p = c.cleared t p := by
  unfold seatAnswers
  rw [(cleared_heard c t p).bindings.seatAt t p, at_]

theorem seatAnswers_heard (c : Claim) (t : TrunkNo) (p : Nat) : c.Heard (c.seatAnswers t p) t := by
  cases at_ : c.st.seatAt t p with
  | none =>
    rw [seatAnswers_unbound at_]
    exact cleared_heard c t p
  | some n =>
    rw [seatAnswers_bound at_]
    exact (cleared_heard c t p).trans (.becomePresent (((cleared_heard c t p).bindings.seatAt t p).trans at_))

theorem seatAnswers_trunk (c : Claim) (t : TrunkNo) (p : Nat) : (c.seatAnswers t p).st.trunk t =
    { (c.cleared t p).st.trunk t with pending := ((c.seatAnswers t p).st.trunk t).pending } := by
  cases at_ : c.st.seatAt t p with
  | none => rw [seatAnswers_unbound at_]
  | some n =>
    rw [seatAnswers_bound at_]
    exact becomePresent_trunk (((cleared_heard c t p).bindings.seatAt t p).trans at_)

theorem compared_heard (c : Claim) (t : TrunkNo) (x : Transaction) (r : StatusReport) : c.Heard (c.compared t x r) t :=
  ((seatAnswers_heard c t x.position).trans (.recordKind _ t _ r)).trans (.checkMic _ t _ _ _)

theorem recordKind_trunk (c : Claim) (t : TrunkNo) (p : Nat) (r : StatusReport) : (c.recordKind t p r).st.trunk t = c.st.trunk t :=
  congrArg (fun v : Vector TrunkEngine 4 => v[t]) (State.recordKind_eq c t p r).1

theorem compared_trunk (h : (c.st.trunk t).state = .running ∨ (c.st.trunk t).state = .fault) (low : 1 ≤ x.position) (high : x.position ≤ 120) :
    (c.compared t x r).st.trunk t = { c.st.trunk t with
        state := .running, sweepHeard := true, positions := ((c.compared t x r).st.trunk t).positions
        pending := ((c.seatAnswers t x.position).st.trunk t).pending } ∧
      ((c.compared t x r).st.trunk t).station x.position =
        ⟨((c.st.trunk t).station x.position).toggle, 0, decide (x.micOpen ≠ r.micOpen)⟩ := by
  obtain ⟨trunk, station⟩ := checkMic_trunk (c := (c.seatAnswers t x.position).recordKind t x.position r) (t := t) (x := x.micOpen)
    (y := r.micOpen) low high
  obtain ⟨trunk', station'⟩ := cleared_trunk h low high
  have answered := seatAnswers_trunk c t x.position
  rw [recordKind_trunk] at trunk station
  constructor
  · refine trunk.trans ?_
    conv_lhs => rw [answered, trunk']
    rfl
  · refine station.trans ?_
    rw [answered]
    show { ((c.cleared t x.position).st.trunk t).station x.position with mismatch := decide (x.micOpen ≠ r.micOpen) } = _
    rw [station']

/-- What a valid answer leaves of the trunk. -/
theorem takeStatus_trunk (h : (c.st.trunk t).state = .running ∨ (c.st.trunk t).state = .fault) (low : 1 ≤ x.position) (high : x.position ≤ 120) :
    (c.takeStatus t x r).st.trunk t = { c.st.trunk t with
        state := .running, sweepHeard := true, positions := ((c.takeStatus t x r).st.trunk t).positions
        fifo := ((c.takeStatus t x r).st.trunk t).fifo, pending := ((c.seatAnswers t x.position).st.trunk t).pending } ∧
      ∃ toggle, ((c.takeStatus t x r).st.trunk t).station x.position = ⟨toggle, 0, decide (x.micOpen ≠ r.micOpen)⟩ ∧
        (((c.st.trunk t).station x.position).miss = 3 → toggle = r.toggle ∧ ((c.takeStatus t x r).st.trunk t).fifo = (c.st.trunk t).fifo) := by
  obtain ⟨trunk, station⟩ := compared_trunk (r := r) h low high
  by_cases lost : ((c.st.trunk t).station x.position).miss = 3
  · rw [takeStatus_lost lost, modTrunk_trunk, TrunkEngine.station_modStation_self _ low high, station]
    refine ⟨?_, _, rfl, fun _ => ⟨rfl, ?_⟩⟩
    · have kept (e : TrunkEngine) (f : PositionState → PositionState) : e.modStation x.position f = { e with
          positions := (e.modStation x.position f).positions, fifo := (e.modStation x.position f).fifo } := by
        unfold TrunkEngine.modStation
        split <;> rfl
      conv_lhs => rw [kept, trunk]
      rw [trunk]
    · rw [TrunkEngine.modStation_rest, trunk]
  · rw [takeStatus_known lost]
    obtain ⟨trunk', toggle, station'⟩ := takeReport_trunk (c := c.compared t x r) (r := r) (t := t) low high
    refine ⟨?_, toggle, ?_, fun h => absurd h lost⟩
    · conv_lhs => rw [trunk', trunk]
    · rw [station', station]

theorem takeStatus_heard (c : Claim) (t : TrunkNo) (x : Transaction) (r : StatusReport) : c.Heard (c.takeStatus t x r) t := by
  by_cases lost : ((c.st.trunk t).station x.position).miss = 3
  · rw [takeStatus_lost lost]
    exact (compared_heard c t x r).trans (.modStation _ t _ _)
  · rw [takeStatus_known lost]
    exact (compared_heard c t x r).trans (.takeReport _ t _ r)

theorem takeStatus_seats (c : Claim) (t : TrunkNo) (x : Transaction) (r : StatusReport) :
    (c.takeStatus t x r).st.seats = (c.compared t x r).st.seats := by
  by_cases lost : ((c.st.trunk t).station x.position).miss = 3
  · rw [takeStatus_lost lost]
    rfl
  · rw [takeStatus_known lost]
    exact takeReport_seats _ _ _ _

theorem takeStatus_afterCompared (c : Claim) (t : TrunkNo) (x : Transaction) (r : StatusReport) :
    (c.compared t x r).SameDue (c.takeStatus t x r) := by
  by_cases lost : ((c.st.trunk t).station x.position).miss = 3
  · rw [takeStatus_lost lost]
    exact ⟨rfl, rfl⟩
  · rw [takeStatus_known lost]
    exact takeReport_same _ _ _ _

theorem recordKind_same (c : Claim) (t : TrunkNo) (p : Nat) (r : StatusReport) : c.SameDue (c.recordKind t p r) := by
  unfold recordKind
  split
  · exact ⟨rfl, rfl⟩
  · exact .refl c

theorem compared_same (c : Claim) (t : TrunkNo) (x : Transaction) (r : StatusReport) :
    (c.seatAnswers t x.position).SameDue (c.compared t x r) := (recordKind_same _ _ _ _).trans (checkMic_same _ _ _ _ _)

/-! ### The seat bound at the position -/

/-- The seat's record after a valid answer of its position. -/
theorem takeStatus_seat (at_ : c.st.seatAt t x.position = some n) : ∃ m, (c.takeStatus t x r).st.seat n =
    { c.st.seat n with presence := .present, kind := some r.counts.kind, micFaultMark := m } ∧
      (x.micOpen ≠ r.micOpen → ((c.st.trunk t).station x.position).mismatch = false →
        1 ≤ x.position → x.position ≤ 120 → (c.st.trunk t).state = .running ∨ (c.st.trunk t).state = .fault → m = true) := by
  obtain ⟨b, hb, -⟩ := State.binding_of_seatAt at_
  obtain ⟨low, high⟩ := State.bound_range hb
  have answered : (c.seatAnswers t x.position).st.seat n = { c.st.seat n with presence := .present } := by
    rw [seatAnswers_bound at_, becomePresent_seat (seatIndex_isSome low high), cleared_seat]
  have at3 := ((seatAnswers_heard c t x.position).bindings.seatAt t x.position).trans at_
  have kind := (State.recordKind_eq (c.seatAnswers t x.position) t x.position r).2.2.2.2.1 n at3
  have at4 := ((Heard.recordKind (c.seatAnswers t x.position) t x.position r).bindings.seatAt t x.position).trans at3
  obtain ⟨m, seat, mark⟩ := checkMic_seat (c := (c.seatAnswers t x.position).recordKind t x.position r) (t := t) (p := x.position)
    (x := x.micOpen) (y := r.micOpen) n
  refine ⟨m, ?_, fun differs new low high alive => mark differs ?_ at4⟩
  · rw [State.seat_congr (takeStatus_seats c t x r)]
    show (((c.seatAnswers t x.position).recordKind t x.position r).checkMic t x.position x.micOpen r.micOpen).st.seat n = _
    rw [seat, kind, answered]
  · rw [recordKind_trunk, seatAnswers_trunk]
    show (((c.cleared t x.position).st.trunk t).station x.position).mismatch = false
    rw [(cleared_trunk alive low high).2]
    exact new

theorem takeStatus_unboundSeats (at_ : c.st.seatAt t x.position = none) : (c.takeStatus t x r).st.seats = c.st.seats := by
  have at3 := ((seatAnswers_heard c t x.position).bindings.seatAt t x.position).trans at_
  have at4 := ((Heard.recordKind (c.seatAnswers t x.position) t x.position r).bindings.seatAt t x.position).trans at3
  have kind := (State.recordKind_eq (c.seatAnswers t x.position) t x.position r).2.2.2.2.2.1 at3
  rw [takeStatus_seats]
  refine (checkMic_unboundSeats at4).trans (kind.trans ?_)
  rw [seatAnswers_unbound at_]
  exact awake_seats c t

/-- A seat that returns is marked at its position. -/
theorem seatAnswers_marked (h : (c.st.trunk t).state = .running ∨ (c.st.trunk t).state = .fault) {p : Nat} (low : 1 ≤ p) (high : p ≤ 120)
    (at_ : c.st.seatAt t p = some n) (back : (c.st.seat n).presence = .absent ∨ (c.st.seat n).presence = .unconfirmed)
    (near : p ≤ (c.st.trunk t).found) :
    ∃ y ∈ ((c.seatAnswers t p).st.trunk t).pending, y.position = p ∧ ((c.st.seat n).label ≠ none → y.label = true) := by
  obtain ⟨b, hb, own, position⟩ := State.binding_of_seatAt at_
  rw [seatAnswers_bound at_, becomePresent_back (by rw [cleared_seat]; exact back)]
  rw [returns_trunk (c := c.cleared t p) (by rw [cleared_seat]; exact hb) own, cleared_seat, position]
  have takes : ((c.cleared t p).st.trunk t).takesMark p = true := by
    rw [(cleared_trunk h low high).1]
    exact decide_eq_true ⟨low, near⟩
  obtain ⟨y, hy, same, label⟩ := TrunkEngine.mark_entered _ p (c.st.seat n).label.isSome takes
  exact ⟨y, hy, same, fun some_ => label (Option.isSome_iff_ne_none.mpr some_)⟩

end Claim

end Sys2Proof.Machine
end

section
/-! SUPPORT and O51. The event of a valid answer in a sweep (R148 to R153). -/

namespace Sys2Proof.Machine

namespace Claim

variable {c : Claim} {t : TrunkNo} {x : Transaction} {r : StatusReport} {n : Nat} {z : State}

/-! ### What a valid answer shows -/

theorem Shows.cleared_running (h : c.Shows z) (running : (c.st.trunk t).state = .running) (p : Nat) : (c.cleared t p).Shows z := by
  unfold Claim.cleared awake
  rw [if_neg (by rw [running]; exact fun h => nomatch h)]
  exact h.modTrunk _ _

theorem Shows.cleared_fault (h : c.Shows z) (fault : (c.st.trunk t).state = .fault) (p : Nat) :
    (c.cleared t p).Shows ((z.notify ⟨.trunkState, .trunk t, some 2, [detailOf (c.st.trunk t).found, 3]⟩).raise .trunk) := by
  unfold Claim.cleared awake
  rw [if_pos fault]
  unfold setTrunkState
  dsimp only
  rw [fault]
  exact (((h.modTrunk _ _).notify _).raise .trunk).modTrunk _ _

/-- The comparison of a bound seat's answer tells the microphone's notice alone. -/
theorem Shows.compared_bound (h : (c.seatAnswers t x.position).Shows z) (at_ : c.st.seatAt t x.position = some n)
    (alive : (c.st.trunk t).state = .running ∨ (c.st.trunk t).state = .fault) (low : 1 ≤ x.position) (high : x.position ≤ 120) :
    (c.compared t x r).Shows (if x.micOpen ≠ r.micOpen ∧ ((c.st.trunk t).station x.position).mismatch = false then
      z.notify ⟨.micFault, .seat n, none, [detailCode (yesNo x.micOpen), detailCode (yesNo r.micOpen)]⟩ else z) := by
  have at3 := ((seatAnswers_heard c t x.position).bindings.seatAt t x.position).trans at_
  have heard := Heard.recordKind (c.seatAnswers t x.position) t x.position r
  have at4 := (heard.bindings.seatAt t x.position).trans at3
  have shown : ((c.seatAnswers t x.position).recordKind t x.position r).Shows z := by
    unfold recordKind
    rw [at3]
    exact h.modSeat n _
  have mismatch : ((((c.seatAnswers t x.position).recordKind t x.position r).st.trunk t).station x.position).mismatch =
      ((c.st.trunk t).station x.position).mismatch := by
    rw [recordKind_trunk, seatAnswers_trunk]
    show (((c.cleared t x.position).st.trunk t).station x.position).mismatch = _
    rw [(cleared_trunk alive low high).2]
  split
  · next differs =>
    unfold Claim.compared
    rw [checkMic_bound differs.1 (mismatch.trans differs.2) at4]
    exact ((shown.modTrunk _ _).notify _).modSeat n _
  · next quiet =>
    refine shown.checkMic_quiet ?_
    rw [mismatch]
    by_cases same : x.micOpen = r.micOpen
    · exact .inl same
    · exact .inr (by simpa [same] using quiet)

/-- What follows the comparison of a bound seat's answer tells nothing. -/
theorem Shows.takeStatus_bound (compared : (c.compared t x r).Shows z) (at_ : c.st.seatAt t x.position = some n) :
    (c.takeStatus t x r).Shows z := by
  by_cases lost : ((c.st.trunk t).station x.position).miss = 3
  · rw [takeStatus_lost lost]
    exact compared.modTrunk _ _
  · rw [takeStatus_known lost]
    have at5 := ((compared_heard c t x r).bindings.seatAt t x.position).trans at_
    by_cases new : (c.compared t x r).isNew t x.position r
    · rw [takeReport_bound new at5]
      split
      · exact (compared.modTrunk _ _).modTrunk _ _
      · exact compared
    · rw [takeReport_old new]
      exact compared

/-- The comparison of an answer of a position to which no seat is bound. -/
theorem Shows.compared_unbound (h : (c.cleared t x.position).Shows z) (at_ : c.st.seatAt t x.position = none)
    (alive : (c.st.trunk t).state = .running ∨ (c.st.trunk t).state = .fault) (low : 1 ≤ x.position) (high : x.position ≤ 120) :
    (c.compared t x r).Shows (if x.micOpen ≠ r.micOpen ∧ ((c.st.trunk t).station x.position).mismatch = false then
      z.notify ⟨.micFault, .trunk t, none, [detailOf x.position, detailCode (yesNo r.micOpen)]⟩ else z) := by
  have at3 := ((cleared_heard c t x.position).bindings.seatAt t x.position).trans at_
  have same : (c.seatAnswers t x.position).recordKind t x.position r = c.cleared t x.position := by
    rw [seatAnswers_unbound at_]
    unfold recordKind
    rw [at3]
  have mismatch : (((c.cleared t x.position).st.trunk t).station x.position).mismatch = ((c.st.trunk t).station x.position).mismatch := by
    rw [(cleared_trunk alive low high).2]
  unfold Claim.compared
  rw [same]
  split
  · next differs =>
    rw [checkMic_unbound differs.1 (mismatch.trans differs.2) at3]
    exact (h.modTrunk _ _).notify _
  · next quiet =>
    refine h.checkMic_quiet ?_
    rw [mismatch]
    by_cases same : x.micOpen = r.micOpen
    · exact .inl same
    · exact .inr (by simpa [same] using quiet)

/-- A report is new for the answer as it is for the state before. -/
theorem isNew_compared (alive : (c.st.trunk t).state = .running ∨ (c.st.trunk t).state = .fault) (low : 1 ≤ x.position)
    (high : x.position ≤ 120) : (c.compared t x r).isNew t x.position r ↔ c.isNew t x.position r := by
  unfold isNew
  rw [(compared_trunk alive low high).2]

end Claim

namespace State

variable {s : State} {tr : TrunkNo} {m : Nat} {x : Transaction} {r : StatusReport}

/-- The moment an answer is complete, the transaction ended (R136, R187). -/
def answeredAt (s : State) (tr : TrunkNo) (m : Nat) : State :=
  (s.reachMoment (s.answerAt tr m)).modTrunk tr fun e => { e with inFlight := none }

theorem answeredAt_trunk (s : State) (tr : TrunkNo) (m : Nat) : (s.answeredAt tr m).trunk tr = { s.trunk tr with inFlight := none } :=
  trunk_modTrunk_self _ _ _

/-- The row of a valid answer: its event, then what the end of the transaction makes of the sweep. -/
theorem exec_statusAnswer {bytes : List Byte} (flying : (s.trunk tr).inFlight = some x) (sweep : x.isProbe = false)
    (timely : s.answerAt tr m ≤ x.answerBy) (valid : classifyAnswer x.position bytes = .valid r) :
    exec (.statusAnswer tr bytes m) s = .next (((s.answeredAt tr m).event (·.takeStatus tr x r)).afterTransaction tr) := by
  have answered : s.answered tr m (!·.isProbe) = some x := by
    unfold State.answered
    rw [flying]
    simp [timely, sweep]
  show execStatusAnswer tr bytes m s = _
  unfold execStatusAnswer
  rw [answered]
  dsimp only
  rw [valid]
  rfl

/-- The trunk, the floor, the seats and the reports after a valid answer. -/
structure StatusTaken (s t : State) (tr : TrunkNo) (m : Nat) (x : Transaction) (r : StatusReport) : Prop where
  trunk : t.trunk tr = { s.trunk tr with
    inFlight := none, state := .running, sweepHeard := true, plan := (s.trunk tr).planAfter
    positions := (((Claim.start (s.answeredAt tr m)).takeStatus tr x r).st.trunk tr).positions
    fifo := (((Claim.start (s.answeredAt tr m)).takeStatus tr x r).st.trunk tr).fifo, pending := (t.trunk tr).pending }
  marked : ∀ y ∈ (((Claim.start (s.answeredAt tr m)).seatAnswers tr x.position).st.trunk tr).pending,
    ∃ z ∈ (t.trunk tr).pending, z.position = y.position ∧ (y.label = true → z.label = true)
  floor : t.floor = ((s.answeredAt tr m).event (·.takeStatus tr x r)).floor
  report : t.report = ((s.answeredAt tr m).event (·.takeStatus tr x r)).report
  seats : t.seats = ((s.answeredAt tr m).event (·.takeStatus tr x r)).seats

theorem statusTaken (alive : (s.trunk tr).state = .running ∨ (s.trunk tr).state = .fault) (low : 1 ≤ x.position) (high : x.position ≤ 120)
    (plan : ∀ next, (s.trunk tr).plan ≠ .probing next) :
    s.StatusTaken (((s.answeredAt tr m).event (·.takeStatus tr x r)).afterTransaction tr) tr m x r := by
  have alive' : ((Claim.start (s.answeredAt tr m)).st.trunk tr).state = .running ∨
      ((Claim.start (s.answeredAt tr m)).st.trunk tr).state = .fault := by
    rw [show (Claim.start (s.answeredAt tr m)).st.trunk tr = _ from s.answeredAt_trunk tr m]
    exact alive
  obtain ⟨body, -⟩ := Claim.takeStatus_trunk (r := r) alive' low high
  have after := (s.answeredAt tr m).event_after (·.takeStatus tr x r)
  have trunk := after.trunks tr
  have kept := after.marksKept tr
  rw [body] at trunk kept
  rw [show (Claim.start (s.answeredAt tr m)).st.trunk tr = _ from s.answeredAt_trunk tr m] at trunk
  have swept := swept_afterTransaction (s := (s.answeredAt tr m).event (·.takeStatus tr x r)) (tr := tr) (by rw [trunk]; exact plan)
  have loud : ¬ (((s.answeredAt tr m).event (·.takeStatus tr x r)).trunk tr).Silent := by
    rintro ⟨-, -, unheard⟩
    rw [trunk] at unheard
    exact nomatch unheard
  obtain ⟨state, report⟩ := swept.quiet loud
  have pending : ((((s.answeredAt tr m).event (·.takeStatus tr x r)).afterTransaction tr).trunk tr).pending =
      (((s.answeredAt tr m).event (·.takeStatus tr x r)).trunk tr).pending := by rw [swept.rest]
  refine ⟨?_, fun y hy => ?_, swept.floor, report, swept.seats⟩
  · conv_lhs => rw [swept.rest, swept.plan, state, trunk]
    rw [pending]
    rfl
  · rw [pending]
    exact kept y hy

/-- An event after which nothing follows leaves what its body shows, where the request list is kept. -/
theorem event_told {body : Claim → Claim} {z : State} (shown : (body (.start s)).Shows z) (requests : z.floor.requests = s.floor.requests)
    (took : (body (.start s)).tookEntry = false) (quiet : (Claim.start s).SameDue (body (.start s)) ∨ (body (.start s)).st.noFill) :
    (s.event body).floor = z.floor ∧ (s.event body).report = z.report := by
  have kept : z.counted (s.versionDue (body (.start s))) = z := by
    rw [versionDue_kept shown requests took]
    rfl
  rcases quiet with due | noFill
  · have told := event_undue shown due
    rwa [kept] at told
  · have told := event_shown shown (Claim.settleFloor_noFill _ noFill)
    rwa [kept] at told

/-- The parts of the statement for a bound seat: what its event tells. -/
theorem status_bound {n : Nat} (alive : (s.trunk tr).state = .running ∨ (s.trunk tr).state = .fault) (low : 1 ≤ x.position)
    (high : x.position ≤ 120) (at_ : s.seatAt tr x.position = some n) {z : State}
    (answers : ((Claim.start (s.answeredAt tr m)).seatAnswers tr x.position).Shows z) (floor : z.floor = s.floor)
    (quiet : (Claim.start (s.answeredAt tr m)).SameDue ((Claim.start (s.answeredAt tr m)).seatAnswers tr x.position) ∨ s.noFill) :
    ((s.answeredAt tr m).event (·.takeStatus tr x r)).floor = s.floor ∧ ((s.answeredAt tr m).event (·.takeStatus tr x r)).report =
      if x.micOpen ≠ r.micOpen ∧ ((s.trunk tr).station x.position).mismatch = false then
        (z.notify ⟨.micFault, .seat n, none, [detailCode (yesNo x.micOpen), detailCode (yesNo r.micOpen)]⟩).report else z.report := by
  have trunk : (Claim.start (s.answeredAt tr m)).st.trunk tr = { s.trunk tr with inFlight := none } := s.answeredAt_trunk tr m
  have shown := (answers.compared_bound (r := r) at_ (by rw [trunk]; exact alive) low high).takeStatus_bound at_
  rw [trunk] at shown
  have heard := Claim.takeStatus_heard (.start (s.answeredAt tr m)) tr x r
  have after := ((Claim.compared_same (.start (s.answeredAt tr m)) tr x r).trans (Claim.takeStatus_afterCompared _ tr x r))
  have still : (Claim.start (s.answeredAt tr m)).SameDue ((Claim.start (s.answeredAt tr m)).takeStatus tr x r) ∨
      ((Claim.start (s.answeredAt tr m)).takeStatus tr x r).st.noFill := by
    refine quiet.imp (fun due => due.trans after) fun noFill => ?_
    exact noFill_congr noFill (congrArg Floor.phase heard.floor) (congrArg Floor.policy heard.floor)
  change _ ∧ _ = ite (x.micOpen ≠ r.micOpen ∧ ((s.trunk tr).station x.position).mismatch = false) _ _
  change Claim.Shows _ (ite (x.micOpen ≠ r.micOpen ∧ ((s.trunk tr).station x.position).mismatch = false) _ _) at shown
  split
  · next told =>
    rw [if_pos told] at shown
    obtain ⟨one, two⟩ := event_told (body := (·.takeStatus tr x r)) shown (congrArg Floor.requests floor) heard.took still
    exact ⟨one.trans floor, two⟩
  · next told =>
    rw [if_neg told] at shown
    obtain ⟨one, two⟩ := event_told (body := (·.takeStatus tr x r)) shown (congrArg Floor.requests floor) heard.took still
    exact ⟨one.trans floor, two⟩

end State

end Sys2Proof.Machine
end

section
/-! O51. Valid answers of the sweeps. -/

namespace Sys2Proof.Machine

namespace Claim

variable {c : Claim} {t : TrunkNo} {x : Transaction} {r : StatusReport}

theorem cleared_same (c : Claim) (t : TrunkNo) (p : Nat) : c.SameDue (c.cleared t p) :=
  (awake_same c t).trans (d := c.awake t) ⟨rfl, rfl⟩

theorem takeStatus_answered (c : Claim) (t : TrunkNo) (x : Transaction) (r : StatusReport) :
    (c.seatAnswers t x.position).Heard (c.takeStatus t x r) t := by
  have compared : (c.seatAnswers t x.position).Heard (c.compared t x r) t := (Heard.recordKind _ t _ r).trans (.checkMic _ t _ _ _)
  by_cases lost : ((c.st.trunk t).station x.position).miss = 3
  · rw [takeStatus_lost lost]
    exact compared.trans (.modStation _ t _ _)
  · rw [takeStatus_known lost]
    exact compared.trans (.takeReport _ t _ r)

/-- An old report is told of nowhere. -/
theorem Shows.takeStatus_old {z : State} (compared : (c.compared t x r).Shows z)
    (alive : (c.st.trunk t).state = .running ∨ (c.st.trunk t).state = .fault) (low : 1 ≤ x.position) (high : x.position ≤ 120)
    (old : ¬ c.isNew t x.position r) : (c.takeStatus t x r).Shows z := by
  by_cases lost : ((c.st.trunk t).station x.position).miss = 3
  · rw [takeStatus_lost lost]
    exact compared.modTrunk _ _
  · rw [takeStatus_known lost, takeReport_old ((isNew_compared alive low high).not.mpr old)]
    exact compared

/-- A FAULT trunk heard from raises the TRUNK flag. -/
theorem takeStatus_flagged_trunk (fault : (c.st.trunk t).state = .fault) (l : Link) : (c.takeStatus t x r).st.flagged l .trunk := by
  have cleared : (c.cleared t x.position).st.flagged l .trunk := by
    unfold Claim.cleared awake
    rw [if_pos fault]
    exact setTrunkState_flagged c t .running l
  refine State.flagged_of_grown (takeStatus_answered c t x r).grown (State.flagged_of_grown ?_ cleared)
  cases at_ : c.st.seatAt t x.position with
  | none =>
    rw [seatAnswers_unbound at_]
    exact .refl _
  | some n =>
    rw [seatAnswers_bound at_]
    exact (Heard.becomePresent (((cleared_heard c t x.position).bindings.seatAt t x.position).trans at_)).grown

/-- A seat that returns raises the PRESENCE flag. -/
theorem takeStatus_flagged_presence {n : Nat} (at_ : c.st.seatAt t x.position = some n)
    (back : (c.st.seat n).presence = .absent ∨ (c.st.seat n).presence = .unconfirmed) (l : Link) :
    (c.takeStatus t x r).st.flagged l .presence := by
  have shown := (Shows.self (c.cleared t x.position)).becomePresent_back (n := n) (by rw [cleared_seat]; exact back)
  rw [← seatAnswers_bound at_] at shown
  exact State.flagged_of_grown (takeStatus_answered c t x r).grown ((State.flagged_congr shown.report l .presence).mpr (State.flagged_raise _ l _))

/-- No part of an answer of a position without a seat notes an image. -/
theorem takeStatus_touched (at_ : c.st.seatAt t x.position = none) : (c.takeStatus t x r).touched = c.touched := by
  have cleared : (c.cleared t x.position).touched = c.touched := by
    unfold Claim.cleared awake
    split <;> rfl
  have at3 := ((cleared_heard c t x.position).bindings.seatAt t x.position).trans at_
  have compared : (c.compared t x r).touched = c.touched := by
    have same : (c.seatAnswers t x.position).recordKind t x.position r = c.cleared t x.position := by
      rw [seatAnswers_unbound at_]
      unfold recordKind
      rw [at3]
    unfold Claim.compared
    rw [same, ← cleared]
    unfold checkMic
    dsimp only
    rw [at3]
    split
    · rfl
    · split <;> rfl
  by_cases lost : ((c.st.trunk t).station x.position).miss = 3
  · rw [takeStatus_lost lost]
    exact compared
  · rw [takeStatus_known lost, ← compared]
    unfold takeReport
    dsimp only
    rw [((compared_heard c t x r).bindings.seatAt t x.position).trans at_]
    split <;> rfl

end Claim

namespace State

variable {s : State} {tr : TrunkNo} {m : Nat} {x : Transaction} {r : StatusReport}

/-- The event of an answer of a position without a seat is its body. -/
theorem status_unbound (at_ : s.seatAt tr x.position = none) : (s.answeredAt tr m).event (·.takeStatus tr x r) =
    ((Claim.start (s.answeredAt tr m)).takeStatus tr x r).st := by
  have heard := Claim.takeStatus_heard (.start (s.answeredAt tr m)) tr x r
  have answers : (Claim.start (s.answeredAt tr m)).SameDue ((Claim.start (s.answeredAt tr m)).seatAnswers tr x.position) := by
    rw [Claim.seatAnswers_unbound (c := .start (s.answeredAt tr m)) at_]
    exact Claim.cleared_same _ tr x.position
  have due := answers.trans ((Claim.compared_same (.start (s.answeredAt tr m)) tr x r).trans (Claim.takeStatus_afterCompared _ tr x r))
  exact event_of_still (body := (·.takeStatus tr x r)) due (congrArg Floor.requests heard.floor) heard.took
    (Claim.takeStatus_touched (c := .start (s.answeredAt tr m)) at_)

end State

/-- Settles O51: a valid answer's event, in the parts of R148, and the end of its transaction. -/
theorem statusAnswer : Obligations.StatusAnswer := by
  unfold Obligations.StatusAnswer
  refine ⟨fun tr bytes m x r n s flying sweep timely low high valid running plan at_ present few mic => ?_,
    fun tr bytes m x r s flying sweep timely low high valid alive plan => ?_⟩
  · have alive : (s.trunk tr).state = .running ∨ (s.trunk tr).state = .fault := .inl running
    have taken := s.statusTaken (m := m) (r := r) alive low high plan
    have step := State.exec_statusAnswer flying sweep timely valid
    let c : Claim := .start (s.answeredAt tr m)
    have trunk : c.st.trunk tr = { s.trunk tr with inFlight := none } := s.answeredAt_trunk tr m
    have notLost : ((c.st.trunk tr).station x.position).miss ≠ 3 := by
      rw [trunk]
      show ((s.trunk tr).station x.position).miss ≠ 3
      omega
    have aliveC : (c.st.trunk tr).state = .running ∨ (c.st.trunk tr).state = .fault := by
      rw [trunk]
      exact alive
    have shownC : c.Shows s := ⟨rfl, rfl, rfl⟩
    have cleared : (c.cleared tr x.position).Shows s := shownC.cleared_running (by rw [trunk]; exact running) x.position
    have presentC : ((c.cleared tr x.position).st.seat n).presence = .present ∨ ((c.cleared tr x.position).st.seat n).presence = .fading := by
      rw [Claim.cleared_seat]
      exact .inl present
    have back := cleared.becomePresent_here presentC
    rw [← Claim.seatAnswers_bound (c := c) at_] at back
    obtain ⟨answers, due⟩ := back
    have due' : c.SameDue (c.seatAnswers tr x.position) := (Claim.cleared_same c tr x.position).trans due
    obtain ⟨floor, report⟩ := State.status_bound (r := r) alive low high at_ answers rfl (.inl due')
    rw [if_neg fun h => h.1 mic] at report
    obtain ⟨mark, seat, -⟩ := Claim.takeStatus_seat (c := c) (r := r) at_
    obtain ⟨compared, station⟩ := Claim.compared_trunk (c := c) (r := r) aliveC low high
    have isNew : (c.compared tr x r).isNew tr x.position r ↔
        r.counts.isZero = false ∧ r.toggle = ((s.trunk tr).station x.position).toggle := by
      rw [Claim.isNew_compared aliveC low high]
      unfold Claim.isNew
      rw [trunk]
      rfl
    have at5 : (c.compared tr x r).st.seatAt tr x.position = some n :=
      ((Claim.compared_heard c tr x r).bindings.seatAt tr x.position).trans at_
    have station' : ((c.compared tr x r).st.trunk tr).station x.position = ⟨((s.trunk tr).station x.position).toggle, 0, false⟩ := by
      rw [station, trunk]
      simp only [ne_eq, mic, not_true_eq_false, decide_false]
      rfl
    have fifo : ((c.compared tr x r).st.trunk tr).fifo = (s.trunk tr).fifo := by rw [compared, trunk]
    have shown := answers.compared_bound (r := r) at_ aliveC low high
    rw [if_neg fun h => h.1 mic] at shown
    have time : (c.compared tr x r).time = s.time := shown.time
    refine ⟨_, step, taken.floor.trans floor, taken.report.trans report, by rw [taken.trunk], by rw [taken.trunk], ?_, by rw [taken.trunk],
      by rw [taken.trunk], fun some_ awaited room => ?_, fun none_ => ?_⟩
    · rw [State.seat_congr taken.seats, State.event_seat_granted]
      show ((c.takeStatus tr x r).st.seat n).kind = _
      rw [seat]
    · have took : c.takeStatus tr x r = ((c.compared tr x r).modTrunk tr fun e =>
          { e with fifo := e.fifo ++ [⟨tr, x.position, n, r.counts, s.time⟩] }).modTrunk tr
            (·.modStation x.position fun x => { x with toggle := !x.toggle }) := by
        rw [Claim.takeStatus_known notLost, Claim.takeReport_bound (isNew.mpr ⟨some_, awaited⟩) at5, if_pos (by rw [fifo]; exact room), time]
      have written : (c.takeStatus tr x r).st.trunk tr = ({ (c.compared tr x r).st.trunk tr with
          fifo := ((c.compared tr x r).st.trunk tr).fifo ++ [⟨tr, x.position, n, r.counts, s.time⟩] } : TrunkEngine).modStation x.position
            fun x => { x with toggle := !x.toggle } := by
        rw [took, Claim.modTrunk_trunk, Claim.modTrunk_trunk]
      rw [taken.trunk]
      show ((c.takeStatus tr x r).st.trunk tr).fifo = _ ∧ ((c.takeStatus tr x r).st.trunk tr).station x.position = _
      rw [written, TrunkEngine.station_modStation_self _ low high]
      constructor
      · rw [TrunkEngine.modStation_rest, fifo]
      · show { ((c.compared tr x r).st.trunk tr).station x.position with
          toggle := !(((c.compared tr x r).st.trunk tr).station x.position).toggle } = _
        rw [station']
    · have kept : (c.takeStatus tr x r).st.trunk tr = (c.compared tr x r).st.trunk tr := by
        rw [Claim.takeStatus_known notLost]
        by_cases new : (c.compared tr x r).isNew tr x.position r
        · obtain ⟨some_, awaited⟩ := isNew.mp new
          have full : 24 ≤ (s.trunk tr).fifo.length :=
            (none_.resolve_left (by simp [some_])).resolve_left (not_not.mpr awaited)
          rw [Claim.takeReport_bound new at5, if_neg (by rw [fifo]; omega)]
        · rw [Claim.takeReport_old new]
      rw [taken.trunk]
      show ((c.takeStatus tr x r).st.trunk tr).fifo = _ ∧ ((c.takeStatus tr x r).st.trunk tr).station x.position = _
      rw [kept]
      exact ⟨fifo, station'⟩
  · have taken := s.statusTaken (m := m) (r := r) alive low high plan
    have step := State.exec_statusAnswer flying sweep timely valid
    let c : Claim := .start (s.answeredAt tr m)
    have trunk : c.st.trunk tr = { s.trunk tr with inFlight := none } := s.answeredAt_trunk tr m
    have aliveC : (c.st.trunk tr).state = .running ∨ (c.st.trunk tr).state = .fault := by
      rw [trunk]
      exact alive
    have shownC : c.Shows s := ⟨rfl, rfl, rfl⟩
    obtain ⟨-, toggle, station, lost⟩ := Claim.takeStatus_trunk (c := c) (r := r) aliveC low high
    rw [trunk] at lost
    generalize ht : ((s.answeredAt tr m).event (·.takeStatus tr x r)).afterTransaction tr = t at step taken
    have stationT : (t.trunk tr).station x.position = ⟨toggle, 0, decide (x.micOpen ≠ r.micOpen)⟩ := by
      rw [taken.trunk]
      exact station
    have fifoT : (t.trunk tr).fifo = ((c.takeStatus tr x r).st.trunk tr).fifo := by rw [taken.trunk]
    have told {e : EventFlag} {l : Link} (h : (c.takeStatus tr x r).st.flagged l e) : t.flagged l e :=
      (State.flagged_congr taken.report l e).mpr (State.event_flagged (body := (·.takeStatus tr x r)) h)
    refine ⟨t, step, by rw [taken.trunk], by rw [taken.trunk], by rw [taken.trunk], by rw [taken.trunk], by rw [stationT],
      fun isLost => ?_, by rw [stationT], fun fault l => ?_, fun n at_ => ⟨?_, ?_, ?_, fun back => ?_, fun running here => ?_⟩,
      fun at_ running => ?_, fun at_ fault mic empty => ?_⟩
    · rw [stationT, fifoT]
      exact lost isLost
    · exact told (Claim.takeStatus_flagged_trunk (by rw [trunk]; exact fault) l)
    · rw [State.seat_congr taken.seats, State.event_seat_granted]
      obtain ⟨mark, seat, -⟩ := Claim.takeStatus_seat (c := c) (r := r) at_
      show ((c.takeStatus tr x r).st.seat n).presence = _
      rw [seat]
    · rw [State.seat_congr taken.seats, State.event_seat_granted]
      obtain ⟨mark, seat, -⟩ := Claim.takeStatus_seat (c := c) (r := r) at_
      show ((c.takeStatus tr x r).st.seat n).kind = _
      rw [seat]
    · intro differs new
      rw [State.seat_congr taken.seats, State.event_seat_granted]
      obtain ⟨mark, seat, marked⟩ := Claim.takeStatus_seat (c := c) (r := r) at_
      show ((c.takeStatus tr x r).st.seat n).micFaultMark = _
      rw [seat]
      exact marked differs (by rw [trunk]; exact new) low high aliveC
    · refine ⟨fun l => told (Claim.takeStatus_flagged_presence (c := c) at_ back l), fun near => ?_, fun running mic noFill => ?_⟩
      · obtain ⟨y, hy, position, label⟩ := Claim.seatAnswers_marked (c := c) aliveC low high at_ back (by rw [trunk]; exact near)
        obtain ⟨z, hz, position', label'⟩ := taken.marked y hy
        exact ⟨z, hz, position'.trans position, label' ∘ label⟩
      · have cleared := shownC.cleared_running (t := tr) (by rw [trunk]; exact running) x.position
        have answers := cleared.becomePresent_back (n := n) (by rw [Claim.cleared_seat]; exact back)
        rw [← Claim.seatAnswers_bound (c := c) at_] at answers
        obtain ⟨-, report⟩ := State.status_bound (r := r) alive low high at_ answers rfl (.inr noFill)
        rw [if_neg fun h => h.1 mic] at report
        exact taken.report.trans report
    · have cleared := shownC.cleared_running (t := tr) (by rw [trunk]; exact running) x.position
      have answers := cleared.becomePresent_here (n := n) (by rw [Claim.cleared_seat]; exact here)
      rw [← Claim.seatAnswers_bound (c := c) at_] at answers
      obtain ⟨shown, due⟩ := answers
      obtain ⟨-, report⟩ := State.status_bound (r := r) alive low high at_ shown rfl (.inl ((Claim.cleared_same c tr x.position).trans due))
      exact taken.report.trans report
    · have still := State.status_unbound (m := m) (r := r) at_
      have cleared := shownC.cleared_running (t := tr) (by rw [trunk]; exact running) x.position
      have compared := cleared.compared_unbound (r := r) at_ aliveC low high
      have report {z : State} (h : (c.takeStatus tr x r).Shows z) : t.report = z.report := by
        rw [taken.report, still]
        exact h.report
      obtain ⟨comparedTrunk, comparedStation⟩ := Claim.compared_trunk (c := c) (r := r) aliveC low high
      refine ⟨?_, ?_, fun mic few => ?_, fun mic empty => ?_⟩
      · rw [taken.floor, still]
        exact (Claim.takeStatus_heard c tr x r).floor
      · rw [taken.seats, still]
        exact Claim.takeStatus_unboundSeats (c := c) at_
      · rw [if_neg fun h => h.1 mic] at compared
        have notLost : ((c.st.trunk tr).station x.position).miss ≠ 3 := by
          rw [trunk]
          exact Nat.ne_of_lt few
        have known := Claim.takeStatus_known (c := c) (r := r) notLost
        have at5 : (c.compared tr x r).st.seatAt tr x.position = none :=
          ((Claim.compared_heard c tr x r).bindings.seatAt tr x.position).trans at_
        have fifo : ((c.compared tr x r).st.trunk tr).fifo = (s.trunk tr).fifo := by rw [comparedTrunk, trunk]
        have awaits : (((c.compared tr x r).st.trunk tr).station x.position).toggle = ((s.trunk tr).station x.position).toggle := by
          rw [comparedStation, trunk]
          rfl
        have station' : ((t.trunk tr).station x.position).toggle = (((c.takeStatus tr x r).st.trunk tr).station x.position).toggle := by
          rw [taken.trunk]
          rfl
        have isNew : c.isNew tr x.position r ↔ r.counts.isZero = false ∧ r.toggle = ((s.trunk tr).station x.position).toggle := by
          unfold Claim.isNew
          rw [trunk]
          rfl
        by_cases new : c.isNew tr x.position r
        · have took := known.trans (Claim.takeReport_stray ((Claim.isNew_compared aliveC low high).mpr new) at5)
          have written : (c.takeStatus tr x r).st.trunk tr = ((c.compared tr x r).st.trunk tr).modStation x.position
              fun x => { x with toggle := !x.toggle } := by
            rw [took, Claim.modTrunk_trunk, Claim.notify_trunk]
          refine ⟨?_, fun some_ awaited => ⟨report ?_, ?_⟩, fun none_ => ?_⟩
          · rw [fifoT, written, TrunkEngine.modStation_rest]
            exact fifo
          · rw [took]
            exact (compared.notify _).modTrunk _ _
          · rw [station', written, TrunkEngine.station_modStation_self _ low high, ← awaits]
          · obtain ⟨some_, awaited⟩ := isNew.mp new
            exact absurd awaited (none_.resolve_left (by simp [some_]))
        · have took := known.trans (Claim.takeReport_old ((Claim.isNew_compared aliveC low high).not.mpr new))
          refine ⟨by rw [fifoT, took, fifo], fun some_ awaited => absurd (isNew.mpr ⟨some_, awaited⟩) new, fun _ => ⟨report ?_, ?_⟩⟩
          · rw [took]
            exact compared
          · rw [station', took, awaits]
      · have shown := compared.takeStatus_old aliveC low high fun new => Bool.false_ne_true (new.1.symm.trans empty)
        rw [report shown, trunk]
        show (if x.micOpen ≠ r.micOpen ∧ ((s.trunk tr).station x.position).mismatch = false then _ else _ : State).report = _
        cases ((s.trunk tr).station x.position).mismatch with
        | true => simp
        | false => rw [if_pos ⟨mic, rfl⟩]; simp
    · have cleared := shownC.cleared_fault (t := tr) (by rw [trunk]; exact fault) x.position
      have compared := cleared.compared_unbound (r := r) at_ aliveC low high
      rw [if_neg fun h => h.1 mic] at compared
      have shown := compared.takeStatus_old aliveC low high fun new => Bool.false_ne_true (new.1.symm.trans empty)
      have report := shown.report
      rw [trunk] at report
      rw [taken.report, State.status_unbound (m := m) (r := r) at_]
      exact report

end Sys2Proof.Machine
end

section
/-! SUPPORT. The slots of a trunk's seats closed (R138, R154), and seats that are not present, to which no fill grants a slot. -/

namespace Sys2Proof.Machine

/-! ### Seats that are not present keep out of the slots -/

/-- The seat occupies no slot and is not present. -/
structure State.Vacates (s : State) (n : Nat) : Prop where
  slots : ∀ (i : Fin 6) (d : DelegateSlot), s.floor.slots[i] = some d → d.seat ≠ n
  chairs : ∀ (i : Fin 2) (d : ChairSlot), s.floor.chairs[i] = some d → d.seat ≠ n
  away : s.isHere n = false

namespace State.Vacates

variable {s t : State} {n : Nat}

/-- What an operation leaves that opens slots for other seats alone. -/
theorem of_frame (v : s.Vacates n) (frame : s.FloorFrame t) (slots : ∀ (i : Fin 6) (d : DelegateSlot), t.floor.slots[i] = some d →
    s.floor.slots[i] = some d ∨ d.seat ≠ n) (chairs : t.floor.chairs = s.floor.chairs) : t.Vacates n := by
  refine ⟨fun i d h => (slots i d h).elim (v.slots i d) id, fun i d h => v.chairs i d (chairs ▸ h), ?_⟩
  rw [Claim.isHere_of_frame frame]
  exact v.away

/-- The seat is found in no slot. -/
theorem out (v : s.Vacates n) : s.floor.slotOf n = none ∧ s.floor.chairOf n = none :=
  ⟨Floor.slotOf_eq_none.mpr v.slots, Floor.chairOf_eq_none.mpr v.chairs⟩

end State.Vacates

namespace Claim

variable {c : Claim} {m : Nat}

theorem slots_of_set {v w : Vector (Option DelegateSlot) 6} {j : Fin 6} {x : DelegateSlot} (h : w = v.set j (some x)) (i : Fin 6)
    (d : DelegateSlot) (hd : w[i] = some d) : v[i] = some d ∨ d = x := by
  rw [h] at hd
  simp only [Fin.getElem_fin, Vector.getElem_set] at hd
  split at hd
  · exact .inr (Option.some.inj hd).symm
  · exact .inl hd

theorem grantSpeak_vacates (v : c.st.Vacates m) {n : Nat} (other : n ≠ m) (o : Origin) (a : Option Nat) : (c.grantSpeak n o a).st.Vacates m := by
  cases hj : c.floor.freeSlot with
  | none =>
    unfold grantSpeak
    rw [hj]
    exact v
  | some j =>
    have floor := ((Shows.self c).grantSpeak hj n o a).floor
    refine v.of_frame (grantSpeak_frame (.refl _) n o a) (fun i d hd => ?_) ?_
    · rw [show (c.grantSpeak n o a).st.floor = _ from floor] at hd
      generalize (a <|> (c.st.floor.requestOf n).bind (·.allowance)).getD c.st.floor.policy.speakAllow = k at hd
      refine (slots_of_set (x := slotNow c.st.time c.st.floor.policy.warnLead n .speak o k) (j := j) ?_ i d hd).imp_right fun same => ?_
      · unfold State.speakEntered
        split <;> rfl
      · rw [same]
        exact other
    · rw [show (c.grantSpeak n o a).st.floor = _ from floor]
      unfold State.speakEntered
      split <;> rfl

theorem grantReply_vacates (v : c.st.Vacates m) {n : Nat} (other : n ≠ m) : (c.grantReply n).st.Vacates m := by
  cases hj : c.floor.freeSlot with
  | none =>
    unfold grantReply
    rw [hj]
    exact v
  | some j =>
    have floor := ((Shows.self c).grantReply hj n).floor
    refine v.of_frame (grantReply_frame (.refl _) n) (fun i d hd => ?_) ?_
    · rw [show (c.grantReply n).st.floor = _ from floor] at hd
      refine (slots_of_set (x := slotNow c.st.time c.st.floor.policy.warnLead n .reply .auto c.st.floor.policy.replyAllow) (j := j) rfl i d
        hd).imp_right fun same => ?_
      rw [same]
      exact other
    · rw [show (c.grantReply n).st.floor = _ from floor]
      rfl

theorem closeSlot_vacates (v : c.st.Vacates m) (i : Fin 6) (why : Reason) : (c.closeSlot i why).st.Vacates m := by
  have within := c.closeSlot_within i why
  refine ⟨fun j d h => v.slots j d (within.slots j d h), fun j d h => v.chairs j d (within.chairs j d h), ?_⟩
  rw [isHere_of_frame (closeSlot_frame (.refl _) i why)]
  exact v.away

theorem endRound_vacates (v : c.st.Vacates m) : c.endRound.st.Vacates m := by
  have floor : c.endRound.st.floor = { c.floor with subject := none, phase := .openFloor } := by
    show c.endRound.floor = _
    unfold endRound
    dsimp only
    rw [fillPoint_floor, setPhase_floor, modFloor_floor, notify_floor]
  refine v.of_frame (endRound_frame (.refl _)) (fun i d hd => .inl ?_) ?_
  · rw [floor] at hd
    exact hd
  · rw [floor]

/-- A seat found present is another. -/
theorem other_of_here (v : c.st.Vacates m) {n : Nat} (here : c.st.isHere n = true) : n ≠ m := fun same =>
  Bool.false_ne_true (v.away.symm.trans (same ▸ here))

theorem fillLoop_vacates (k : Nat) (v : c.st.Vacates m) : (fillLoop k c).st.Vacates m := by
  induction k generalizing c with
  | zero => exact v
  | succ k ih =>
    unfold fillLoop
    split
    · exact v
    · next e found =>
      have here : c.st.isHere e.seat = true := by simpa using List.find?_some found
      have other : e.seat ≠ m := other_of_here v here
      split
      · exact ih (grantSpeak_vacates v other .auto none)
      · split
        · exact v
        · next i _ =>
          have closed := closeSlot_vacates v i .evict
          dsimp only
          split
          · exact ih (grantSpeak_vacates closed other .auto none)
          · exact closed

theorem fill_vacates (v : c.st.Vacates m) : c.fill.st.Vacates m := by
  unfold fill
  split
  · exact fillLoop_vacates _ v
  · exact v

theorem serve_vacates (v : c.st.Vacates m) : c.serve.st.Vacates m := by
  unfold serve
  split
  · exact v
  · split
    · exact endRound_vacates v
    · split
      · split
        · next e found =>
          have here : c.st.isHere e.seat = true := by simpa using List.find?_some found
          exact grantReply_vacates v (other_of_here v here)
        · exact v
      · exact v

theorem settleFloor_vacates (v : c.st.Vacates m) : c.settleFloor.st.Vacates m := by
  unfold settleFloor
  dsimp only
  split
  · split
    · split
      · exact serve_vacates (fill_vacates v)
      · exact fill_vacates v
    · exact v
  · split
    · split
      · exact fill_vacates (serve_vacates v)
      · exact serve_vacates v
    · exact v
  · exact v
  · exact v

end Claim

/-- A seat that the body of an event leaves in no slot, and not present, is in no slot after the event. -/
theorem State.event_vacates {s : State} {body : Claim → Claim} {m : Nat} (v : (body (.start s)).st.Vacates m) :
    (s.event body).floor.slotOf m = none ∧ (s.event body).floor.chairOf m = none := by
  obtain ⟨floor, -⟩ := s.event_counted body (Claim.Shows.self _)
  rw [floor, State.counted_floor]
  exact (Claim.settleFloor_vacates v).out

/-! ### The slots of a trunk's seats closed -/

/-- Chair slots closed in a row, each open before (R61). -/
theorem Claim.Shows.closeChairs {c : Claim} {x : State} (h : c.Shows x) {l : List (Fin 2 × ChairSlot)} (once : (l.map (·.1)).Nodup)
    (here : ∀ y ∈ l, x.floor.chairs[y.1] = some y.2) (why : Reason) :
    ((l.map (·.1)).foldl (fun c i => c.closeChair i why) c).Shows (x.chairsClosed l (codeIn reasonRow why)) := by
  induction l generalizing c x with
  | nil => exact h
  | cons y l ih =>
    obtain ⟨new, once⟩ := List.nodup_cons.mp once
    refine ih (h.closeChair (here y (.head _)) why) once fun z hz => ?_
    have other : y.1 ≠ z.1 := fun same => new (List.mem_map.mpr ⟨z, hz, same.symm⟩)
    show (x.floor.chairs.set y.1 none)[z.1] = some z.2
    simp only [Fin.getElem_fin]
    rw [Vector.getElem_set_ne _ _ (Fin.val_ne_of_ne other)]
    exact here z (.tail _ hz)

theorem Floor.mem_openChairs {f : Floor} {i : Fin 2} {d : ChairSlot} : (i, d) ∈ f.openChairs ↔ f.chairs[i] = some d := by
  simp only [Floor.openChairs, List.mem_filterMap, Option.map_eq_some_iff, Prod.mk.injEq]
  constructor
  · rintro ⟨j, -, e, he, rfl, rfl⟩
    exact he
  · exact fun h => ⟨i, List.mem_finRange i, d, h, rfl, rfl⟩

/-- The places of the open chair slots of which p holds. -/
theorem Floor.openChairs_places (f : Floor) (p : ChairSlot → Bool) :
    (f.openChairs.filter fun x => p x.2).map (·.1) = chairPlaces.filter fun i => f.chairs[i].any p := by
  unfold Floor.openChairs
  generalize chairPlaces = l
  induction l with
  | nil => rfl
  | cons i l ih =>
    rw [List.filterMap_cons, List.filter_cons]
    cases f.chairs[i] with
    | none => simpa using ih
    | some d =>
      simp only [Option.map_some, Option.any_some, List.filter_cons]
      by_cases holds : p d = true
      · rw [if_pos holds, if_pos holds, List.map_cons, ih]
      · rw [if_neg holds, if_neg holds, ih]

namespace State

variable (s : State) (tr : TrunkNo)

/-- The delegate slots of a trunk's seats, oldest first. -/
def trunkSlots : List (Fin 6 × DelegateSlot) := (s.floor.slotsByAge s.time).filter fun x => s.boundTo tr x.2.seat

/-- The chair slots of a trunk's seats. -/
def trunkChairs : List (Fin 2 × ChairSlot) := s.floor.openChairs.filter fun x => s.boundTo tr x.2.seat

theorem trunkReleased_eq : s.trunkReleased tr = ((s.slotsClosed (s.trunkSlots tr) 6).chairsClosed (s.trunkChairs tr) 6).raise .presence := rfl

theorem trunkSlots_nodup : ((s.trunkSlots tr).map (·.1)).Nodup :=
  (Claim.slotsByAge_places_nodup _ _).sublist ((List.filter_sublist).map _)

theorem trunkChairs_nodup : ((s.trunkChairs tr).map (·.1)).Nodup := by
  have all := s.floor.openChairs_places (fun d => s.boundTo tr d.seat)
  rw [show (s.trunkChairs tr).map (·.1) = _ from all]
  exact (List.nodup_finRange 2).filter _

theorem mem_trunkSlots {i : Fin 6} {d : DelegateSlot} : (i, d) ∈ s.trunkSlots tr ↔ s.floor.slots[i] = some d ∧ s.boundTo tr d.seat = true := by
  unfold trunkSlots
  rw [List.mem_filter, Floor.mem_slotsByAge]

theorem mem_trunkChairs {i : Fin 2} {d : ChairSlot} : (i, d) ∈ s.trunkChairs tr ↔ s.floor.chairs[i] = some d ∧ s.boundTo tr d.seat = true := by
  unfold trunkChairs
  rw [List.mem_filter, Floor.mem_openChairs]

/-- What closes of delegate slots leave. -/
theorem slotsClosed_rest (x : State) (l : List (Fin 6 × DelegateSlot)) (why : Byte) : (x.slotsClosed l why).floor = { x.floor with
      slots := l.foldl (fun v y => v.set y.1 none) x.floor.slots
      phase := (x.slotsClosed l why).floor.phase, subject := (x.slotsClosed l why).floor.subject } ∧
    (x.slotsClosed l why).seats = x.seats ∧ (x.slotsClosed l why).timeBase = x.timeBase := by
  induction l generalizing x with
  | nil => exact ⟨rfl, rfl, rfl⟩
  | cons y l ih =>
    obtain ⟨floor, seats, timeBase⟩ := ih (x.slotClosed y.1 y.2 why)
    have one : (x.slotClosed y.1 y.2 why).floor = { x.floor with
        slots := x.floor.slots.set y.1 none
        phase := (x.slotClosed y.1 y.2 why).floor.phase, subject := (x.slotClosed y.1 y.2 why).floor.subject } := by
      unfold slotClosed
      dsimp only
      split
      · rfl
      · split <;> rfl
    refine ⟨?_, seats.trans (by rw [slotClosed_rest]), timeBase.trans (by rw [slotClosed_rest])⟩
    have step : x.slotsClosed (y :: l) why = (x.slotClosed y.1 y.2 why).slotsClosed l why := rfl
    rw [step, List.foldl_cons]
    conv_lhs => rw [floor, one]

/-- What closes of chair slots leave. -/
theorem chairsClosed_rest (x : State) (l : List (Fin 2 × ChairSlot)) (why : Byte) : (x.chairsClosed l why).floor = { x.floor with
      chairs := l.foldl (fun v y => v.set y.1 none) x.floor.chairs } ∧ (x.chairsClosed l why).seats = x.seats ∧
      (x.chairsClosed l why).timeBase = x.timeBase := by
  induction l generalizing x with
  | nil => exact ⟨rfl, rfl, rfl⟩
  | cons y l ih =>
    obtain ⟨floor, seats, timeBase⟩ := ih (((x.notify ⟨.chairClose, .seat y.2.seat, some why, [detailOf y.1]⟩).raise .floor).modFloor fun f =>
      { f with chairs := f.chairs.set y.1 none })
    exact ⟨floor, seats, timeBase⟩

/-- Places of the chair slots emptied one after another. -/
theorem foldl_set_none_chair {l : List (Fin 2 × ChairSlot)} {v : Vector (Option ChairSlot) 2} (i : Fin 2) :
    (l.foldl (fun v y => v.set y.1 none) v)[i] = if i ∈ l.map (·.1) then none else v[i] := by
  induction l generalizing v with
  | nil => simp
  | cons y l ih =>
    rw [List.foldl_cons, ih, List.map_cons]
    simp only [Fin.getElem_fin, Vector.getElem_set, List.mem_cons, Fin.ext_iff]
    grind

/-- The floor after the closes (R138, R154): no slot of the trunk's seats is left. -/
theorem trunkReleased_floor : (s.trunkReleased tr).floor = { s.floor with
    slots := (s.trunkSlots tr).foldl (fun v y => v.set y.1 none) s.floor.slots
    chairs := (s.trunkChairs tr).foldl (fun v y => v.set y.1 none) s.floor.chairs
    phase := (s.trunkReleased tr).floor.phase, subject := (s.trunkReleased tr).floor.subject } := by
  obtain ⟨slots, -⟩ := slotsClosed_rest s (s.trunkSlots tr) 6
  obtain ⟨chairs, -⟩ := chairsClosed_rest (s.slotsClosed (s.trunkSlots tr) 6) (s.trunkChairs tr) 6
  have raised : (s.trunkReleased tr).floor = ((s.slotsClosed (s.trunkSlots tr) 6).chairsClosed (s.trunkChairs tr) 6).floor := rfl
  rw [raised]
  conv_lhs => rw [chairs, slots]
  rw [chairs, slots]

theorem trunkReleased_slots (i : Fin 6) (d : DelegateSlot) (h : (s.trunkReleased tr).floor.slots[i] = some d) :
    s.floor.slots[i] = some d ∧ s.boundTo tr d.seat = false := by
  rw [trunkReleased_floor] at h
  have emptied := h.symm.trans (foldl_set_none (l := s.trunkSlots tr) (v := s.floor.slots) i)
  split at emptied
  · exact nomatch emptied
  · next stays =>
    refine ⟨emptied.symm, Bool.eq_false_iff.mpr fun bound => stays ?_⟩
    exact List.mem_map.mpr ⟨(i, d), (s.mem_trunkSlots tr).mpr ⟨emptied.symm, bound⟩, rfl⟩

theorem trunkReleased_chairs (i : Fin 2) (d : ChairSlot) (h : (s.trunkReleased tr).floor.chairs[i] = some d) :
    s.floor.chairs[i] = some d ∧ s.boundTo tr d.seat = false := by
  rw [trunkReleased_floor] at h
  have emptied := h.symm.trans (foldl_set_none_chair (l := s.trunkChairs tr) (v := s.floor.chairs) i)
  split at emptied
  · exact nomatch emptied
  · next stays =>
    refine ⟨emptied.symm, Bool.eq_false_iff.mpr fun bound => stays ?_⟩
    exact List.mem_map.mpr ⟨(i, d), (s.mem_trunkChairs tr).mpr ⟨emptied.symm, bound⟩, rfl⟩

theorem trunkReleased_seats : (s.trunkReleased tr).seats = s.seats ∧ (s.trunkReleased tr).timeBase = s.timeBase := by
  obtain ⟨-, seats, timeBase⟩ := slotsClosed_rest s (s.trunkSlots tr) 6
  obtain ⟨-, seats', timeBase'⟩ := chairsClosed_rest (s.slotsClosed (s.trunkSlots tr) 6) (s.trunkChairs tr) 6
  exact ⟨seats'.trans seats, timeBase'.trans timeBase⟩

/-- The claim of the closes: what it shows. -/
theorem closeTrunkSlots_shows {c : Claim} (h : c.Shows s) (bindings : s.SameBindings c.st) :
    (c.closeTrunkSlots tr).Shows ((s.slotsClosed (s.trunkSlots tr) 6).chairsClosed (s.trunkChairs tr) 6) := by
  have bound (n : Nat) : (c.st.seat n).binding.any (·.trunk = tr) = s.boundTo tr n := by
    rw [bindings n]
    rfl
  have slots : ((c.floor.slotsByAge c.time).filter fun x => (c.st.seat x.2.seat).binding.any (·.trunk = tr)) = s.trunkSlots tr := by
    rw [h.floor, h.time]
    exact List.filter_congr fun x _ => bound x.2.seat
  have chairs : (chairPlaces.filter fun i => c.floor.chairs[i].any fun d => (c.st.seat d.seat).binding.any (·.trunk = tr)) =
      (s.trunkChairs tr).map (·.1) := by
    rw [h.floor]
    refine Eq.trans ?_ (s.floor.openChairs_places fun d => s.boundTo tr d.seat).symm
    simp only [bound]
  have closed := h.closeSlots (s.trunkSlots_nodup tr) (fun y hy => ((s.mem_trunkSlots tr).mp hy).1) .trunk
  have both := closed.closeChairs (s.trunkChairs_nodup tr) (fun y hy => ?_) .trunk
  · unfold Claim.closeTrunkSlots
    dsimp only
    rw [slots, chairs]
    exact both
  · rw [(slotsClosed_rest s (s.trunkSlots tr) _).1]
    exact ((s.mem_trunkChairs tr).mp hy).1

end State

end Sys2Proof.Machine
end

section
/-! SUPPORT. The event that starts enumeration (R138). -/

namespace Sys2Proof.Machine

theorem State.boundTo_iff {s : State} {tr : TrunkNo} {n : Nat} :
    s.boundTo tr n = true ↔ ∃ b, (s.seat n).binding = some b ∧ b.trunk = tr := by
  unfold State.boundTo
  simp [Option.any_eq_true]

namespace Claim

variable {c : Claim} {t : TrunkNo} {x : State}

theorem Shows.setPresences (h : c.Shows x) (ns : List Nat) (p : Presence) : (c.setPresences ns p).Shows x := by
  have walk (l : List Nat) (c : Claim) (h : c.Shows x) : (l.foldl (fun c n => c.modSeat n fun r => { r with presence := p }) c).Shows x := by
    induction l generalizing c with
    | nil => exact h
    | cons n l ih => exact ih _ (h.modSeat n _)
  exact (walk ns c h).trackHead

theorem closeTrunkSlots_seats (c : Claim) (t : TrunkNo) : (c.closeTrunkSlots t).st.seats = c.st.seats := by
  have slots (l : List (Fin 6 × DelegateSlot)) (c : Claim) : (l.foldl (fun c x => c.closeSlot x.1 .trunk) c).st.seats = c.st.seats := by
    induction l generalizing c with
    | nil => rfl
    | cons y l ih => exact (ih _).trans (closeSlot_seats c y.1 .trunk)
  have chairs (l : List (Fin 2)) (c : Claim) : (l.foldl (fun c i => c.closeChair i .trunk) c).st.seats = c.st.seats := by
    induction l generalizing c with
    | nil => rfl
    | cons i l ih => exact (ih _).trans (closeChair_seats c i .trunk)
  exact (chairs _ _).trans (slots _ _)

theorem closeTrunkSlots_tookEntry (c : Claim) (t : TrunkNo) : (c.closeTrunkSlots t).tookEntry = c.tookEntry := by
  have slots := foldl_tookEntry fun (c : Claim) (x : Fin 6 × DelegateSlot) => closeSlot_tookEntry c x.1 .trunk
  have chairs := foldl_tookEntry fun (c : Claim) (i : Fin 2) => closeChair_tookEntry c i .trunk
  exact (chairs _ _).trans (slots _ _)

theorem setPresences_tookEntry (c : Claim) (ns : List Nat) (p : Presence) : (c.setPresences ns p).tookEntry = c.tookEntry := by
  have written := foldl_tookEntry (f := fun (c : Claim) n => c.modSeat n fun r => { r with presence := p }) (fun _ _ => rfl) ns c
  unfold setPresences
  rw [trackHead_tookEntry, written]

theorem setTrunkState_tookEntry (c : Claim) (t : TrunkNo) (x : TrunkState) : (c.setTrunkState t x).tookEntry = c.tookEntry := rfl
theorem modTrunk_tookEntry (c : Claim) (t : TrunkNo) (f : TrunkEngine → TrunkEngine) : (c.modTrunk t f).tookEntry = c.tookEntry := rfl

/-- The slots of a trunk's seats closed, and the seats given a presence. -/
def trunkLeft (c : Claim) (t : TrunkNo) (p : Presence) : Claim :=
  let c1 := (c.modTrunk t TrunkEngine.abandon).closeTrunkSlots t
  (c1.setPresences ((c1.st.boundOn t).map (·.1)) p).raise .presence

theorem trunkLeft_seats (c : Claim) (t : TrunkNo) (p : Presence) {n : Nat} (known : (seatIndex n).isSome) :
    (c.trunkLeft t p).st.seat n = { c.st.seat n with presence := if c.st.boundTo t n = true then p else (c.st.seat n).presence } := by
  have seat (n : Nat) : ((c.modTrunk t TrunkEngine.abandon).closeTrunkSlots t).st.seat n = c.st.seat n :=
    State.seat_congr (closeTrunkSlots_seats (c.modTrunk t TrunkEngine.abandon) t) n
  have listed : n ∈ (((c.modTrunk t TrunkEngine.abandon).closeTrunkSlots t).st.boundOn t).map (·.1) ↔ c.st.boundTo t n = true := by
    rw [State.boundTo_iff, List.mem_map]
    constructor
    · rintro ⟨⟨m, q⟩, hm, rfl⟩
      obtain ⟨b, hb, own, -⟩ := State.mem_boundOn.mp hm
      rw [seat] at hb
      exact ⟨b, hb, own⟩
    · rintro ⟨b, hb, own⟩
      exact ⟨(n, b.position), State.mem_boundOn.mpr ⟨b, by rw [seat]; exact hb, own, rfl⟩, rfl⟩
  unfold trunkLeft
  dsimp only
  rw [raise_st, State.seat_congr (State.raise_seats _ _), setPresences_seat _ _ p known, seat]
  simp only [listed]

theorem trunkLeft_trunk (c : Claim) (t : TrunkNo) (p : Presence) : (c.trunkLeft t p).st.trunk t = (c.st.trunk t).abandon := by
  have closed : ((c.modTrunk t TrunkEngine.abandon).closeTrunkSlots t).st.trunks = (c.modTrunk t TrunkEngine.abandon).st.trunks :=
    (Floored.closeTrunkSlots _ t).trunks
  have abandoned := modTrunk_trunk c t TrunkEngine.abandon
  unfold trunkLeft
  dsimp only
  rw [raise_trunk]
  generalize (c.modTrunk t TrunkEngine.abandon).closeTrunkSlots t = d at *
  unfold State.trunk at *
  rw [(Floored.setPresences d _ p).trunks, closed, abandoned]

theorem Shows.trunkLeft {s : State} (h : c.Shows s) (bindings : s.SameBindings c.st) (p : Presence) :
    (c.trunkLeft t p).Shows (s.trunkReleased t) :=
  ((s.closeTrunkSlots_shows t (h.modTrunk _ _) bindings).setPresences _ p).raise .presence

theorem trunkLeft_tookEntry (c : Claim) (t : TrunkNo) (p : Presence) : (c.trunkLeft t p).tookEntry = c.tookEntry := by
  unfold trunkLeft
  dsimp only
  rw [raise_tookEntry, setPresences_tookEntry, closeTrunkSlots_tookEntry, modTrunk_tookEntry]

theorem trunkLeft_tells (c : Claim) (t : TrunkNo) (p : Presence) : c.Tells (c.trunkLeft t p) :=
  (Tells.modTrunk c t _).trans ((Floored.closeTrunkSlots _ t).trans ((Floored.setPresences _ _ p).trans (Floored.raise _ .presence))).toTells

theorem startEnumeration_eq (c : Claim) (t : TrunkNo) : c.startEnumeration t =
    (((c.trunkLeft t .unconfirmed).modTrunk t fun e => e.forget.takeSettings).setTrunkState t .enumerating).fillPoint := rfl

theorem disableTrunk_eq (c : Claim) (t : TrunkNo) : c.disableTrunk t =
    ((((c.trunkLeft t .absent).removeSeats (((((c.modTrunk t TrunkEngine.abandon).closeTrunkSlots t).st.boundOn t).map (·.1))) .absent).modTrunk
      t TrunkEngine.forget).setTrunkState t .down).fillPoint := rfl

/-- The report of a trunk whose found count is 0. -/
theorem Shows.setTrunkState_reset {s : State} (h : c.Shows s) (found : (c.st.trunk t).found = 0) (y : TrunkState) :
    (c.setTrunkState t y).Shows (s.trunkReported t (codeIn trunkStateRow y) (codeIn trunkStateRow (c.st.trunk t).state)) := by
  unfold setTrunkState State.trunkReported
  dsimp only
  rw [found]
  exact ((h.modTrunk _ _).notify _).raise .trunk

end Claim

namespace State

variable (s : State) (tr : TrunkNo)

/-- The trunk after the body of the start. -/
theorem start_trunk : ((Claim.start s).startEnumeration tr).st.trunk tr =
    { (s.trunk tr).abandon.forget.takeSettings with state := .enumerating } := by
  rw [Claim.startEnumeration_eq, Claim.fillPoint_trunk, Claim.setTrunkState_trunk, Claim.modTrunk_trunk, Claim.trunkLeft_trunk]

theorem start_seat {n : Nat} (known : (seatIndex n).isSome) : ((Claim.start s).startEnumeration tr).st.seat n =
    { s.seat n with presence := if s.boundTo tr n = true then .unconfirmed else (s.seat n).presence } := by
  have seats : ((Claim.start s).startEnumeration tr).st.seats = ((Claim.start s).trunkLeft tr .unconfirmed).st.seats := by
    rw [Claim.startEnumeration_eq, Claim.fillPoint_seats, Claim.setTrunkState_seats, Claim.modTrunk_seats]
  rw [seat_congr seats, Claim.trunkLeft_seats _ _ _ known]

theorem start_shows : ((Claim.start s).startEnumeration tr).Shows
    ((s.trunkReleased tr).trunkReported tr 1 (codeIn trunkStateRow (s.trunk tr).state)) := by
  have left := (Claim.Shows.start s).trunkLeft (t := tr) (.refl s) .unconfirmed
  have reset : (((Claim.start s).trunkLeft tr .unconfirmed).modTrunk tr fun e => e.forget.takeSettings).st.trunk tr =
      (s.trunk tr).abandon.forget.takeSettings := by
    rw [Claim.modTrunk_trunk, Claim.trunkLeft_trunk]
  have told := (left.modTrunk tr fun e => e.forget.takeSettings).setTrunkState_reset (by rw [reset]; rfl) .enumerating
  rw [reset] at told
  rw [Claim.startEnumeration_eq]
  exact told.fillPoint

theorem start_tells : (Claim.start s).Tells ((Claim.start s).startEnumeration tr) := .startEnumeration _ tr

/-- The trunk's seats keep out of the slots. -/
theorem start_vacates {n : Nat} (bound : s.boundTo tr n = true) : ((Claim.start s).startEnumeration tr).st.Vacates n := by
  obtain ⟨b, hb, -⟩ := boundTo_iff.mp bound
  obtain ⟨low, high⟩ := bound_range hb
  have floor : ((Claim.start s).startEnumeration tr).st.floor = (s.trunkReleased tr).floor := (s.start_shows tr).floor
  refine ⟨fun i d hd same => ?_, fun i d hd same => ?_, ?_⟩
  · rw [floor] at hd
    have other := (s.trunkReleased_slots tr i d hd).2
    rw [same, bound] at other
    exact nomatch other
  · rw [floor] at hd
    have other := (s.trunkReleased_chairs tr i d hd).2
    rw [same, bound] at other
    exact nomatch other
  · unfold isHere
    rw [start_seat s tr (seatIndex_isSome low high), bound]
    rfl

/-- The floor and the reports after the start. -/
theorem start_settles : State.Settles { (s.trunkReleased tr).trunkReported tr 1 (codeIn trunkStateRow (s.trunk tr).state) with
    seats := (s.event (·.startEnumeration tr)).seats } (s.event (·.startEnumeration tr)) := by
  have shown := s.start_shows tr
  have took : ((Claim.start s).startEnumeration tr).tookEntry = false := by
    rw [Claim.startEnumeration_eq, Claim.fillPoint_tookEntry, Claim.setTrunkState_tookEntry, Claim.modTrunk_tookEntry,
      Claim.trunkLeft_tookEntry]
  have requests : (s.trunkReleased tr).floor.requests = s.floor.requests := by rw [trunkReleased_floor]
  have kept := versionDue_kept (s := s) shown requests took
  have shown' : ((Claim.start s).startEnumeration tr).Shows { (s.trunkReleased tr).trunkReported tr 1 (codeIn trunkStateRow (s.trunk tr).state) with
      seats := (s.event (·.startEnumeration tr)).seats } := ⟨shown.floor, shown.report, shown.time⟩
  have settles := event_settles (body := (·.startEnumeration tr)) shown' (fun _ => rfl) (fun _ => .inl rfl) ?_
  · rw [kept] at settles
    exact settles
  · refine firstPresentReply_congr (congrArg Floor.replies shown.floor) fun n => ?_
    exact (s.event_isHere (·.startEnumeration tr) n).symm

end State

end Sys2Proof.Machine
end

section
/-! SUPPORT. The event of TRUNK CONTROL DISABLE (R154). -/

namespace Sys2Proof.Machine

/-! ### Reports and floors apart -/

/-- The floor that follows an event rests on the floor, chamber time and the first present reply entry (R50, R92). -/
theorem State.settled_floor {x z : State} (floor : z.floor = x.floor) (time : z.time = x.time)
    (here : z.firstPresentReply = x.firstPresentReply) : z.settled.map (·.floor) = x.settled.map (·.floor) := by
  have granted (j : Fin 6) (n : Nat) : (z.replyGranted j n).floor = (x.replyGranted j n).floor := by
    have shape (y : State) : (y.replyGranted j n).floor = { y.floor with
        slots := y.floor.slots.set j (some (slotNow y.time y.floor.policy.warnLead n .reply .auto y.floor.policy.replyAllow))
        replies := y.floor.replies.filter (·.seat ≠ n) } := rfl
    rw [shape, shape, floor, time]
  have ended : z.roundEnded.floor = x.roundEnded.floor := by
    have shape (y : State) : y.roundEnded.floor = { y.floor with phase := .openFloor, subject := none } := rfl
    rw [shape, shape, floor]
  unfold State.settled
  rw [floor, here]
  split
  all_goals try (simp only [Option.map_some, floor])
  · split <;> simp [floor]
  · split
    · simp [floor]
    · split
      · split <;> simp [ended]
      · split
        · split
          · simp [granted]
          · simp [floor]
        · simp [floor]

namespace Claim

variable {c : Claim}

/-! ### Seats that leave the lists and the frames alone -/

/-- The reply entries of these seats leave. -/
theorem dropReplies_floor (c : Claim) (ns : List Nat) (why : Reason) :
    (c.dropReplies ns why).floor = { c.floor with replies := c.floor.replies.filter fun e => e.seat ∉ ns } := by
  have walk (l : List Nat) (c : Claim) : (l.foldl (fun c n => c.dropReply n why) c).floor =
      { c.floor with replies := c.floor.replies.filter fun e => e.seat ∉ l } := by
    induction l generalizing c with
    | nil => simp
    | cons n l ih =>
      rw [List.foldl_cons, ih, dropReply_floor]
      simp only [List.filter_filter, List.mem_cons]
      congr 2
      funext e
      by_cases own : e.seat = n <;> simp [own]
  unfold dropReplies
  rw [walk]
  have same : (c.floor.replies.filter fun e => e.seat ∉ (c.floor.replies.map (·.seat)).filter (· ∈ ns)) =
      c.floor.replies.filter fun e => e.seat ∉ ns := by
    refine List.filter_congr fun e he => ?_
    simp only [List.mem_filter, List.mem_map]
    by_cases hn : e.seat ∈ ns
    · simp [hn]
      exact ⟨e, he, rfl⟩
    · simp [hn]
  rw [same]

/-- A seat in no slot leaves the lists and the frames. -/
theorem removeSeat_floor {n : Nat} (why : Reason) (slot : c.floor.slotOf n = none) (chair : c.floor.chairOf n = none) :
    (c.removeSeat n why).floor = { c.floor with
      requests := c.floor.requests.filter (·.seat ≠ n), replies := c.floor.replies.filter (·.seat ≠ n)
      stack := c.floor.stack.map fun fr => { fr with
        records := fr.records.filter (·.seat ≠ n), entries := fr.entries.filter (·.seat ≠ n) } } := by
  have lists : ((c.dequeue n why).dropReply n why).floor = { c.floor with
      requests := c.floor.requests.filter (·.seat ≠ n), replies := c.floor.replies.filter (·.seat ≠ n) } := by
    rw [dropReply_floor, dequeue_floor]
  have noSlot : ((c.dequeue n why).dropReply n why).closeSlotOf n why = (c.dequeue n why).dropReply n why := by
    unfold closeSlotOf
    rw [slotOf_removed, slot]
  have noChair : ((c.dequeue n why).dropReply n why).closeChairOf n why = (c.dequeue n why).dropReply n why := by
    have same : ((c.dequeue n why).dropReply n why).floor.chairOf n = none := by
      rw [lists]
      exact chair
    unfold closeChairOf
    rw [same]
  unfold removeSeat
  rw [noSlot, noChair, dropHeld_floor, lists]

/-- The seats of a list, in no slot, leave the lists and the frames. -/
theorem removeSeats_floor (ns : List Nat) (why : Reason)
    (out : ∀ n ∈ ns, c.floor.slotOf n = none ∧ c.floor.chairOf n = none) : (c.removeSeats ns why).floor = { c.floor with
      requests := c.floor.requests.filter fun e => e.seat ∉ ns, replies := c.floor.replies.filter fun e => e.seat ∉ ns
      stack := c.floor.stack.map fun fr => { fr with
        records := fr.records.filter fun h => h.seat ∉ ns, entries := fr.entries.filter fun e => e.seat ∉ ns } } := by
  have walk (l : List Nat) (c : Claim) (out : ∀ n ∈ l, c.floor.slotOf n = none ∧ c.floor.chairOf n = none) :
      (l.foldl (fun c n => c.removeSeat n why) c).floor = { c.floor with
        requests := c.floor.requests.filter fun e => e.seat ∉ l, replies := c.floor.replies.filter fun e => e.seat ∉ l
        stack := c.floor.stack.map fun fr => { fr with
          records := fr.records.filter fun h => h.seat ∉ l, entries := fr.entries.filter fun e => e.seat ∉ l } } := by
    induction l generalizing c with
    | nil => simp
    | cons n l ih =>
      obtain ⟨slot, chair⟩ := out n List.mem_cons_self
      have one := removeSeat_floor (c := c) why slot chair
      have later := ih (c.removeSeat n why) fun k hk => by
        rw [one]
        exact out k (List.mem_cons_of_mem _ hk)
      rw [List.foldl_cons, later, one]
      have split_ {α : Type} (g : α → Nat) (a : List α) :
          (a.filter (g · ≠ n)).filter (fun e => g e ∉ l) = a.filter fun e => g e ∉ n :: l := by
        rw [List.filter_filter]
        refine List.filter_congr fun e _ => ?_
        by_cases own : g e = n <;> simp [own]
      simp only [split_ (fun e : RequestEntry => e.seat), split_ (fun e : ReplyEntry => e.seat), List.map_map]
      congr 1
      refine List.map_congr_left fun fr _ => ?_
      simp only [Function.comp, split_ (fun e : HeldSlot => e.seat), split_ (fun e : HeldReply => e.seat)]
  unfold removeSeats
  have dropped := c.dropReplies_floor ns why
  rw [walk ns _ fun n hn => by rw [dropped]; exact out n hn, dropped]
  simp only [List.filter_filter, Bool.and_self]

/-- The seats that DISABLE removes. -/
def trunkSeats (c : Claim) (t : TrunkNo) : List Nat := (((c.modTrunk t TrunkEngine.abandon).closeTrunkSlots t).st.boundOn t).map (·.1)

theorem mem_trunkSeats (c : Claim) (t : TrunkNo) (n : Nat) : n ∈ c.trunkSeats t ↔ c.st.boundTo t n = true := by
  have seat (n : Nat) : ((c.modTrunk t TrunkEngine.abandon).closeTrunkSlots t).st.seat n = c.st.seat n :=
    State.seat_congr (closeTrunkSlots_seats (c.modTrunk t TrunkEngine.abandon) t) n
  unfold trunkSeats
  rw [State.boundTo_iff, List.mem_map]
  constructor
  · rintro ⟨⟨m, q⟩, hm, rfl⟩
    obtain ⟨b, hb, own, -⟩ := State.mem_boundOn.mp hm
    rw [seat] at hb
    exact ⟨b, hb, own⟩
  · rintro ⟨b, hb, own⟩
    exact ⟨(n, b.position), State.mem_boundOn.mpr ⟨b, by rw [seat]; exact hb, own, rfl⟩, rfl⟩

/-- The seats of the trunk are off the floor. -/
def trunkCleared (c : Claim) (t : TrunkNo) : Claim := (c.trunkLeft t .absent).removeSeats (c.trunkSeats t) .absent

theorem disableTrunk_cleared (c : Claim) (t : TrunkNo) : c.disableTrunk t =
    (((c.trunkCleared t).modTrunk t TrunkEngine.forget).setTrunkState t .down).fillPoint := rfl

end Claim

namespace State

variable (s : State) (tr : TrunkNo)

/-- The floor of a trunk's departure but for the list version (R154). -/
theorem cleared_floor : ((Claim.start s).trunkCleared tr).floor =
    { s.seatsGone tr (s.trunkReleased tr).floor with listVersion := s.floor.listVersion } := by
  have left : ((Claim.start s).trunkLeft tr .absent).floor = (s.trunkReleased tr).floor :=
    ((Claim.Shows.start s).trunkLeft (t := tr) (.refl s) .absent).floor
  have listed (n : Nat) : decide (n ∉ (Claim.start s).trunkSeats tr) = !s.boundTo tr n := by
    have member : n ∈ (Claim.start s).trunkSeats tr ↔ s.boundTo tr n = true := (Claim.start s).mem_trunkSeats tr n
    simp [member]
  unfold Claim.trunkCleared
  rw [Claim.removeSeats_floor _ _ fun n hn => ?_, left]
  · unfold State.seatsGone
    simp only [listed]
    rw [trunkReleased_floor]
  · rw [left]
    have bound : s.boundTo tr n = true := ((Claim.start s).mem_trunkSeats tr n).mp hn
    refine ⟨Floor.slotOf_eq_none.mpr fun i d hd same => ?_, Floor.chairOf_eq_none.mpr fun i d hd same => ?_⟩
    · have other := (s.trunkReleased_slots tr i d hd).2
      rw [same, bound] at other
      exact nomatch other
    · have other := (s.trunkReleased_chairs tr i d hd).2
      rw [same, bound] at other
      exact nomatch other

/-- The trunk's seats are nowhere. -/
theorem cleared_lacks {n : Nat} (bound : s.boundTo tr n = true) : ((Claim.start s).trunkCleared tr).floor.Lacks n := by
  rw [cleared_floor]
  have kept {m : Nat} (h : (!s.boundTo tr m) = true) : m ≠ n := fun same => by
    rw [same, bound] at h
    exact nomatch h
  refine ⟨fun i d hd same => ?_, fun i d hd same => ?_, fun e he => ?_, fun e he => ?_, ?_⟩
  · have other := (s.trunkReleased_slots tr i d hd).2
    rw [same, bound] at other
    exact nomatch other
  · have other := (s.trunkReleased_chairs tr i d hd).2
    rw [same, bound] at other
    exact nomatch other
  · have gone := (List.mem_filter.mp he).2
    exact kept gone
  · have gone := (List.mem_filter.mp he).2
    exact kept gone
  · rw [Bool.eq_false_iff]
    intro held
    obtain ⟨fr, hfr, holds⟩ := List.any_eq_true.mp held
    obtain ⟨gr, -, rfl⟩ := List.mem_map.mp hfr
    rw [StackFrame.holds_iff] at holds
    unfold Claim.heldSeats at holds
    rcases List.mem_append.mp holds with h | h
    · obtain ⟨a, ha, rfl⟩ := List.mem_map.mp h
      exact kept (List.mem_filter.mp ha).2 rfl
    · obtain ⟨a, ha, rfl⟩ := List.mem_map.mp h
      exact kept (List.mem_filter.mp ha).2 rfl

theorem cleared_trunk : ((Claim.start s).trunkCleared tr).st.trunk tr = (s.trunk tr).abandon := by
  have kept : ((Claim.start s).trunkCleared tr).st.trunks = ((Claim.start s).trunkLeft tr .absent).st.trunks := (Claim.Floored.removeSeats _ _ _).trunks
  have left := (Claim.start s).trunkLeft_trunk tr .absent
  unfold State.trunk at left ⊢
  rw [kept]
  exact left

theorem cleared_seat {n : Nat} (known : (seatIndex n).isSome) : ((Claim.start s).trunkCleared tr).st.seat n =
    { s.seat n with presence := if s.boundTo tr n = true then .absent else (s.seat n).presence } := by
  have seats : ((Claim.start s).trunkCleared tr).st.seats = ((Claim.start s).trunkLeft tr .absent).st.seats := Claim.removeSeats_seats _ _ _
  rw [seat_congr seats, Claim.trunkLeft_seats _ _ _ known]

/-- The trunk after the body of DISABLE. -/
theorem disable_trunk : ((Claim.start s).disableTrunk tr).st.trunk tr = { (s.trunk tr).abandon.forget with state := .down } := by
  rw [Claim.disableTrunk_cleared, Claim.fillPoint_trunk, Claim.setTrunkState_trunk, Claim.modTrunk_trunk, cleared_trunk]

theorem disable_floor : ((Claim.start s).disableTrunk tr).floor = ((Claim.start s).trunkCleared tr).floor := by
  rw [Claim.disableTrunk_cleared, Claim.fillPoint_floor, Claim.setTrunkState_floor, Claim.modTrunk_floor]

theorem disable_seats : ((Claim.start s).disableTrunk tr).st.seats = ((Claim.start s).trunkCleared tr).st.seats := by
  rw [Claim.disableTrunk_cleared, Claim.fillPoint_seats, Claim.setTrunkState_seats, Claim.modTrunk_seats]

theorem removeSeats_tookEntry (c : Claim) (ns : List Nat) (why : Reason) : (c.removeSeats ns why).tookEntry = c.tookEntry := by
  have drop := Claim.foldl_tookEntry (f := fun (c : Claim) n => c.dropReply n why) (fun c n => Claim.dropReply_tookEntry c n why)
  have remove := Claim.foldl_tookEntry (f := fun (c : Claim) n => c.removeSeat n why) (fun c n => Claim.removeSeat_tookEntry c n why)
  exact (remove _ _).trans (drop _ _)

theorem disable_tookEntry : ((Claim.start s).disableTrunk tr).tookEntry = false := by
  rw [Claim.disableTrunk_cleared, Claim.fillPoint_tookEntry, Claim.setTrunkState_tookEntry, Claim.modTrunk_tookEntry]
  unfold Claim.trunkCleared
  rw [removeSeats_tookEntry, Claim.trunkLeft_tookEntry]

/-- The version of a trunk's departure is due when one of its seats is on the request list. -/
theorem disable_version : s.versionDue ((Claim.start s).disableTrunk tr) = s.floor.requests.any fun e => s.boundTo tr e.seat := by
  unfold versionDue
  rw [disable_tookEntry, Bool.or_false, disable_floor, cleared_floor]
  have requests : (s.seatsGone tr (s.trunkReleased tr).floor).requests = s.floor.requests.filter fun e => !s.boundTo tr e.seat := by
    unfold seatsGone
    rw [trunkReleased_floor]
  show decide (s.floor.requests ≠ (s.seatsGone tr (s.trunkReleased tr).floor).requests) = _
  rw [requests, Bool.eq_iff_iff, decide_eq_true_iff, List.any_eq_true, ne_comm, ne_eq, List.filter_eq_self]
  simp

end State

end Sys2Proof.Machine
end

section
/-! SUPPORT. What TRUNK CONTROL DISABLE leaves and tells (R154). -/

namespace Sys2Proof.Machine

namespace State

variable (s : State) (tr : TrunkNo)

/-- A trunk that is DOWN takes no mark: what waits in its pending list after DISABLE is nothing. -/
theorem disable_pending : ((s.event (·.disableTrunk tr)).trunk tr).pending = [] := by
  rw [List.eq_nil_iff_forall_not_mem]
  intro x hx
  rcases event_pending hx with old | ⟨-, takes, -⟩
  · rw [show ((Claim.start s).disableTrunk tr).st.trunk tr = _ from s.disable_trunk tr] at old
    exact nomatch old
  · rw [show ((Claim.start s).disableTrunk tr).st.trunk tr = _ from s.disable_trunk tr] at takes
    exact nomatch takes

theorem disable_event_trunk : (s.event (·.disableTrunk tr)).trunk tr = { (s.trunk tr).abandon.forget with state := .down } := by
  have after := (s.event_after (·.disableTrunk tr)).trunks tr
  rw [disable_pending, s.disable_trunk tr] at after
  exact after

/-- The floor that DISABLE leaves, before the fill point. -/
theorem disable_counted : (((Claim.start s).disableTrunk tr).st.counted (s.versionDue ((Claim.start s).disableTrunk tr))).floor =
    s.seatsGone tr (s.trunkReleased tr).floor := by
  rw [counted_floor, disable_version]
  rw [show ((Claim.start s).disableTrunk tr).st.floor = _ from (s.disable_floor tr).trans (s.cleared_floor tr)]
  have requests : (s.trunkReleased tr).floor.requests = s.floor.requests ∧
      (s.trunkReleased tr).floor.listVersion = s.floor.listVersion := by
    rw [trunkReleased_floor]
    exact ⟨rfl, rfl⟩
  unfold seatsGone
  rw [requests.1, requests.2]

/-- The event of DISABLE is a fill point. -/
theorem disable_settles : (((Claim.start s).disableTrunk tr).st.counted (s.versionDue ((Claim.start s).disableTrunk tr))).Settles
    (s.event (·.disableTrunk tr)) :=
  event_settles (body := (·.disableTrunk tr)) (Claim.Shows.self _) (fun _ => rfl) (fun _ => .inl rfl) rfl

/-- The floor after DISABLE follows that of the removals. -/
theorem disable_settlesFloor : (s.seatsGone tr (s.trunkReleased tr).floor).settlesFloor
    { s with seats := (s.event (·.disableTrunk tr)).seats } (s.event (·.disableTrunk tr)) := by
  have settles := s.disable_settles tr
  have counted := s.disable_counted tr
  have bodyTime : ((Claim.start s).disableTrunk tr).st.time = s.time := by
    have claim := Claim.disableTrunk_claim (c := .start s) (.refl s) tr
    unfold State.time
    rw [claim.timeBase]
  have here (n : Nat) : ((Claim.start s).disableTrunk tr).st.isHere n = (s.event (·.disableTrunk tr)).isHere n := (s.event_isHere (·.disableTrunk tr) n).symm
  generalize s.versionDue ((Claim.start s).disableTrunk tr) = due at *
  generalize ((Claim.start s).disableTrunk tr).st = z at *
  generalize s.event (·.disableTrunk tr) = u at *
  refine ⟨fun y hy => ?_, fun hp ha hm hr room => ?_⟩
  · have time : (z.counted due).time = s.time := (congrArg TimeBase.chamberTime (counted_timeBase z due)).trans bodyTime
    have presences (n : Nat) : (z.counted due).isHere n = u.isHere n := by
      rw [← here n]
      unfold isHere
      rw [seat_congr (counted_seats z due)]
    have floors := settled_floor (x := { s with seats := u.seats, floor := s.seatsGone tr (s.trunkReleased tr).floor })
      (z := z.counted due) counted time (firstPresentReply_congr (congrArg Floor.replies counted) fun n => presences n)
    rw [hy] at floors
    obtain ⟨w, hw, same⟩ := Option.map_eq_some_iff.mp floors
    exact (settles.fixed w hw).1.trans same
  · rw [← counted] at hp ha hm hr room
    exact settles.filled hp ha hm hr room

/-! ### The report where the trunk's seats wait for replies alone -/

/-- A seat found nowhere is removed from nowhere. -/
theorem seatRemoved_idle {x : State} {n : Nat} (l : x.floor.Lacks n) (why : Byte) : x.seatRemoved n why = x := by
  have request : x.floor.requestOf n = none := List.find?_eq_none.mpr fun e he => by simpa using l.requests e he
  have reply : x.floor.replyOf n = none := List.find?_eq_none.mpr fun e he => by simpa using l.replies e he
  have slot : x.floor.slotOf n = none := Floor.slotOf_eq_none.mpr l.slots
  have chair : x.floor.chairOf n = none := Floor.chairOf_eq_none.mpr l.chairs
  have held : ∀ fr ∈ x.floor.stack, fr.records.filter (fun h => decide (h.seat = n)) = [] ∧
      fr.entries.filter (fun e => decide (e.seat = n)) = [] := by
    intro fr hfr
    have none_ : fr.holds n = false := by
      have all := List.any_eq_false.mp l.stack fr hfr
      simpa using all
    have out : n ∉ Claim.heldSeats fr := fun h => by
      rw [StackFrame.holds_iff.mpr h] at none_
      exact nomatch none_
    unfold Claim.heldSeats at out
    simp only [List.mem_append, List.mem_map, not_or, not_exists, not_and] at out
    exact ⟨List.filter_eq_nil_iff.mpr fun h hh => by simpa using out.1 h hh, List.filter_eq_nil_iff.mpr fun e he => by simpa using out.2 e he⟩
  have records : (x.floor.stack.flatMap fun fr => fr.records.filter (·.seat = n)) = [] := List.flatMap_eq_nil_iff.mpr fun fr h => (held fr h).1
  have entries : (x.floor.stack.flatMap fun fr => fr.entries.filter (·.seat = n)) = [] := List.flatMap_eq_nil_iff.mpr fun fr h => (held fr h).2
  unfold seatRemoved
  simp only [request, if_true, reply, slot, Option.bind_none, chair, records, entries, List.foldl_nil, and_self]

/-- The trunk's reply entries leave, head first, with their reports (R88). -/
def repliesTold (s : State) (l : List ReplyEntry) : State :=
  l.foldl (fun x e => (x.notify ⟨.replyDropped, .seat e.seat, some 5, [detailOf e.target]⟩).raise .reply) s

/-- A flag set before the reports of the reply entries is set after them. -/
theorem repliesTold_raise (s : State) (l : List ReplyEntry) (e : EventFlag) :
    ((s.raise e).repliesTold l).report = ((s.repliesTold l).raise e).report := by
  have same : (s.raise e).repliesTold l = (s.repliesTold l).raise e := by
    induction l generalizing s with
    | nil => rfl
    | cons a l ih =>
      have swap (x : State) (e f : EventFlag) : (x.raise e).raise f = (x.raise f).raise e := by
        unfold State.raise State.modBothReports LinkReport.raise
        simp only [BitVec.or_assoc, BitVec.or_comm e.set f.set]
      unfold repliesTold at ih ⊢
      rw [List.foldl_cons, List.foldl_cons, notify_raise, swap, ih]
  rw [same]

end State

/-- The reports of reply entries rest on the reports and chamber time before them. -/
theorem State.repliesTold_congr {x y : State} (report : x.report = y.report) (time : x.time = y.time) (l : List ReplyEntry) :
    (x.repliesTold l).report = (y.repliesTold l).report ∧ (x.repliesTold l).time = (y.repliesTold l).time := by
  induction l generalizing x y with
  | nil => exact ⟨report, time⟩
  | cons a l ih => exact ih (raise_report_congr (notify_report_congr report time _) _) time

namespace Claim

/-- The reply entries of these seats leave, each with its report. -/
theorem foldl_dropReply_report (l : List ReplyEntry) (c : Claim) (here : ∀ e ∈ l, c.floor.replyOf e.seat = some e)
    (once : (l.map (·.seat)).Nodup) : ((l.map (·.seat)).foldl (fun c n => c.dropReply n .absent) c).st.report = (c.st.repliesTold l).report ∧
      ((l.map (·.seat)).foldl (fun c n => c.dropReply n .absent) c).time = c.time := by
  induction l generalizing c with
  | nil => exact ⟨rfl, rfl⟩
  | cons a l ih =>
    obtain ⟨new, once⟩ := List.nodup_cons.mp once
    have shown := (Shows.self c).dropReply (here a List.mem_cons_self) .absent
    have later (e : ReplyEntry) (he : e ∈ l) : (c.dropReply a.seat .absent).floor.replyOf e.seat = some e := by
      have other : e.seat ≠ a.seat := fun same => new (List.mem_map.mpr ⟨e, he, same⟩)
      rw [dropReply_floor]
      show (c.floor.replies.filter fun x => decide (x.seat ≠ a.seat)).find? (fun x => decide (x.seat = e.seat)) = some e
      have same : (fun x : ReplyEntry => decide (decide (x.seat ≠ a.seat) = true ∧ decide (x.seat = e.seat) = true)) =
          fun x => decide (x.seat = e.seat) := by
        funext x
        by_cases own : x.seat = e.seat <;> simp [own, other]
      rw [List.find?_filter, same]
      exact here e (List.mem_cons_of_mem _ he)
    obtain ⟨report, time⟩ := ih (c.dropReply a.seat .absent) later once
    have told := (State.repliesTold_congr (x := (c.dropReply a.seat .absent).st)
      (y := (c.st.notify ⟨.replyDropped, .seat a.seat, some 5, [detailOf a.target]⟩).raise .reply) shown.report shown.time l).1
    exact ⟨report.trans told, time.trans shown.time⟩

/-- Seats found nowhere leave nothing. -/
theorem foldl_removeSeat_idle (l : List Nat) (c : Claim) (out : ∀ n ∈ l, c.floor.Lacks n) :
    (l.foldl (fun c n => c.removeSeat n .absent) c).Shows c.st := by
  have walk (l : List Nat) (d : Claim) (out : ∀ n ∈ l, c.floor.Lacks n) (h : d.Shows c.st) :
      (l.foldl (fun c n => c.removeSeat n .absent) d).Shows c.st := by
    induction l generalizing d with
    | nil => exact h
    | cons n l ih =>
      have removed := h.removeSeat n .absent
      rw [State.seatRemoved_idle (out n List.mem_cons_self)] at removed
      exact ih _ (fun k hk => out k (List.mem_cons_of_mem _ hk)) removed
  exact walk l c out (.self c)

end Claim

namespace State

variable {s : State} {tr : TrunkNo}

/-- A seat that waits for a reply, or for nothing, is found nowhere else (R15). -/
theorem FloorLaws.elsewhere (law : s.FloorLaws) {n : Nat} (h : s.floorState n = .idle ∨ s.floorState n = .replyWaiting) :
    (∀ e ∈ s.floor.requests, e.seat ≠ n) ∧ s.floor.slotOf n = none ∧ s.floor.chairOf n = none ∧ s.floor.stack.any (·.holds n) = false := by
  have request : s.floor.requestOf n = none := by
    by_contra some_
    have isSome : (s.floor.requestOf n).isSome = true := Option.isSome_iff_ne_none.mpr some_
    unfold floorState at h
    rw [if_pos isSome] at h
    rcases h with h | h <;> exact nomatch h
  have noRequest : ∀ e ∈ s.floor.requests, e.seat ≠ n := fun e he => by simpa using List.find?_eq_none.mp request e he
  refine ⟨noRequest, ?_⟩
  cases reply : s.floor.replyOf n with
  | none =>
    unfold floorState at h
    rw [request, reply] at h
    cases slot : s.floor.slotOf n with
    | some i => rw [slot] at h; rcases h with h | h <;> exact nomatch h
    | none =>
      cases chair : s.floor.chairOf n with
      | some j => rw [slot, chair] at h; rcases h with h | h <;> exact nomatch h
      | none =>
        refine ⟨rfl, rfl, ?_⟩
        cases held : s.floor.stack.any (·.holds n) with
        | false => rfl
        | true => rw [slot, chair, held] at h; rcases h with h | h <;> exact nomatch h
  | some e =>
    have listed : n ∈ s.floor.replies.map (·.seat) :=
      List.mem_map.mpr ⟨e, List.mem_of_find?_eq_some reply, by simpa using List.find?_some reply⟩
    have once := law.once
    unfold Floor.seatsFound at once
    simp only [List.append_assoc] at once
    have rest := (List.nodup_append.mp (List.nodup_append.mp once).2.1).2.2
    have out (m : Nat) (hm : m ∈ s.floor.openSlots.map (·.2.seat) ++ (s.floor.openChairs.map (·.2.seat) ++
        s.floor.stack.flatMap fun fr => fr.records.map (·.seat) ++ fr.entries.map (·.seat))) : m ≠ n := fun same =>
      rest n listed m hm same.symm
    refine ⟨Floor.slotOf_eq_none.mpr fun i d hd => out _ ?_, Floor.chairOf_eq_none.mpr fun i d hd => out _ ?_, ?_⟩
    · exact List.mem_append_left _ (List.mem_map.mpr ⟨(i, d), Floor.mem_openSlots.mpr hd, rfl⟩)
    · exact List.mem_append_right _ (List.mem_append_left _ (List.mem_map.mpr ⟨(i, d), Floor.mem_openChairs.mpr hd, rfl⟩))
    · rw [Bool.eq_false_iff]
      intro held
      obtain ⟨fr, hfr, holds⟩ := List.any_eq_true.mp held
      exact out n (List.mem_append_right _ (List.mem_append_right _ (List.mem_flatMap.mpr ⟨fr, hfr, StackFrame.holds_iff.mp holds⟩))) rfl

/-- Where the trunk's seats wait for replies alone, no slot is closed. -/
theorem trunkReleased_quiet (out : ∀ n, s.boundTo tr n = true → s.floor.slotOf n = none ∧ s.floor.chairOf n = none) :
    s.trunkReleased tr = s.raise .presence := by
  have slots : s.trunkSlots tr = [] := by
    rw [List.eq_nil_iff_forall_not_mem]
    rintro ⟨i, d⟩ h
    obtain ⟨hd, bound⟩ := (s.mem_trunkSlots tr).mp h
    exact Floor.slotOf_eq_none.mp (out d.seat bound).1 i d hd rfl
  have chairs : s.trunkChairs tr = [] := by
    rw [List.eq_nil_iff_forall_not_mem]
    rintro ⟨i, d⟩ h
    obtain ⟨hd, bound⟩ := (s.mem_trunkChairs tr).mp h
    exact Floor.chairOf_eq_none.mp (out d.seat bound).2 i d hd rfl
  rw [trunkReleased_eq, slots, chairs]
  rfl

/-- The report of DISABLE where the trunk's seats wait for replies alone. -/
theorem cleared_report (law : s.FloorLaws)
    (quiet : ∀ n, s.boundTo tr n = true → s.floorState n = .idle ∨ s.floorState n = .replyWaiting) :
    ((Claim.start s).trunkCleared tr).st.report =
      ((s.repliesTold (s.floor.replies.filter fun e => s.boundTo tr e.seat)).raise .presence).report ∧
    ((Claim.start s).trunkCleared tr).time = s.time := by
  have out (n : Nat) (bound : s.boundTo tr n = true) := law.elsewhere (quiet n bound)
  have left := (Claim.Shows.start s).trunkLeft (t := tr) (.refl s) .absent
  rw [trunkReleased_quiet fun n bound => ⟨(out n bound).2.1, (out n bound).2.2.1⟩] at left
  have member (n : Nat) : n ∈ (Claim.start s).trunkSeats tr ↔ s.boundTo tr n = true := (Claim.start s).mem_trunkSeats tr n
  have unique : (s.floor.replies.map (·.seat)).Nodup := by
    have once := law.once
    unfold Floor.seatsFound at once
    simp only [List.append_assoc] at once
    exact (List.nodup_append.mp (List.nodup_append.mp once).2.1).1
  unfold Claim.trunkCleared
  generalize (Claim.start s).trunkLeft tr .absent = d at *
  have floor : d.floor = s.floor := left.floor
  have seats : (d.floor.replies.map (·.seat)).filter (· ∈ (Claim.start s).trunkSeats tr) =
      (s.floor.replies.filter fun e => s.boundTo tr e.seat).map (·.seat) := by
    rw [floor, List.filter_map]
    congr 1
    refine List.filter_congr fun e _ => ?_
    rw [Function.comp, Bool.eq_iff_iff, decide_eq_true_iff, member]
  have own : ∀ e ∈ s.floor.replies.filter fun e => s.boundTo tr e.seat, d.floor.replyOf e.seat = some e := fun e he => by
    rw [floor]
    have listed := (List.mem_filter.mp he).1
    cases found : s.floor.replyOf e.seat with
    | none =>
      have other : e.seat ≠ e.seat := by simpa using List.find?_eq_none.mp found e listed
      exact absurd rfl other
    | some a =>
      have same : a.seat = e.seat := by simpa using List.find?_some found
      rw [List.inj_on_of_nodup_map unique (List.mem_of_find?_eq_some found) listed same]
  have gone : ∀ n ∈ (Claim.start s).trunkSeats tr, (d.dropReplies ((Claim.start s).trunkSeats tr) .absent).floor.Lacks n := fun n hn => by
    obtain ⟨request, slot, chair, held⟩ := out n ((member n).mp hn)
    rw [Claim.dropReplies_floor, floor]
    exact ⟨Floor.slotOf_eq_none.mp slot, Floor.chairOf_eq_none.mp chair, request,
      fun e he same => by simpa [same, hn] using (List.mem_filter.mp he).2, held⟩
  obtain ⟨report, time⟩ := Claim.foldl_dropReply_report _ d own (unique.sublist ((List.filter_sublist).map _))
  have idle := Claim.foldl_removeSeat_idle ((Claim.start s).trunkSeats tr) (d.dropReplies ((Claim.start s).trunkSeats tr) .absent) gone
  unfold Claim.removeSeats
  refine ⟨idle.report.trans ?_, idle.time.trans ?_⟩
  · unfold Claim.dropReplies
    rw [seats, report, (repliesTold_congr left.report left.time _).1, repliesTold_raise]
  · unfold Claim.dropReplies
    rw [seats]
    exact time.trans left.time

theorem trunkReported_congr {x y : State} (report : x.report = y.report) (time : x.time = y.time) (new old : Byte) :
    (x.trunkReported tr new old).report = (y.trunkReported tr new old).report := raise_report_congr (notify_report_congr report time _) _

/-- On an OPEN floor under MANUAL, where the trunk's seats wait for replies alone. -/
theorem disable_report (law : s.FloorLaws)
    (quiet : ∀ n, s.boundTo tr n = true → s.floorState n = .idle ∨ s.floorState n = .replyWaiting)
    (open_ : s.floor.phase = .openFloor) (manual : s.floor.policy.grantMode = .manual) : (s.event (·.disableTrunk tr)).report =
      (((s.repliesTold (s.floor.replies.filter fun e => s.boundTo tr e.seat)).raise .presence).trunkReported tr 0
        (codeIn trunkStateRow (s.trunk tr).state)).report := by
  have out (n : Nat) (bound : s.boundTo tr n = true) := law.elsewhere (quiet n bound)
  have released := trunkReleased_quiet (tr := tr) fun n bound => ⟨(out n bound).2.1, (out n bound).2.2.1⟩
  obtain ⟨report, time⟩ := cleared_report law quiet
  have undue : s.versionDue ((Claim.start s).disableTrunk tr) = false := by
    rw [disable_version, List.any_eq_false]
    exact fun e he bound => (out e.seat bound).1 e he rfl
  have settles := s.disable_settles tr
  have counted := s.disable_counted tr
  rw [undue] at settles counted
  have told : ((Claim.start s).disableTrunk tr).st.report =
      (((Claim.start s).trunkCleared tr).st.trunkReported tr 0 (codeIn trunkStateRow (s.trunk tr).state)).report := by
    have reset : (((Claim.start s).trunkCleared tr).modTrunk tr TrunkEngine.forget).st.trunk tr = (s.trunk tr).abandon.forget := by
      rw [Claim.modTrunk_trunk, cleared_trunk]
    have shown := ((Claim.Shows.self ((Claim.start s).trunkCleared tr)).modTrunk tr TrunkEngine.forget).setTrunkState_reset
      (by rw [reset]; rfl) .down
    rw [reset] at shown
    rw [Claim.disableTrunk_cleared]
    exact shown.report
  have floor : (((Claim.start s).disableTrunk tr).st.counted false).floor.phase = .openFloor ∧
      (((Claim.start s).disableTrunk tr).st.counted false).floor.policy.grantMode = .manual := by
    rw [counted, released]
    exact ⟨open_, manual⟩
  rw [(settles.manual floor.1 floor.2).2]
  refine told.trans ?_
  refine trunkReported_congr report ?_ _ _
  have kept (l : List ReplyEntry) (x : State) : (x.repliesTold l).time = x.time := by
    induction l generalizing x with
    | nil => rfl
    | cons a l ih => exact ih _
  exact time.trans (kept _ s).symm

end State

end Sys2Proof.Machine
end

section
/-! O46. The trunk commands (R155, R156). -/

namespace Sys2Proof.Machine

/-! ### The action of a trunk command -/

theorem onTrunk_beyond {f : TrunkNo → Action} {p : List Byte} (h : 3 < u8 p 0) (s : State) : onTrunk f p s = (s, .of .range) := by
  unfold onTrunk
  rw [dif_neg (by omega)]
  rfl

theorem onTrunk_of {f : TrunkNo → Action} {p : List Byte} {tr : TrunkNo} (h : u8 p 0 = tr) (s : State) : onTrunk f p s = f tr p s := by
  unfold onTrunk
  rw [dif_pos (h ▸ tr.isLt)]
  congr 1
  exact Fin.ext h

/-- TRUNK CONTROL with an action that does not exist. -/
theorem trunkControl_badArg {p : List Byte} (near : u8 p 0 ≤ 3) (h : 2 < u8 p 1) (s : State) : trunkControlAction p s = (s, .of .badArg) := by
  have is : trunkControlAction p s = _ := onTrunk_of (tr := ⟨u8 p 0, by omega⟩) rfl s
  rw [is]
  dsimp only
  split
  all_goals first | omega | rfl

section Control

variable {p : List Byte} {s : State} {tr : TrunkNo} (h : u8 p 0 = tr)

include h

/-- TRUNK CONTROL by its action and the trunk's state. -/
theorem trunkControl_starts (starts : u8 p 1 = 0 ∧ (s.trunk tr).state = .down ∨ u8 p 1 = 1 ∧ (s.trunk tr).state ≠ .down) :
    trunkControlAction p s = (s.enumerate tr, .of .done ((s.enumerate tr).trunkResult tr)) := by
  have is : trunkControlAction p s = _ := onTrunk_of h s
  rw [is]
  dsimp only
  rcases starts with ⟨action, state⟩ | ⟨action, state⟩
  · rw [action, state]
    rfl
  · rw [action]
    cases hs : (s.trunk tr).state with
    | down => exact absurd hs state
    | enumerating | running | fault => rfl

theorem trunkControl_disables (action : u8 p 1 = 2) (state : (s.trunk tr).state ≠ .down) : trunkControlAction p s =
    ((s.event (·.disableTrunk tr)).stopLine tr, .of .done (((s.event (·.disableTrunk tr)).stopLine tr).trunkResult tr)) := by
  have is : trunkControlAction p s = _ := onTrunk_of h s
  rw [is]
  dsimp only
  rw [action]
  cases hs : (s.trunk tr).state with
  | down => exact absurd hs state
  | enumerating | running | fault => rfl

end Control

/-! ### The state a start leaves -/

namespace State

variable (s : State) (tr : TrunkNo)

theorem sendAssign_trunk (u : State) (tr : TrunkNo) : (u.sendAssign tr).trunk tr = { u.trunk tr with
    lineFrame := assignFrame 0, lineUntil := max u.now (u.trunk tr).lineUntil + Config.byteSpan * (assignFrame 0).length
    plan := .tallyWait (max u.now (u.trunk tr).lineUntil + Config.byteSpan * (assignFrame 0).length + Config.tallySpan) } :=
  trunk_modTrunk_self _ _ _

theorem sendAssign_rest (u : State) (tr : TrunkNo) : (u.sendAssign tr).seats = u.seats ∧ (u.sendAssign tr).floor = u.floor ∧
    (u.sendAssign tr).report = u.report := ⟨rfl, rfl, rfl⟩

/-- The frame that starts an enumeration leaves what the event left. -/
theorem enumerate_rest : (s.enumerate tr).seats = (s.event (·.startEnumeration tr)).seats ∧
    (s.enumerate tr).floor = (s.event (·.startEnumeration tr)).floor ∧
    (s.enumerate tr).report = (s.event (·.startEnumeration tr)).report := sendAssign_rest _ tr

/-- The trunk after the start of enumeration. -/
theorem enumerate_trunk : (s.enumerate tr).trunk tr = { s.trunk tr with
    state := .enumerating, found := 0, positions := Vector.replicate 120 ⟨false, 0, false⟩, fifo := []
    pending := ((s.enumerate tr).trunk tr).pending, waitingBeat := none, periodInForce := (s.trunk tr).periodSet
    waitInForce := (s.trunk tr).waitSet, plan := ((s.enumerate tr).trunk tr).plan, inFlight := none
    lineFrame := ((s.enumerate tr).trunk tr).lineFrame, lineUntil := ((s.enumerate tr).trunk tr).lineUntil } ∧
    ((s.enumerate tr).trunk tr).plan = .tallyWait (((s.enumerate tr).trunk tr).lineUntil + 50000) ∧
    ((s.enumerate tr).trunk tr).lineFrame = assignFrame 0 ∧
    ((s.enumerate tr).trunk tr).pending = ((s.event (·.startEnumeration tr)).trunk tr).pending := by
  have after := (s.event_after (·.startEnumeration tr)).trunks tr
  rw [s.start_trunk tr] at after
  have sent := sendAssign_trunk (s.event (·.startEnumeration tr)) tr
  change (s.enumerate tr).trunk tr = _ at sent
  rw [sent]
  generalize s.event (·.startEnumeration tr) = u at *
  refine ⟨?_, rfl, rfl, rfl⟩
  generalize (u.trunk tr).pending = pending at after
  rw [after]
  rfl

/-- A trunk whose positions were forgotten has every position's state initial. -/
theorem station_forgotten {e : TrunkEngine} (h : e.positions = Vector.replicate 120 ⟨false, 0, false⟩) (p : Nat) :
    e.station p = ⟨false, 0, false⟩ := by
  unfold TrunkEngine.station
  rw [h]
  split
  · simp
  · rfl

theorem trunkLeft_flagged (c : Claim) (t : TrunkNo) (p : Presence) (l : Link) : (c.trunkLeft t p).st.flagged l .presence := by
  unfold Claim.trunkLeft
  exact flagged_raise _ l .presence

theorem modTrunk_flagged {c : Claim} {l : Link} {e : EventFlag} (h : c.st.flagged l e) (t : TrunkNo) (f : TrunkEngine → TrunkEngine) :
    (c.modTrunk t f).st.flagged l e := h

theorem enumerate_flagged (l : Link) : (s.enumerate tr).flagged l .trunk ∧ (s.enumerate tr).flagged l .presence := by
  have body : ((Claim.start s).startEnumeration tr).st.flagged l .trunk ∧ ((Claim.start s).startEnumeration tr).st.flagged l .presence := by
    rw [Claim.startEnumeration_eq, Claim.fillPoint_st]
    have left := modTrunk_flagged (trunkLeft_flagged (.start s) tr .unconfirmed l) tr fun e => e.forget.takeSettings
    exact ⟨Claim.setTrunkState_flagged _ tr _ l, Claim.setTrunkState_grown _ tr _ left⟩
  have trunk := event_flagged (body := (·.startEnumeration tr)) body.1
  have presence := event_flagged (body := (·.startEnumeration tr)) body.2
  have report := (s.enumerate_rest tr).2.2
  exact ⟨(flagged_congr report l .trunk).mpr trunk, (flagged_congr report l .presence).mpr presence⟩

theorem enumerate_claim : s.ClaimFrame (s.enumerate tr) := by
  have event : s.ClaimFrame (s.event (·.startEnumeration tr)) := by
    refine event_claim s _ ?_
    exact Claim.startEnumeration_claim (c := .start s) (.refl s) tr
  unfold enumerate sendAssign
  exact event.trans (.modTrunk _ tr _ fun e w => w)

/-- What waits in the pending list after a start is the positions of the trunk's seats whose images changed (R19, R138). -/
theorem enumerate_pending {x : PendingUpdate} (h : x ∈ ((s.enumerate tr).trunk tr).pending) : x.label = false ∧
    ∃ n b, (s.seat n).binding = some b ∧ b.trunk = tr ∧ b.position = x.position ∧ ((s.enumerate tr).seat n).image ≠ (s.seat n).image := by
  rw [(s.enumerate_trunk tr).2.2.2] at h
  rcases event_pending h with old | ⟨label, -, n, b, hb, own, position, changed⟩
  · rw [show ((Claim.start s).startEnumeration tr).st.trunk tr = _ from s.start_trunk tr] at old
    exact nomatch old
  · have bindings : s.SameBindings ((Claim.start s).startEnumeration tr).st :=
      SameBindings.carries.startEnumeration (c := .start s) (.refl s) tr
    refine ⟨label, n, b, (bindings n).symm.trans hb, own, position, ?_⟩
    rw [(s.start_tells tr).image n] at changed
    exact changed

theorem disable_flagged (l : Link) : (s.event (·.disableTrunk tr)).flagged l .trunk ∧ (s.event (·.disableTrunk tr)).flagged l .presence := by
  have body : ((Claim.start s).disableTrunk tr).st.flagged l .trunk ∧ ((Claim.start s).disableTrunk tr).st.flagged l .presence := by
    rw [Claim.disableTrunk_cleared, Claim.fillPoint_st]
    have left := trunkLeft_flagged (.start s) tr .absent l
    have removed := Claim.removeSeats_claim (c := (Claim.start s).trunkLeft tr .absent) (.refl _) ((Claim.start s).trunkSeats tr) .absent
    have cleared : ((Claim.start s).trunkCleared tr).st.flagged l .presence := flagged_of_grown removed.report left
    exact ⟨Claim.setTrunkState_flagged _ tr _ l, Claim.setTrunkState_grown _ tr _ (modTrunk_flagged cleared tr _)⟩
  exact ⟨event_flagged (body := (·.disableTrunk tr)) body.1, event_flagged (body := (·.disableTrunk tr)) body.2⟩

theorem disable_claim : s.ClaimFrame ((s.event (·.disableTrunk tr)).stopLine tr) := by
  have event : s.ClaimFrame (s.event (·.disableTrunk tr)) := by
    refine event_claim s _ ?_
    exact Claim.disableTrunk_claim (c := .start s) (.refl s) tr
  unfold stopLine
  exact event.trans (.modTrunk _ tr _ fun e w => w)

theorem enumerate_settles : State.Settles { (s.trunkReleased tr).trunkReported tr 1 (codeIn trunkStateRow (s.trunk tr).state) with
    seats := (s.enumerate tr).seats } (s.enumerate tr) := by
  obtain ⟨seats, floor, report⟩ := s.enumerate_rest tr
  rw [seats]
  exact (s.start_settles tr).congr floor report seats

/-- The seats of a trunk that starts its enumeration leave the slots. -/
theorem enumerate_vacates {n : Nat} (bound : s.boundTo tr n = true) :
    (s.enumerate tr).floor.slotOf n = none ∧ (s.enumerate tr).floor.chairOf n = none := by
  rw [(s.enumerate_rest tr).2.1]
  exact event_vacates (body := (·.startEnumeration tr)) (s.start_vacates tr bound)

theorem stopLine_rest (u : State) (tr : TrunkNo) : (u.stopLine tr).seats = u.seats ∧ (u.stopLine tr).floor = u.floor ∧
    (u.stopLine tr).report = u.report := ⟨rfl, rfl, rfl⟩

theorem stopLine_floorState (u : State) (tr : TrunkNo) (n : Nat) : (u.stopLine tr).floorState n = u.floorState n := by
  unfold floorState
  rw [(stopLine_rest u tr).2.1]

/-- The stop of a line leaves what follows an event. -/
theorem stopLine_settlesFloor {f : Floor} {x u : State} (h : f.settlesFloor x u) (tr : TrunkNo) : f.settlesFloor x (u.stopLine tr) := by
  obtain ⟨seats, floor, -⟩ := stopLine_rest u tr
  obtain ⟨fixed, filled⟩ := h
  refine ⟨fun y hy => floor.trans (fixed y hy), fun hp ha hm hr room e he => ?_⟩
  rw [floor] at room he
  unfold isHere
  rw [seat_congr seats]
  exact filled hp ha hm hr room e he

theorem stopped_settlesFloor : (s.seatsGone tr (s.trunkReleased tr).floor).settlesFloor
    { s with seats := ((s.event (·.disableTrunk tr)).stopLine tr).seats } ((s.event (·.disableTrunk tr)).stopLine tr) := by
  rw [(stopLine_rest (s.event (·.disableTrunk tr)) tr).1]
  exact stopLine_settlesFloor (s.disable_settlesFloor tr) tr

/-- The seats of a trunk stopped are ABSENT. -/
theorem stopped_presence {n : Nat} {b : Binding} (known : (seatIndex n).isSome) (hb : (s.seat n).binding = some b) (own : b.trunk = tr) :
    (((s.event (·.disableTrunk tr)).stopLine tr).seat n).presence = .absent := by
  have seat := seat_congr (stopLine_rest (s.event (·.disableTrunk tr)) tr).1 n
  rw [seat, event_seat_granted, seat_congr (s.disable_seats tr), s.cleared_seat tr known, boundTo_iff.mpr ⟨b, hb, own⟩]
  rfl

/-- The seats of a trunk stopped are off the floor. -/
theorem stopped_idle {n : Nat} (bound : s.boundTo tr n = true) : ((s.event (·.disableTrunk tr)).stopLine tr).floorState n = .idle := by
  have lacks := s.cleared_lacks tr bound
  rw [← s.disable_floor tr] at lacks
  rw [stopLine_floorState]
  exact (event_lacks (body := (·.disableTrunk tr)) lacks).idle

theorem stopped_flagged (l : Link) : ((s.event (·.disableTrunk tr)).stopLine tr).flagged l .trunk ∧
    ((s.event (·.disableTrunk tr)).stopLine tr).flagged l .presence := by
  have report := (stopLine_rest (s.event (·.disableTrunk tr)) tr).2.2
  obtain ⟨trunk, presence⟩ := s.disable_flagged tr l
  exact ⟨(flagged_congr report l .trunk).mpr trunk, (flagged_congr report l .presence).mpr presence⟩

/-- The report of a trunk stopped, where its seats wait for replies alone. -/
theorem stopped_report (law : s.FloorLaws)
    (quiet : ∀ n, s.boundTo tr n = true → s.floorState n = .idle ∨ s.floorState n = .replyWaiting)
    (open_ : s.floor.phase = .openFloor) (manual : s.floor.policy.grantMode = .manual) :
    ((s.event (·.disableTrunk tr)).stopLine tr).report =
      ((((s.floor.replies.filter fun e => s.boundTo tr e.seat).foldl (fun x e => (x.notify
        ⟨.replyDropped, .seat e.seat, some 5, [detailOf e.target]⟩).raise .reply) s).raise .presence).trunkReported tr 0
          (codeIn trunkStateRow (s.trunk tr).state)).report :=
  (stopLine_rest (s.event (·.disableTrunk tr)) tr).2.2.trans (s.disable_report law quiet open_ manual)

theorem stopLine_trunk (u : State) (tr : TrunkNo) : (u.stopLine tr).trunk tr = { u.trunk tr with lineFrame := [], lineUntil := u.now } :=
  trunk_modTrunk_self _ _ _

end State

/-- Settles O46: the dispatch, and the events of the start and the end of a trunk. -/
theorem trunkCommands : Obligations.TrunkCommands := by
  unfold Obligations.TrunkCommands
  have acts (s : State) (l : Link) (c : HeldCommand) (hc : s.Takes l c 0x60 true 2) (row : Instr)
      (is : row = .trunkEnable l ∧ u8 c.payload 1 ≠ 1 ∧ u8 c.payload 1 ≠ 2 ∨ row = .trunkEnumerate l ∧ u8 c.payload 1 ≠ 0 ∧ u8 c.payload 1 ≠ 2 ∨
        row = .trunkDisable l ∧ u8 c.payload 1 ≠ 0 ∧ u8 c.payload 1 ≠ 1) :
      exec row s = .next ((trunkControlAction c.payload s).1.answer l c (trunkControlAction c.payload s).2) := by
    rcases is with ⟨rfl, a, b⟩ | ⟨rfl, a, b⟩ | ⟨rfl, a, b⟩
    all_goals exact congrArg _ (hc.actsBy (by simp [ofKindBut, hc.kind, a, b]) rfl trunkControlAction)
  refine ⟨fun s l c hc row is => ⟨fun far => ?_, fun near bad => ?_⟩, fun s l c tr hc number => ⟨fun action state => ?_, fun action state => ?_,
    fun action state => ?_, fun action state => ?_, fun row starts => ?_, fun action state => ?_⟩, fun s l c hc => ⟨fun far => ?_,
      fun tr number => ⟨fun range => ?_, fun low high low' high' => ⟨fun same => ?_, fun differs => ?_⟩⟩⟩⟩
  · rw [acts s l c hc row is, show trunkControlAction c.payload s = _ from onTrunk_beyond far s]
  · rw [acts s l c hc row is, trunkControl_badArg near bad]
  · rw [acts s l c hc _ (.inl ⟨rfl, by omega, by omega⟩), show trunkControlAction c.payload s = _ from onTrunk_of number s]
    dsimp only
    rw [action, state]
    rfl
  · rw [acts s l c hc _ (.inl ⟨rfl, by omega, by omega⟩), show trunkControlAction c.payload s = _ from onTrunk_of number s]
    dsimp only
    rw [action]
    rcases state with state | state
    · rw [state]
      unfold State.trunkResult
      rw [state]
      rfl
    · rw [state]
      unfold State.trunkResult
      rw [state]
      rfl
  · rw [acts s l c hc _ (.inr (.inl ⟨rfl, by omega, by omega⟩)), show trunkControlAction c.payload s = _ from onTrunk_of number s]
    dsimp only
    rw [action, state]
    rfl
  · rw [acts s l c hc _ (.inr (.inr ⟨rfl, by omega, by omega⟩)), show trunkControlAction c.payload s = _ from onTrunk_of number s]
    dsimp only
    rw [action, state]
    unfold State.trunkResult
    rw [state]
    rfl
  · have is : row = .trunkEnable l ∧ u8 c.payload 1 ≠ 1 ∧ u8 c.payload 1 ≠ 2 ∨
        row = .trunkEnumerate l ∧ u8 c.payload 1 ≠ 0 ∧ u8 c.payload 1 ≠ 2 ∨ row = .trunkDisable l ∧ u8 c.payload 1 ≠ 0 ∧ u8 c.payload 1 ≠ 1 :=
      starts.imp (fun h => ⟨h.1, by omega, by omega⟩) fun h => .inl ⟨h.1, by omega, by omega⟩
    have does := trunkControl_starts number (starts.imp (·.2) (·.2))
    obtain ⟨trunk, plan, line, -⟩ := s.enumerate_trunk tr
    refine ⟨s.enumerate tr, ?_, by rw [trunk], by rw [trunk], by rw [trunk], by rw [trunk], by rw [trunk],
      State.station_forgotten (by rw [trunk]), plan, line, fun n b low high hb own => ?_, s.enumerate_flagged tr, s.enumerate_claim tr, trunk,
      fun x hx => s.enumerate_pending tr hx, fun n bound => s.enumerate_vacates tr bound,
      s.enumerate_settles tr⟩
    · rw [acts s l c hc row is, does]
      unfold State.trunkResult
      rw [trunk]
      rfl
    · have seat := State.seat_congr (s.enumerate_rest tr).1 n
      rw [seat, State.event_seat_granted, s.start_seat tr (seatIndex_isSome low high), State.boundTo_iff.mpr ⟨b, hb, own⟩]
      rfl
  · have does := trunkControl_disables number action state
    have trunk := State.stopLine_trunk (s.event (·.disableTrunk tr)) tr
    rw [s.disable_event_trunk tr] at trunk
    have gone := fun n b => s.stopped_presence tr (n := n) (b := b)
    have flagged := s.stopped_flagged tr
    have claim := s.disable_claim tr
    have idle := fun n => s.stopped_idle tr (n := n)
    have follows := s.stopped_settlesFloor tr
    have told := s.stopped_report tr
    generalize (s.event (·.disableTrunk tr)).stopLine tr = u at does trunk gone flagged claim idle follows told
    refine ⟨u, ?_, by rw [trunk], by rw [trunk]; rfl, by rw [trunk]; rfl, by rw [trunk]; rfl, by rw [trunk]; rfl, by rw [trunk]; rfl,
      by rw [trunk], State.station_forgotten (by rw [trunk]; rfl), fun n b low high hb own => ?_, flagged, claim, by rw [trunk]; rfl,
      idle, follows, told⟩
    · rw [acts s l c hc _ (.inr (.inr ⟨rfl, by omega, by omega⟩)), does]
      unfold State.trunkResult
      rw [trunk]
      rfl
    · exact gone n b (seatIndex_isSome low high) hb own
  all_goals
    have does : exec (.trunkConfig l) s = .next ((trunkConfigAction c.payload s).1.answer l c (trunkConfigAction c.payload s).2) :=
      congrArg _ (hc.acts trunkConfigAction)
    rw [does]
  · rw [show trunkConfigAction c.payload s = _ from onTrunk_beyond far s]
  · rw [show trunkConfigAction c.payload s = _ from onTrunk_of number s]
    dsimp only
    rw [if_pos range]
    rfl
  · rw [show trunkConfigAction c.payload s = _ from onTrunk_of number s]
    dsimp only
    rw [if_neg (by omega), if_pos same]
    rfl
  · rw [show trunkConfigAction c.payload s = _ from onTrunk_of number s]
    dsimp only
    rw [if_neg (by omega), if_neg differs]

end Sys2Proof.Machine
end

section
/-! SUPPORT. The REQ and MIC presses and the presses that are refused before a button's rule (R3, R32, R33, R59, R60). -/

namespace Sys2Proof.Machine

section Presses

variable {s : State} {r : CaptureRecord}

/-! ### Presses refused before a button's rule (R3, R59) -/

/-- A press of a button of another class. -/
theorem press_otherClass {b : Button} {x : Binding} (bound : (s.seat r.seat).binding = some x) (other : x.cls.hasButton b = false) :
    (Claim.drained s).press r.seat r.stamp b = (Claim.drained s).refuse r.seat b .cls := by
  unfold Claim.press
  rw [Claim.drained_seat]
  simp [bound, other]

/-- A press of a disabled seat. -/
theorem press_disabled {b : Button} {x : Binding} (bound : (s.seat r.seat).binding = some x) (own : x.cls.hasButton b = true)
    (off : (s.seat r.seat).enabled = false) :
    (Claim.drained s).press r.seat r.stamp b = (Claim.drained s).refuse r.seat b .disabled := by
  unfold Claim.press
  rw [Claim.drained_seat]
  simp [bound, own, off]

/-! ### REQ (R32, R33) -/

/-- The rule of a REQ press. -/
theorem press_req (may : s.mayPress r.seat .req) :
    (Claim.drained s).press r.seat r.stamp .req = (Claim.drained s).pressReq r.seat r.stamp :=
  Claim.press_eq (c := Claim.drained s) may r.stamp

/-- A REQ press, by where its seat is found. -/
theorem Claim.pressReq_cases (c : Claim) (n : Nat) (stamp : ChamberTime) :
    (c.st.floorState n = .waiting → c.pressReq n stamp = c.dequeue n .cancel) ∧
      (c.st.floorState n = .live → c.pressReq n stamp =
        if c.policy.selfClose then c.closeSlotOf n .self else c.refuse n .req .notSelfClose) ∧
      (c.st.floorState n = .replyWaiting → c.pressReq n stamp = c.refuse n .req .seatBusy) ∧
      (c.st.floorState n = .held → c.pressReq n stamp = c.refuse n .req .held) ∧
      (c.st.floorState n = .idle → c.pressReq n stamp = c.joinRequests n stamp) := by
  unfold Claim.pressReq
  exact ⟨fun h => by rw [h], fun h => by rw [h], fun h => by rw [h], fun h => by rw [h], fun h => by rw [h]⟩

/-- The join checks of a REQ press (R32). -/
theorem Claim.joinRequests_cases (c : Claim) (n : Nat) (stamp : ChamberTime) :
    (c.floor.gate = .closed → c.joinRequests n stamp = c.refuse n .req .listClosed) ∧
      (c.floor.gate = .opened →
        (c.policy.grantQuota ≠ 0 → c.policy.grantQuota ≤ (c.st.seat n).grantCount →
          c.joinRequests n stamp = c.refuse n .req .quota) ∧
        (c.policy.grantQuota = 0 ∨ (c.st.seat n).grantCount < c.policy.grantQuota →
          (c.policy.listMax ≤ c.floor.requests.length → c.joinRequests n stamp = c.refuse n .req .listFull) ∧
          (c.floor.requests.length < c.policy.listMax →
            c.joinRequests n stamp = c.enqueue c.floor.requests.length ⟨n, .button, stamp, none⟩))) := by
  unfold Claim.joinRequests
  dsimp only
  refine ⟨fun shut => if_pos shut, fun opened => ?_⟩
  rw [if_neg (by rw [opened]; decide)]
  refine ⟨fun limited full => if_pos ⟨limited, full⟩, fun below => ?_⟩
  rw [if_neg (by omega)]
  exact ⟨fun full => if_pos full, fun room => if_neg (Nat.not_le.mpr room)⟩

/-- A press that leaves another request list: the version is counted with it (R22, R23). -/
theorem onePress_listed {b : Button} {x : State} (h : ((Claim.drained s).press r.seat r.stamp b).Shows x) (seats : x.seats = s.seats)
    (other : s.floor.requests ≠ x.floor.requests) : (x.counted true).Settles (s.afterPress r b) := by
  have settles := onePress_counted h seats
  have due : s.versionDue ((Claim.drained s).press r.seat r.stamp b) = true := by
    unfold State.versionDue
    rw [h.floor]
    simp [other]
  rw [due] at settles
  exact settles

/-- A waiting seat has an entry in the request list. -/
theorem State.waiting_entry {n : Nat} (h : s.floorState n = .waiting) : s.floor.requestOf n ≠ none := by
  intro none_
  unfold floorState at h
  rw [none_] at h
  simp only [Option.isSome_none, Bool.false_eq_true, if_false] at h
  repeat' split at h
  all_goals exact absurd h (by decide)

/-- A REQ press of a waiting seat cancels its entry (R33). -/
theorem onePress_cancels (waiting : s.floorState r.seat = .waiting)
    (cancels : (Claim.drained s).press r.seat r.stamp .req = (Claim.drained s).dequeue r.seat .cancel) :
    (((s.notify ⟨.dequeued, .seat r.seat, some 13, []⟩).raise .list).modFloor fun f => { f with
      requests := f.requests.filter (·.seat ≠ r.seat), listVersion := f.listVersion + 1 }).Settles (s.afterPress r .req) := by
  have entry := State.waiting_entry waiting
  have left := (Claim.Shows.drained s).dequeue entry .cancel
  rw [← cancels] at left
  exact onePress_listed left rfl (requests_ne_filter (Floor.requestOf_ne_none.mp entry))

/-- A REQ press of an idle seat joins at the tail (R32). -/
theorem onePress_joins (joins : (Claim.drained s).press r.seat r.stamp .req =
      (Claim.drained s).enqueue s.floor.requests.length ⟨r.seat, .button, r.stamp, none⟩) :
    (((s.notify ⟨.queued, .seat r.seat, some 3, [detailOf s.floor.requests.length]⟩).raise .list).modFloor fun f =>
      { f with requests := f.requests ++ [⟨r.seat, .button, r.stamp, none⟩], listVersion := f.listVersion + 1 }).Settles
        (s.afterPress r .req) := by
  have joined := (Claim.Shows.drained s).enqueue s.floor.requests.length ⟨r.seat, .button, r.stamp, none⟩
  rw [← joins] at joined
  have settles := onePress_listed joined rfl (insertIdx_ne _ (Nat.le_refl _))
  have tail : s.floor.requests.insertIdx s.floor.requests.length ⟨r.seat, .button, r.stamp, none⟩ =
      s.floor.requests ++ [⟨r.seat, .button, r.stamp, none⟩] := List.insertIdx_length_self
  have same : (((s.notify ⟨.queued, .seat r.seat, some 3, [detailOf s.floor.requests.length]⟩).raise .list).modFloor fun f =>
      { f with requests := f.requests.insertIdx s.floor.requests.length ⟨r.seat, .button, r.stamp, none⟩,
               listVersion := f.listVersion + 1 }) =
      (((s.notify ⟨.queued, .seat r.seat, some 3, [detailOf s.floor.requests.length]⟩).raise .list).modFloor fun f =>
        { f with requests := f.requests ++ [⟨r.seat, .button, r.stamp, none⟩], listVersion := f.listVersion + 1 }) :=
    State.modFloor_congr (by simp only [State.raise_floor, State.notify_floor, tail])
  rw [← same]
  exact settles

/-! ### MIC (R60) -/

/-- The rule of a MIC press. -/
theorem press_mic (may : s.mayPress r.seat .mic) :
    (Claim.drained s).press r.seat r.stamp .mic = (Claim.drained s).pressMic r.seat :=
  Claim.press_eq (c := Claim.drained s) may r.stamp

/-- A MIC press of a seat without a chair slot. -/
theorem pressMic_opens {n : Nat} (none_ : s.floor.chairOf n = none) :
    (s.floor.freeChair = none → (Claim.drained s).pressMic n = (Claim.drained s).refuse n .mic .chairBusy) ∧
      ∀ j, s.floor.freeChair = some j → (Claim.drained s).pressMic n = (Claim.drained s).openChair j n .mic := by
  have floor : (Claim.drained s).floor = s.floor := rfl
  unfold Claim.pressMic
  rw [floor, none_]
  exact ⟨fun h => by rw [h], fun j h => by rw [h]⟩

/-- A MIC press of a seat with a chair slot. -/
theorem pressMic_closes {n : Nat} {j : Fin 2} {x : ChairSlot} (own : s.floor.chairOf n = some j) (slot : s.floor.chairs[j] = some x) :
    (x.mode = .priority → (Claim.drained s).pressMic n = (Claim.drained s).refuse n .mic .phase) ∧
      (x.mode = .mic → (Claim.drained s).pressMic n = (Claim.drained s).closeChair j .self) := by
  have floor : (Claim.drained s).floor = s.floor := rfl
  have mode : (Claim.drained s).chairStateOf n = x.mode := by
    unfold Claim.chairStateOf
    rw [floor, own]
    simp [slot]
  unfold Claim.pressMic
  rw [floor, own, mode]
  exact ⟨fun h => by simp [h], fun h => by simp [h]⟩

/-- What an opened chair slot shows (R60). -/
theorem Claim.Shows.openChair {c : Claim} {x : State} (h : c.Shows x) (j : Fin 2) (n : Nat) (m : ChairState) :
    (c.openChair j n m).Shows (((x.notify ⟨.chairOpen, .seat n, some (codeIn chairStateRow m), [detailOf j]⟩).raise .floor).modFloor
      fun f => { f with chairs := f.chairs.set j (some ⟨n, x.time, m⟩) }) := by
  unfold Claim.openChair
  rw [h.time]
  have opened := (((h.modFloor fun f => { f with chairs := f.chairs.set j (some ⟨n, x.time, m⟩) }).notify
    (.ofSeat .chairOpen n (codeIn chairStateRow m) [detailOf j])).raise .floor).touch n
  exact ⟨opened.floor, opened.report, opened.time⟩

/-- A MIC press that opens a chair slot. -/
theorem onePress_opensChair {j : Fin 2} (opens : (Claim.drained s).press r.seat r.stamp .mic = (Claim.drained s).openChair j r.seat .mic) :
    (((s.notify ⟨.chairOpen, .seat r.seat, some 1, [detailOf j]⟩).raise .floor).modFloor fun f =>
      { f with chairs := f.chairs.set j (some ⟨r.seat, s.time, .mic⟩) }).Settles (s.afterPress r .mic) := by
  have shown := (Claim.Shows.drained s).openChair j r.seat .mic
  rw [← opens] at shown
  exact onePress_settles shown rfl rfl (by rw [opens]; simp [Claim.openChair]; rfl)

/-- A MIC press that closes the seat's chair slot. -/
theorem onePress_closesChair {j : Fin 2} {x : ChairSlot} (slot : s.floor.chairs[j] = some x) (own : x.seat = r.seat)
    (closes : (Claim.drained s).press r.seat r.stamp .mic = (Claim.drained s).closeChair j .self) :
    (((s.notify ⟨.chairClose, .seat r.seat, some 0, [detailOf j]⟩).raise .floor).modFloor fun f =>
      { f with chairs := f.chairs.set j none }).Settles (s.afterPress r .mic) := by
  have shown := (Claim.Shows.drained s).closeChair slot .self
  rw [← closes, own] at shown
  exact onePress_settles shown rfl rfl (by rw [closes, Claim.closeChair_tookEntry]; rfl)

end Presses

end Sys2Proof.Machine
end

section
/-! SUPPORT. The order of an intake's batch: stable sorting by stamp and seat, and the draws of the tie groups (R27, R28). -/

namespace Sys2Proof.Machine

/-! ### Ordered lists -/

section Sorting

variable {α : Type} {le : α → α → Bool}

/-- An item put into an ordered list leaves it ordered. -/
theorem insertBy_pairwise (total : ∀ x y, le x y = false → le y x = true)
    (trans : ∀ x y z, le x y = true → le y z = true → le x z = true) (x : α) {l : List α} (h : l.Pairwise fun a b => le a b = true) :
    (insertBy le x l).Pairwise fun a b => le a b = true := by
  induction l with
  | nil => exact List.pairwise_singleton _ _
  | cons y ys ih =>
    obtain ⟨below, rest⟩ := List.pairwise_cons.mp h
    unfold insertBy
    by_cases first : le x y = true
    · rw [if_pos first]
      refine List.pairwise_cons.mpr ⟨fun z hz => ?_, h⟩
      rcases List.mem_cons.mp hz with rfl | hz
      · exact first
      · exact trans x y z first (below z hz)
    · rw [if_neg first]
      refine List.pairwise_cons.mpr ⟨fun z hz => ?_, ih rest⟩
      rcases List.mem_cons.mp ((insertBy_perm le x ys).mem_iff.mp hz) with rfl | hz
      · exact total z y (by simpa using first)
      · exact below z hz

/-- A sorted list is in order. -/
theorem sortBy_pairwise (total : ∀ x y, le x y = false → le y x = true)
    (trans : ∀ x y z, le x y = true → le y z = true → le x z = true) (l : List α) :
    (sortBy le l).Pairwise fun a b => le a b = true := by
  induction l with
  | nil => exact .nil
  | cons x xs ih => exact insertBy_pairwise total trans x ih

/-- Items that are equal in the order keep theirs when one is put in ahead of them. -/
theorem insertBy_filter {p : α → Bool} (same : ∀ x y, p x = true → p y = true → le x y = true) (x : α) (l : List α) :
    (insertBy le x l).filter p = (x :: l).filter p := by
  induction l with
  | nil => rfl
  | cons y ys ih =>
    unfold insertBy
    by_cases first : le x y = true
    · rw [if_pos first]
    · rw [if_neg first, List.filter_cons, ih]
      by_cases hx : p x = true
      · have hy : ¬ p y = true := fun hy => first (same x y hx hy)
        simp [hx, hy]
      · simp [List.filter_cons, hx]

/-- Items that are equal in the order keep theirs. -/
theorem sortBy_filter {p : α → Bool} (same : ∀ x y, p x = true → p y = true → le x y = true) (l : List α) :
    (sortBy le l).filter p = l.filter p := by
  induction l with
  | nil => rfl
  | cons x xs ih =>
    refine (insertBy_filter same x _).trans ?_
    rw [List.filter_cons, List.filter_cons]
    exact congrArg (fun l => if p x = true then x :: l else l) ih

end Sorting

/-! ### The things named in a list -/

section Distinct

variable {α : Type} [DecidableEq α]

/-- The things named are those of the list. -/
theorem mem_distinct {x : α} {l : List α} : x ∈ distinct l ↔ x ∈ l := by
  induction l with
  | nil => exact .rfl
  | cons y ys ih =>
    unfold distinct
    rw [List.mem_cons, List.mem_cons, List.mem_filter, ih]
    by_cases same : x = y <;> simp [same]

/-- Each thing is named once. -/
theorem nodup_distinct (l : List α) : (distinct l).Nodup := by
  induction l with
  | nil => exact .nil
  | cons y ys ih =>
    unfold distinct
    exact List.nodup_cons.mpr ⟨by simp, ih.filter _⟩

/-- The things named are in the order of the list. -/
theorem distinct_sublist (l : List α) : (distinct l).Sublist l := by
  induction l with
  | nil => exact .slnil
  | cons y ys ih => exact (List.filter_sublist.trans ih).cons_cons y

/-- One thing, however often it is listed. -/
theorem distinct_constant {x : α} {l : List α} (some_ : l ≠ []) (all : ∀ y ∈ l, y = x) : distinct l = [x] := by
  have only : ∀ y ∈ distinct l, y = x := fun y hy => all y (mem_distinct.mp hy)
  have named : x ∈ distinct l := by
    obtain ⟨y, hy⟩ := List.exists_mem_of_ne_nil l some_
    exact mem_distinct.mpr (all y hy ▸ hy)
  cases h : distinct l with
  | nil => simp [h] at named
  | cons y ys =>
    rw [h] at only
    have nodup := h ▸ nodup_distinct l
    obtain rfl := only y (List.mem_cons_self ..)
    cases ys with
    | nil => rfl
    | cons z zs =>
      have := only z (by simp)
      simp [this] at nodup

/-- The groups of a list by a key, for keys that cover it, hold what the list holds. -/
theorem flatMap_filter_perm {β : Type} (key : β → α) {ks : List α} (nodup : ks.Nodup) {l : List β} (cover : ∀ x ∈ l, key x ∈ ks) :
    (ks.flatMap fun k => l.filter fun x => key x = k).Perm l := by
  induction ks generalizing l with
  | nil =>
    have empty : l = [] := List.eq_nil_iff_forall_not_mem.mpr fun x hx => nomatch cover x hx
    rw [empty]
    exact .refl _
  | cons k ks ih =>
    obtain ⟨away, nodup⟩ := List.nodup_cons.mp nodup
    have rest := ih nodup (l := l.filter fun x => !decide (key x = k)) fun x hx => by
      obtain ⟨hx, other⟩ := List.mem_filter.mp hx
      exact (List.mem_cons.mp (cover x hx)).resolve_left (by simpa using other)
    have same : (ks.flatMap fun k' => (l.filter fun x => !decide (key x = k)).filter fun x => key x = k') =
        ks.flatMap fun k' => l.filter fun x => key x = k' := by
      refine List.flatMap_congr fun k' hk' => ?_
      rw [List.filter_filter]
      refine List.filter_congr fun x _ => ?_
      have other : k' ≠ k := fun e => away (e ▸ hk')
      by_cases own : key x = k' <;> simp [own, other]
    rw [same] at rest
    rw [List.flatMap_cons]
    exact (rest.append_left _).trans (List.filter_append_perm _ _)

end Distinct

/-! ### The batch by stamp and seat (R27) -/

/-- The order of bySeat. -/
abbrev CaptureRecord.comesFirst (now : ChamberTime) (x y : CaptureRecord) : Bool :=
  age now y.stamp < age now x.stamp ∨ age now y.stamp = age now x.stamp ∧ x.seat ≤ y.seat

/-- Stamps of one age are one stamp. -/
theorem age_inj {now a b : ChamberTime} (h : age now a = age now b) : a = b := by
  unfold age at h
  bv_omega

theorem bySeat_perm (now : ChamberTime) (batch : List CaptureRecord) : (bySeat now batch).Perm batch := sortBy_perm _ _

/-- The records by seat are in that order. -/
theorem bySeat_pairwise (now : ChamberTime) (batch : List CaptureRecord) :
    (bySeat now batch).Pairwise fun x y => CaptureRecord.comesFirst now x y = true := by
  refine sortBy_pairwise (le := CaptureRecord.comesFirst now) (fun x y h => ?_) (fun x y z h g => ?_) batch
  · simp only [CaptureRecord.comesFirst, decide_eq_false_iff_not, decide_eq_true_eq] at h ⊢
    omega
  · simp only [CaptureRecord.comesFirst, decide_eq_true_eq] at h g ⊢
    omega

/-- The oldest stamp comes first. -/
theorem bySeat_byAge (now : ChamberTime) (batch : List CaptureRecord) :
    (bySeat now batch).Pairwise fun x y => age now y.stamp ≤ age now x.stamp :=
  (bySeat_pairwise now batch).imp fun h => by
    simp only [CaptureRecord.comesFirst, decide_eq_true_eq] at h
    omega

/-- The lower seat comes first among equal stamps. -/
theorem bySeat_ties (now : ChamberTime) (batch : List CaptureRecord) :
    (bySeat now batch).Pairwise fun x y => x.stamp = y.stamp → x.seat ≤ y.seat :=
  (bySeat_pairwise now batch).imp fun h same => by
    simp only [CaptureRecord.comesFirst, decide_eq_true_eq, same] at h
    omega

/-- The records of one seat and stamp keep their order. -/
theorem bySeat_filter (now : ChamberTime) (batch : List CaptureRecord) {p : CaptureRecord → Bool} {n : Nat} {t : ChamberTime}
    (h : ∀ r, p r = true → r.seat = n ∧ r.stamp = t) : (bySeat now batch).filter p = batch.filter p := by
  refine sortBy_filter (fun x y hx hy => ?_) batch
  obtain ⟨seatX, stampX⟩ := h x hx
  obtain ⟨seatY, stampY⟩ := h y hy
  simp [seatX, seatY, stampX, stampY]

/-! ### The draws of the tie groups (R28) -/

/-- A drawn group holds what the group holds. -/
theorem drawGroup_perm (w : Word) (group : List CaptureRecord) : (drawGroup w group).1.Perm group := by
  refine (List.Perm.flatMap_right _ (drawOrder_perm w (distinct (group.map (·.seat))))).trans ?_
  exact flatMap_filter_perm CaptureRecord.seat (nodup_distinct _) fun r hr => mem_distinct.mpr (List.mem_map_of_mem hr)

/-- The records of one seat keep their order in a drawn group. -/
theorem drawGroup_filter (w : Word) (group : List CaptureRecord) {p : CaptureRecord → Bool} {n : Nat} (h : ∀ r, p r = true → r.seat = n) :
    (drawGroup w group).1.filter p = group.filter p := by
  have nodup : (drawOrder w (distinct (group.map (·.seat)))).1.Nodup :=
    (drawOrder_perm w _).nodup_iff.mpr (nodup_distinct _)
  have named : n ∉ (drawOrder w (distinct (group.map (·.seat)))).1 → group.filter p = [] := by
    intro away
    refine List.filter_eq_nil_iff.mpr fun r hr hp => away ((drawOrder_perm w _).mem_iff.mpr (mem_distinct.mpr ?_))
    exact h r hp ▸ List.mem_map_of_mem hr
  show ((drawOrder w (distinct (group.map (·.seat)))).1.flatMap fun n => group.filter (·.seat = n)).filter p = _
  generalize (drawOrder w (distinct (group.map (·.seat)))).1 = seats at nodup named
  have part (m : Nat) : (group.filter (·.seat = m)).filter p = if m = n then group.filter p else [] := by
    rw [List.filter_filter]
    by_cases own : m = n
    · rw [if_pos own]
      refine List.filter_congr fun r _ => ?_
      by_cases hp : p r = true
      · simp [hp, h r hp, own]
      · simp [hp]
    · rw [if_neg own]
      refine List.filter_eq_nil_iff.mpr fun r _ hr => own ?_
      rw [Bool.and_eq_true] at hr
      obtain ⟨hp, hm⟩ := hr
      exact (of_decide_eq_true hm).symm.trans (h r hp)
  induction seats with
  | nil => rw [named (by simp)]; rfl
  | cons m ms ih =>
    obtain ⟨away, nodup⟩ := List.nodup_cons.mp nodup
    rw [List.flatMap_cons, List.filter_append, part]
    by_cases own : m = n
    · subst own
      have rest : (ms.flatMap fun n => group.filter (·.seat = n)).filter p = [] := by
        refine List.filter_eq_nil_iff.mpr fun r hr hp => away ?_
        obtain ⟨k, hk, hr⟩ := List.mem_flatMap.mp hr
        have seat : r.seat = k := of_decide_eq_true (List.mem_filter.mp hr).2
        exact (h r hp ▸ seat) ▸ hk
      rw [rest, if_pos rfl, List.append_nil]
    · rw [if_neg own, List.nil_append]
      exact ih nodup fun away => named (by simp [Ne.symm own, away])

/-- The tie groups of these stamps, each put into drawn order, and the draw state after them. -/
def drawStamps (ordered : List CaptureRecord) : List ChamberTime → Word → List CaptureRecord × Word
  | [], w => ([], w)
  | t :: ts, w =>
    let group := drawGroup w (ordered.filter (·.stamp = t))
    let rest := drawStamps ordered ts group.2
    (group.1 ++ rest.1, rest.2)

/-- The batch in drawn order is its tie groups in drawn order. -/
theorem drawBatch_eq (w : Word) (ordered : List CaptureRecord) :
    drawBatch w ordered = drawStamps ordered (distinct (ordered.map (·.stamp))) w := by
  unfold drawBatch
  have walk (ts : List ChamberTime) (done : List CaptureRecord) (w : Word) :
      ts.foldl (fun (done, w) t =>
        let (group, w') := drawGroup w (ordered.filter (·.stamp = t))
        (done ++ group, w')) (done, w) = (done ++ (drawStamps ordered ts w).1, (drawStamps ordered ts w).2) := by
    induction ts generalizing done w with
    | nil => simp [drawStamps]
    | cons t ts ih =>
      rw [List.foldl_cons]
      exact (ih _ _).trans (Prod.ext (List.append_assoc _ _ _) rfl)
  exact (walk _ [] w).trans (by simp)

section DrawStamps

variable {ordered : List CaptureRecord}

/-- The groups in drawn order hold what the groups hold. -/
theorem drawStamps_perm (ts : List ChamberTime) (w : Word) :
    (drawStamps ordered ts w).1.Perm (ts.flatMap fun t => ordered.filter (·.stamp = t)) := by
  induction ts generalizing w with
  | nil => exact .refl _
  | cons t ts ih => exact (drawGroup_perm w _).append (ih _)

/-- The stamp of a record in drawn order is one of the stamps. -/
theorem stamp_of_mem_drawStamps {ts : List ChamberTime} {w : Word} {r : CaptureRecord} (h : r ∈ (drawStamps ordered ts w).1) :
    r.stamp ∈ ts := by
  obtain ⟨t, ht, hr⟩ := List.mem_flatMap.mp ((drawStamps_perm ts w).mem_iff.mp h)
  have stamp : r.stamp = t := of_decide_eq_true (List.mem_filter.mp hr).2
  exact stamp ▸ ht

/-- The stamp of a record in a drawn group. -/
theorem stamp_of_mem_drawGroup {t : ChamberTime} {w : Word} {r : CaptureRecord}
    (h : r ∈ (drawGroup w (ordered.filter (·.stamp = t))).1) : r.stamp = t :=
  of_decide_eq_true (List.mem_filter.mp ((drawGroup_perm w _).mem_iff.mp h)).2

/-- The groups in drawn order follow each other as their stamps do. -/
theorem drawStamps_pairwise {now : ChamberTime} {ts : List ChamberTime} (h : ts.Pairwise fun a b => age now b ≤ age now a) (w : Word) :
    (drawStamps ordered ts w).1.Pairwise fun x y => age now y.stamp ≤ age now x.stamp := by
  induction ts generalizing w with
  | nil => exact .nil
  | cons t ts ih =>
    obtain ⟨below, rest⟩ := List.pairwise_cons.mp h
    refine List.pairwise_append.mpr ⟨?_, ih rest _, fun x hx y hy => ?_⟩
    · refine List.pairwise_of_forall_mem_list fun x hx y hy => ?_
      rw [stamp_of_mem_drawGroup hx, stamp_of_mem_drawGroup hy]
    · rw [stamp_of_mem_drawGroup hx]
      exact below _ (stamp_of_mem_drawStamps hy)

/-- The records of one seat and stamp keep their order. -/
theorem drawStamps_filter {ts : List ChamberTime} (nodup : ts.Nodup) {p : CaptureRecord → Bool} {n : Nat} {t : ChamberTime}
    (h : ∀ r, p r = true → r.seat = n ∧ r.stamp = t) (w : Word) :
    (drawStamps ordered ts w).1.filter p = if t ∈ ts then ordered.filter p else [] := by
  induction ts generalizing w with
  | nil => rfl
  | cons a ts ih =>
    obtain ⟨away, nodup⟩ := List.nodup_cons.mp nodup
    show ((drawGroup w (ordered.filter (·.stamp = a))).1 ++ (drawStamps ordered ts _).1).filter p = _
    rw [List.filter_append, drawGroup_filter w _ (fun r hr => (h r hr).1), ih nodup, List.filter_filter]
    by_cases own : t = a
    · subst own
      rw [if_neg away, List.append_nil, if_pos (List.mem_cons_self ..)]
      refine List.filter_congr fun r _ => ?_
      by_cases hp : p r = true
      · simp [hp, (h r hp).2]
      · simp [hp]
    · have none_ : (ordered.filter fun r => p r && decide (r.stamp = a)) = [] := by
        refine List.filter_eq_nil_iff.mpr fun r _ hr => own ?_
        rw [Bool.and_eq_true] at hr
        obtain ⟨hp, ha⟩ := hr
        exact ((h r hp).2).symm.trans (of_decide_eq_true ha)
      rw [none_, List.nil_append]
      simp [own]

end DrawStamps

/-! ### The order of the batch -/

section Order

variable (now : ChamberTime) (p : Policy) (w : Word) (batch : List CaptureRecord)

theorem orderBatch_seat (h : p.tieOrder = .seat) : orderBatch now p w batch = (bySeat now batch, w) := by
  unfold orderBatch
  rw [h]

theorem orderBatch_draw (h : p.tieOrder = .draw) : orderBatch now p w batch =
    drawStamps (bySeat now batch) (distinct ((bySeat now batch).map (·.stamp))) w := by
  unfold orderBatch
  rw [h]
  exact drawBatch_eq _ _

/-- The order holds what the batch holds. -/
theorem orderBatch_perm : (orderBatch now p w batch).1.Perm batch := by
  cases tie : p.tieOrder with
  | seat =>
    rw [orderBatch_seat now p w batch tie]
    exact bySeat_perm now batch
  | draw =>
    rw [orderBatch_draw now p w batch tie]
    refine (drawStamps_perm _ w).trans ((flatMap_filter_perm CaptureRecord.stamp (nodup_distinct _) fun r hr => ?_).trans (bySeat_perm now batch))
    exact mem_distinct.mpr (List.mem_map_of_mem hr)

/-- The oldest stamp comes first. -/
theorem orderBatch_byAge : (orderBatch now p w batch).1.Pairwise fun x y => age now y.stamp ≤ age now x.stamp := by
  cases tie : p.tieOrder with
  | seat =>
    rw [orderBatch_seat now p w batch tie]
    exact bySeat_byAge now batch
  | draw =>
    rw [orderBatch_draw now p w batch tie]
    refine drawStamps_pairwise (List.Pairwise.sublist (distinct_sublist _) ?_) w
    exact List.pairwise_map.mpr (bySeat_byAge now batch)

/-- The records of one seat and stamp keep their order. -/
theorem orderBatch_filter (n : Nat) (t : ChamberTime) :
    ((orderBatch now p w batch).1.filter fun r => r.seat = n ∧ r.stamp = t) = batch.filter fun r => r.seat = n ∧ r.stamp = t := by
  have own (r : CaptureRecord) (h : decide (r.seat = n ∧ r.stamp = t) = true) : r.seat = n ∧ r.stamp = t := of_decide_eq_true h
  cases tie : p.tieOrder with
  | seat =>
    rw [orderBatch_seat now p w batch tie]
    exact bySeat_filter now batch own
  | draw =>
    rw [orderBatch_draw now p w batch tie, drawStamps_filter (nodup_distinct _) own w]
    split
    · exact bySeat_filter now batch own
    · next away =>
      refine Eq.symm (List.filter_eq_nil_iff.mpr fun r hr h => away (mem_distinct.mpr ?_))
      exact (own r h).2 ▸ List.mem_map_of_mem ((bySeat_perm now batch).mem_iff.mpr hr)

/-- A batch of one stamp is one tie group, drawn from its seats in order. -/
theorem orderBatch_group (tie : p.tieOrder = .draw) {t : ChamberTime} {seats : List Nat} (one : ∀ r ∈ batch, r.stamp = t)
    (some_ : batch ≠ []) (order : seats.Pairwise (· < ·)) (named : ∀ n, n ∈ seats ↔ ∃ r ∈ batch, r.seat = n) :
    orderBatch now p w batch =
      ((drawOrder w seats).1.flatMap fun n => batch.filter fun r => r.seat = n, (drawOrder w seats).2) := by
  have perm := bySeat_perm now batch
  have one' : ∀ r ∈ bySeat now batch, r.stamp = t := fun r hr => one r (perm.mem_iff.mp hr)
  have some' : bySeat now batch ≠ [] := fun e => some_ (List.Perm.nil_eq (e ▸ perm)).symm
  have group : (bySeat now batch).filter (·.stamp = t) = bySeat now batch :=
    List.filter_eq_self.mpr fun r hr => decide_eq_true (one' r hr)
  have stamps : distinct ((bySeat now batch).map (·.stamp)) = [t] :=
    distinct_constant (by simpa using some') fun x hx => by
      obtain ⟨r, hr, rfl⟩ := List.mem_map.mp hx
      exact one' r hr
  have ascending : (distinct ((bySeat now batch).map (·.seat))).Pairwise (· ≤ ·) := by
    refine List.Pairwise.sublist (distinct_sublist _) (List.pairwise_map.mpr ?_)
    exact ((bySeat_ties now batch).imp_of_mem fun hx hy h => h ((one' _ hx).trans (one' _ hy).symm))
  have same : distinct ((bySeat now batch).map (·.seat)) = seats := by
    refine List.Perm.eq_of_pairwise (le := (· ≤ ·)) (fun a b _ _ h g => Nat.le_antisymm h g) ascending (order.imp Nat.le_of_lt) ?_
    refine (List.perm_ext_iff_of_nodup (nodup_distinct _) (order.imp Nat.ne_of_lt)).mpr fun n => ?_
    rw [mem_distinct, named, List.mem_map]
    exact exists_congr fun r => and_congr_left fun _ => perm.mem_iff
  rw [orderBatch_draw now p w batch tie, stamps]
  show ((drawGroup w ((bySeat now batch).filter (·.stamp = t))).1 ++ [], (drawGroup w ((bySeat now batch).filter (·.stamp = t))).2) = _
  rw [group, List.append_nil]
  show ((drawOrder w (distinct ((bySeat now batch).map (·.seat)))).1.flatMap fun n => (bySeat now batch).filter (·.seat = n),
    (drawOrder w (distinct ((bySeat now batch).map (·.seat)))).2) = _
  rw [same]
  refine Prod.ext (List.flatMap_congr fun n _ => ?_) rfl
  have narrow (l : List CaptureRecord) (h : ∀ r ∈ l, r.stamp = t) :
      (l.filter fun r => r.seat = n) = l.filter fun r => r.seat = n ∧ r.stamp = t :=
    List.filter_congr fun r hr => by simp [h r hr]
  rw [narrow _ one', narrow _ one]
  exact bySeat_filter now batch fun r h => of_decide_eq_true h

end Order

end Sys2Proof.Machine
end

section
/-! SUPPORT. The intake as a whole: what it takes, the records it drops, and a batch of joins (R25, R26, R31), and with these the
obligation of the intake. -/

namespace Sys2Proof.Machine

section Intake

variable {s : State}

/-! ### What an intake leaves (R25, R26) -/

/-- A held intake is counted and takes nothing. -/
theorem exec_intake_held {k : Nat} (due : s.due.intake = k + 1) (held : s.pins.hold = true ∨ s.floor.hold = .held) :
    exec .intake s = .next { s with due := { s.due with intake := k } } := by
  show execIntake s = _
  unfold execIntake
  have shut : State.intakeHeld { s with due := { s.due with intake := k } } = true := by
    rcases held with h | h <;> simp [State.intakeHeld, h]
  rw [due, if_pos (Nat.succ_pos k)]
  exact congrArg Host.Outcome.next (if_pos shut)

/-- After its records are taken an intake is the Floor Engine's work alone. -/
theorem intake_after (s : State) : (Claim.drained s).st.FloorFrame (s.intakeTaken.event Claim.intake) := by
  refine .trans ?_ (State.event_after _ _)
  have told (ns : List Notice) : (Claim.drained s).st.FloorFrame (ns.foldl Claim.notify (Claim.drained s)).st :=
    Claim.foldl_frame _ (fun c n h => Claim.notify_frame h n) ns (.refl _)
  have applied (ns : List Notice) (l : List CaptureRecord) (f : Floor → Floor) :
      (Claim.drained s).st.FloorFrame (l.foldl Claim.applyRecord ((ns.foldl Claim.notify (Claim.drained s)).modFloor f)).st :=
    Claim.foldl_frame _ (fun c r h => Claim.applyRecord_frame h r) l ((told ns).trans (.modFloor _ f))
  unfold Claim.intake
  dsimp only
  split <;> exact applied _ _ _

/-- A trunk whose records are taken. -/
theorem drained_trunk (s : State) (i : TrunkNo) : (Claim.drained s).st.trunk i =
    { s.trunk i with fifo := (s.trunk i).fifo.filter fun r => !reached s.time (r.stamp + 1) } := by
  unfold Claim.drained State.trunk
  simp [Claim.lift]

/-! ### Records that are dropped (R2, R26) -/

/-- An empty batch is in order. -/
theorem orderBatch_nil (now : ChamberTime) (p : Policy) (w : Word) : orderBatch now p w [] = ([], w) := by
  unfold orderBatch
  cases p.tieOrder <;> rfl

/-- An intake whose one record is dropped raises its notice alone. -/
theorem intake_stray {r : CaptureRecord} {n : Notice} (taken : s.taken = [r]) (stray : s.strayNotice r = some n) :
    s.intakeTaken.event Claim.intake = ((Claim.drained s).notify n).st := by
  have taken : ((Claim.start s.intakeTaken).st.trunks.toList.flatMap fun e =>
      e.fifo.filter (·.qualifies (Claim.start s.intakeTaken).time)) = [r] := taken
  have stray : (Claim.start s.intakeTaken).st.strayNotice r = some n := stray
  have body : (Claim.start s.intakeTaken).intake = (Claim.drained s).notify n := by
    unfold Claim.intake
    dsimp only
    rw [taken]
    simp only [List.filterMap_cons, stray, List.filterMap_nil, List.foldl_cons, List.foldl_nil, List.filter_cons, List.filter_nil,
      Option.isNone_some, Bool.false_eq_true, if_false, orderBatch_nil, if_true]
    rfl
  have still := State.event_of_still (s := s.intakeTaken) (body := Claim.intake) (by rw [body]; exact ⟨rfl, rfl⟩)
    (by rw [body]; rfl) (by rw [body]; rfl) (by rw [body]; rfl)
  rw [still, body]

/-! ### A batch of joins (R31, R32) -/

/-- The entry of a record's REQ press. -/
def CaptureRecord.entry (r : CaptureRecord) : RequestEntry := ⟨r.seat, .button, r.stamp, none⟩

/-- The claim has put these records' entries at the tail of the request list, and has changed nothing else of the floor but the draw
state, and no seat. -/
structure Claim.Joined (s : State) (w : Word) (done : List CaptureRecord) (c : Claim) : Prop where
  floor : c.floor = { s.floor with requests := s.floor.requests ++ done.map CaptureRecord.entry, draw := w }
  seats : c.st.seats = s.seats
  took : c.tookEntry = false

/-- An idle seat that has not joined is idle. -/
theorem Claim.Joined.idle {w : Word} {done : List CaptureRecord} {c : Claim} (h : c.Joined s w done) {n : Nat}
    (idle : s.floorState n = .idle) (away : n ∉ done.map (·.seat)) : c.st.floorState n = .idle := by
  have none_ : s.floor.requestOf n = none := by
    by_contra some_
    unfold State.floorState at idle
    rw [if_pos (Option.isSome_iff_ne_none.mpr some_)] at idle
    exact absurd idle (by decide)
  have joined : c.st.floor.requestOf n = none := by
    rw [show c.st.floor = _ from h.floor]
    refine Floor.requestOf_eq_none.mpr fun e he => ?_
    rcases List.mem_append.mp he with he | he
    · exact Floor.requestOf_eq_none.mp none_ e he
    · obtain ⟨r, hr, rfl⟩ := List.mem_map.mp he
      exact fun own => away (List.mem_map.mpr ⟨r, hr, own⟩)
  unfold State.floorState at idle ⊢
  rw [joined]
  rw [none_] at idle
  rw [show c.st.floor = _ from h.floor]
  exact idle

/-- One more REQ press of an idle seat joins. -/
theorem Claim.Joined.press {w : Word} {done : List CaptureRecord} {c : Claim} (h : c.Joined s w done) {r : CaptureRecord}
    (opened : s.floor.gate = .opened) (unlimited : s.floor.policy.grantQuota = 0)
    (room : s.floor.requests.length + done.length < s.floor.policy.listMax) (presses : r.counts.presses = [.req])
    (may : s.mayPress r.seat .req) (idle : s.floorState r.seat = .idle) (away : r.seat ∉ done.map (·.seat)) :
    (c.applyRecord r).Joined s w (done ++ [r]) := by
  have seat : c.st.seat r.seat = s.seat r.seat := by
    unfold State.seat
    rw [h.seats]
  have mayStill : c.st.mayPress r.seat .req := by
    unfold State.mayPress
    rw [seat]
    exact may
  have length : c.floor.requests.length = s.floor.requests.length + done.length := by
    rw [h.floor]
    simp
  have policy : c.policy = s.floor.policy := (congrArg Floor.policy h.floor).trans rfl
  have joins : c.applyRecord r = c.enqueue c.floor.requests.length r.entry := by
    unfold Claim.applyRecord
    rw [presses]
    show c.press r.seat r.stamp .req = _
    rw [Claim.press_eq mayStill]
    refine ((c.pressReq_cases r.seat r.stamp).2.2.2.2 (h.idle idle away)).trans ?_
    refine (((c.joinRequests_cases r.seat r.stamp).2 ?_).2 (.inl ?_)).2 ?_
    · rw [h.floor]
      exact opened
    · rw [policy]
      exact unlimited
    · rw [policy, length]
      exact room
  rw [joins]
  have entered := (Claim.Shows.self c).enqueue c.floor.requests.length r.entry
  refine ⟨?_, ?_, ?_⟩
  · rw [entered.floor]
    show { c.floor with requests := c.floor.requests.insertIdx c.floor.requests.length r.entry } = _
    rw [List.insertIdx_length_self, h.floor, List.map_append, ← List.append_assoc]
    rfl
  · rw [← h.seats]
    unfold Claim.enqueue
    rw [Claim.touch_seats, Claim.notify_seats, Claim.trackHead_seats]
    rfl
  · rw [← h.took]
    simp [Claim.enqueue]

/-- A batch of REQ presses of idle seats joins in its order. -/
theorem Claim.Joined.batch {w : Word} (opened : s.floor.gate = .opened) (unlimited : s.floor.policy.grantQuota = 0)
    (l done : List CaptureRecord) {c : Claim} (h : c.Joined s w done)
    (room : s.floor.requests.length + (done ++ l).length ≤ s.floor.policy.listMax) (once : ((done ++ l).map (·.seat)).Nodup)
    (all : ∀ r ∈ l, r.counts.presses = [.req] ∧ s.mayPress r.seat .req ∧ s.floorState r.seat = .idle) :
    (l.foldl Claim.applyRecord c).Joined s w (done ++ l) := by
  induction l generalizing done c with
  | nil => simpa using h
  | cons r l ih =>
    obtain ⟨presses, may, idle⟩ := all r (List.mem_cons_self ..)
    have away : r.seat ∉ done.map (·.seat) := by
      rw [List.map_append, List.map_cons] at once
      exact fun mem => (List.nodup_append.mp once).2.2 _ mem _ (List.mem_cons_self ..) rfl
    have next_ := h.press opened unlimited (by simp at room; omega) presses may idle away
    rw [List.foldl_cons, List.append_cons]
    exact ih (done ++ [r]) next_ (by rw [← List.append_cons]; exact room) (by rw [← List.append_cons]; exact once)
      fun q hq => all q (List.mem_cons_of_mem _ hq)

/-- The claim of an intake that drops no record. -/
theorem intake_kept (kept : ∀ r ∈ s.taken, s.strayNotice r = none) :
    (Claim.start s.intakeTaken).intake =
      if s.taken = [] then (orderBatch s.time s.floor.policy s.floor.draw s.taken).1.foldl Claim.applyRecord
        ((Claim.drained s).modFloor fun f => { f with draw := (orderBatch s.time s.floor.policy s.floor.draw s.taken).2 })
      else ((orderBatch s.time s.floor.policy s.floor.draw s.taken).1.foldl Claim.applyRecord
        ((Claim.drained s).modFloor fun f => { f with draw := (orderBatch s.time s.floor.policy s.floor.draw s.taken).2 })).fillPoint := by
  have taken : ((Claim.start s.intakeTaken).st.trunks.toList.flatMap fun e =>
      e.fifo.filter (·.qualifies (Claim.start s.intakeTaken).time)) = s.taken := rfl
  have notices : s.taken.filterMap (Claim.start s.intakeTaken).st.strayNotice = [] :=
    List.filterMap_eq_nil_iff.mpr kept
  have batch : (s.taken.filter fun r => ((Claim.start s.intakeTaken).st.strayNotice r).isNone) = s.taken :=
    List.filter_eq_self.mpr fun r hr => Option.isNone_iff_eq_none.mpr (kept r hr)
  unfold Claim.intake
  dsimp only
  rw [taken, notices, batch]
  rfl

/-- A batch of REQ joins appends its entries in its order, with one version for the batch. -/
theorem intake_joins (noFill : s.noFill) (opened : s.floor.gate = .opened) (unlimited : s.floor.policy.grantQuota = 0)
    (room : s.floor.requests.length + s.taken.length ≤ s.floor.policy.listMax) (once : (s.taken.map (·.seat)).Nodup)
    (all : ∀ r ∈ s.taken, s.seatAt r.trunk r.position = some r.seat ∧ s.isHere r.seat = true ∧ r.counts.presses = [.req] ∧
      s.mayPress r.seat .req ∧ s.floorState r.seat = .idle) :
    (s.intakeTaken.event Claim.intake).floor = { s.floor with
      requests := s.floor.requests ++ (orderBatch s.time s.floor.policy s.floor.draw s.taken).1.map CaptureRecord.entry
      draw := (orderBatch s.time s.floor.policy s.floor.draw s.taken).2
      listVersion := if s.taken = [] then s.floor.listVersion else s.floor.listVersion + 1 } := by
  have body := intake_kept (s := s) fun r hr => by
    obtain ⟨bound, here, -⟩ := all r hr
    exact strayNotice_none bound here
  have perm := orderBatch_perm s.time s.floor.policy s.floor.draw s.taken
  generalize (orderBatch s.time s.floor.policy s.floor.draw s.taken).1 = l at body perm ⊢
  generalize (orderBatch s.time s.floor.policy s.floor.draw s.taken).2 = w at body ⊢
  have start : ((Claim.drained s).modFloor fun f => { f with draw := w }).Joined s w [] :=
    ⟨by rw [List.map_nil, List.append_nil]; rfl, rfl, rfl⟩
  have joined := Claim.Joined.batch opened unlimited l [] start (by rw [List.nil_append, perm.length_eq]; exact room)
    (by rw [List.nil_append]; exact (perm.map _).nodup_iff.mpr once) fun r hr => by
      obtain ⟨-, -, presses, may, idle⟩ := all r (perm.mem_iff.mp hr)
      exact ⟨presses, may, idle⟩
  rw [List.nil_append] at joined
  have done : ((Claim.start s.intakeTaken).intake).Joined s w l := by
    rw [body]
    split
    · exact joined
    · exact ⟨joined.floor, joined.seats, joined.took⟩
  have quiet : ((Claim.start s.intakeTaken).intake).st.noFill :=
    State.noFill_congr noFill ((congrArg Floor.phase done.floor).trans rfl) ((congrArg Floor.policy done.floor).trans rfl)
  obtain ⟨floor, -⟩ := State.event_shown (s := s.intakeTaken) (body := Claim.intake) (Claim.Shows.self _)
    (Claim.settleFloor_noFill _ quiet)
  have due : s.intakeTaken.versionDue (Claim.start s.intakeTaken).intake = decide (s.taken ≠ []) := by
    unfold State.versionDue
    rw [done.took, done.floor, Bool.or_false]
    refine decide_eq_decide.mpr (not_congr ?_)
    have empty : l = [] ↔ s.taken = [] := by rw [← List.length_eq_zero_iff, perm.length_eq, List.length_eq_zero_iff]
    show s.floor.requests = s.floor.requests ++ l.map CaptureRecord.entry ↔ _
    rw [← empty, List.self_eq_append_right, List.map_eq_nil_iff]
  rw [floor, due, State.counted_floor, show (Claim.start s.intakeTaken).intake.st.floor = _ from done.floor]
  by_cases empty : s.taken = []
  · simp [empty]
  · simp [empty]

end Intake

/-- Settles O43: the intake as an event of its own, one press at a time, the order of the batch, and the batch of joins. -/
theorem intake : Obligations.Intake := by
  unfold Obligations.Intake
  refine ⟨fun k s due => ⟨exec_intake_held due, fun high hold => ?_⟩,
    fun s r due high hold taken => ⟨fun away => ?_, fun bound gone => ?_⟩,
    ⟨?_, ?_, ?_⟩, fun s r b x one bound => ⟨fun other => ?_, fun own off => ?_⟩, fun s r one may => ?_, fun s r one may => ?_,
    fun now p w batch => ⟨orderBatch_perm now p w batch, orderBatch_byAge now p w batch, orderBatch_filter now p w batch,
      fun tie => ?_, fun tie stamp seats one some_ order named => orderBatch_group now p w batch tie one some_ order named⟩,
    fun s due high hold noFill opened unlimited room once all => ?_⟩
  · have frame := intake_after s
    refine ⟨_, exec_intake (by omega) high hold, ?_, fun i => ?_, frame.timeBase, frame.ports⟩
    · rw [frame.due]
      show ({ s.due with intake := s.due.intake - 1 } : AdvanceDue) = _
      rw [due, Nat.add_sub_cancel]
    · rw [frame.trunks i]
      exact congrArg TrunkEngine.fifo (drained_trunk s i)
  · have stray : s.strayNotice r = some ⟨.stray, .trunk r.trunk, none, [detailOf r.position, detailOf r.seat]⟩ := if_pos away
    refine ⟨_, exec_intake due high hold, ?_⟩
    rw [intake_stray taken stray]
    exact ⟨rfl, rfl, rfl⟩
  · have stray : s.strayNotice r = some ⟨.stray, .seat r.seat, some (codeIn presenceRow (s.seat r.seat).presence), []⟩ := by
      unfold State.strayNotice
      rw [if_neg (not_not.mpr bound), if_neg (by rw [gone]; decide)]
      rfl
    refine ⟨_, exec_intake due high hold, ?_⟩
    rw [intake_stray taken stray]
    exact ⟨rfl, rfl, rfl⟩
  · intro k b
    cases k <;> cases b <;> decide
  · intro req rpl
    have bit (x : BitVec 4) : x.getLsbD 0 = true ↔ x.toNat % 2 = 1 := by simp [BitVec.getLsbD, Nat.testBit_zero]
    simp only [PressCounts.presses, bit]
  · intro mic next cut prio
    have bit (x : BitVec 4) : x.getLsbD 0 = true ↔ x.toNat % 2 = 1 := by simp [BitVec.getLsbD, Nat.testBit_zero]
    have some_ (x : BitVec 4) : x ≠ 0 ↔ 1 ≤ x.toNat := by bv_omega
    simp only [PressCounts.presses, bit, some_]
  · exact ⟨_, exec_onePress one, onePress_refuses one (press_otherClass bound other)⟩
  · exact ⟨_, exec_onePress one, onePress_refuses one (press_disabled bound own off)⟩
  · obtain ⟨waiting, live, replying, held, idle⟩ := (Claim.drained s).pressReq_cases r.seat r.stamp
    refine ⟨_, exec_onePress one, fun found => ?_, fun found => ⟨fun shut => ?_, fun i d self slot hd => ?_⟩,
      fun found => ?_, fun found => ?_, fun found => ?_⟩
    · exact onePress_cancels found ((press_req may).trans (waiting found))
    · refine onePress_refuses one ((press_req may).trans ((live found).trans (if_neg ?_)))
      rw [show (Claim.drained s).policy = s.floor.policy from rfl, shut]
      decide
    · refine onePress_closes hd (why := .self) ((press_req may).trans ((live found).trans ((if_pos self).trans ?_)))
      unfold Claim.closeSlotOf
      rw [show (Claim.drained s).floor = s.floor from rfl, slot]
    · exact onePress_refuses one ((press_req may).trans (replying found))
    · exact onePress_refuses one ((press_req may).trans (held found))
    · have joins := (press_req may).trans (idle found)
      obtain ⟨shut, opened⟩ := (Claim.drained s).joinRequests_cases r.seat r.stamp
      refine ⟨fun h => onePress_refuses one (joins.trans (shut h)), fun h => ?_⟩
      obtain ⟨quota, below⟩ := opened h
      refine ⟨fun limited spent => onePress_refuses one (joins.trans (quota limited spent)), fun h => ?_⟩
      obtain ⟨full, room⟩ := below h
      exact ⟨fun h => onePress_refuses one (joins.trans (full h)), fun h => onePress_joins (joins.trans (room h))⟩
  · refine ⟨_, exec_onePress one, fun none_ => ?_, fun j x own slot => ?_⟩
    · obtain ⟨busy, opens⟩ := pressMic_opens none_
      exact ⟨fun h => onePress_refuses one ((press_mic may).trans (busy h)), fun j h =>
        onePress_opensChair ((press_mic may).trans (opens j h))⟩
    · obtain ⟨priority, mic⟩ := pressMic_closes own slot
      have seat : x.seat = r.seat := by
        obtain ⟨e, he, hn⟩ := Floor.chairOf_some own
        rw [slot] at he
        exact Option.some.inj he ▸ hn
      exact ⟨fun h => onePress_refuses one ((press_mic may).trans (priority h)), fun h =>
        onePress_closesChair slot seat ((press_mic may).trans (mic h))⟩
  · rw [orderBatch_seat now p w batch tie]
    exact ⟨rfl, bySeat_ties now batch⟩
  · exact ⟨_, exec_intake due high hold, intake_joins noFill opened unlimited room once all⟩

end Sys2Proof.Machine
end

section
/-! SUPPORT. What a push leaves of the floor: the overflow of a full stack, the frame, the chair slot and the phase (R104 to R109). -/

namespace Sys2Proof.Machine

open Claim

/-! ### The overflow (R108, R109) -/

/-- A stack of four frames. -/
theorem stack_four {l : List StackFrame} (h : l.length = 4) : ∃ a b c d, l = [a, b, c, d] := by
  match l, h with
  | [a, b, c, d], _ => exact ⟨a, b, c, d, rfl⟩

/-- A stack with room has no overflow. -/
theorem Floor.overflowed_room {f : Floor} (h : f.stack.length < 4) (src : Source) : f.overflowed src = (f, none) := by
  unfold Floor.overflowed
  split
  · next a b c d stack => rw [stack] at h; exact absurd h (by simp)
  · rfl

namespace Claim

variable {c : Claim}

theorem overflow_room (h : c.floor.stack.length < 4) (src : Source) : c.overflow src = (c, none) := by
  unfold overflow
  split
  · rfl
  · exact if_pos h

/-- What a full stack's overflow does before the chair state of the discarded frame is given (R108). -/
def discardBottom (c : Claim) (d : StackFrame) : Claim :=
  (((c.modFloor fun f => { f with stack := handPhase d f.stack.dropLast }).notify (frameDiscarded d .limit)).raise .stack).touchAll
    (heldSeats d)

theorem discardBottom_floor {x y z d : StackFrame} (stack : c.floor.stack = [x, y, z, d]) : (c.discardBottom d).floor =
    { c.floor with stack := [x, y, { z with savedPhase := d.savedPhase, subject := d.subject }] } := by
  unfold discardBottom
  rw [touchAll_floor]
  show { c.floor with stack := handPhase d c.floor.stack.dropLast } = _
  rw [stack]
  rfl

/-- The overflow of a full stack (R109). -/
theorem overflow_full {x y z d : StackFrame} (stack : c.floor.stack = [x, y, z, d]) (src : Source) : c.overflow src =
    match d.source, d.chairState with
    | .seat n, some recorded =>
      match handChairState n (some recorded) (c.discardBottom d).floor.stack with
      | some frames => ((c.discardBottom d).modFloor fun f => { f with stack := frames }, none)
      | none =>
        if src = .seat n then (c.discardBottom d, some recorded)
        else ((c.discardBottom d).returnAtOverflow n recorded (overflowReason src), none)
    | _, _ => (c.discardBottom d, none) := by
  have full : ¬ c.floor.stack.length < Config.stackCapacity := by rw [stack]; exact Nat.lt_irrefl 4
  have last : c.floor.stack.getLast? = some d := by rw [stack]; rfl
  unfold overflow
  rw [last]
  dsimp only
  rw [if_neg full]
  rfl

/-- A seat's chair slot is returned to the recorded state. -/
theorem returnAtOverflow_floor (c : Claim) (n : Nat) (recorded : ChairState) (why : Reason) :
    (c.returnAtOverflow n recorded why).floor = { c.floor with chairs := c.floor.chairReturned n recorded } := by
  unfold returnAtOverflow Floor.chairReturned
  cases hi : c.floor.chairOf n with
  | none => rfl
  | some i =>
    cases recorded with
    | closed => exact closeChair_floor c i why
    | mic => exact setChairMode_floor c i .mic
    | priority => rfl

/-- The chair state goes to the lowest frame of the seat. -/
theorem handChairState_three (n : Nat) (r : Option ChairState) (x y z : StackFrame) : handChairState n r [x, y, z] =
    if z.source = .seat n then some [x, y, { z with chairState := r }]
    else if y.source = .seat n then some [x, { y with chairState := r }, z]
    else if x.source = .seat n then some [{ x with chairState := r }, y, z] else none := by
  by_cases hz : z.source = .seat n
  · simp [handChairState, hz]
  · by_cases hy : y.source = .seat n
    · simp [handChairState, hz, hy]
    · by_cases hx : x.source = .seat n <;> simp [handChairState, hz, hy, hx]

/-- The overflow leaves the floor of the statements (R108, R109). -/
theorem overflow_eq (h : c.floor.stack.length ≤ 4) (src : Source) :
    (c.overflow src).1.floor = (c.floor.overflowed src).1 ∧ (c.overflow src).2 = (c.floor.overflowed src).2 := by
  rcases Nat.lt_or_eq_of_le h with room | full
  · rw [overflow_room room, Floor.overflowed_room room]
    exact ⟨rfl, rfl⟩
  · obtain ⟨x, y, z, d, stack⟩ := stack_four full
    have bottom := discardBottom_floor stack
    rw [overflow_full stack, bottom]
    unfold Floor.overflowed
    rw [stack]
    dsimp only
    cases hs : d.source with
    | link l => exact ⟨bottom, rfl⟩
    | seat n =>
      cases hr : d.chairState with
      | none => exact ⟨bottom, rfl⟩
      | some r =>
        dsimp only
        rw [handChairState_three]
        by_cases hz : z.source = .seat n
        · rw [if_pos hz, if_pos hz]
          refine ⟨?_, rfl⟩
          rw [modFloor_floor, bottom]
        · rw [if_neg hz, if_neg hz]
          by_cases hy : y.source = .seat n
          · rw [if_pos hy, if_pos hy]
            refine ⟨?_, rfl⟩
            rw [modFloor_floor, bottom]
          · rw [if_neg hy, if_neg hy]
            by_cases hx : x.source = .seat n
            · rw [if_pos hx, if_pos hx]
              refine ⟨?_, rfl⟩
              rw [modFloor_floor, bottom]
            · rw [if_neg hx, if_neg hx]
              dsimp only
              by_cases own : src = .seat n
              · rw [if_pos own, if_pos own]
                exact ⟨bottom, rfl⟩
              · rw [if_neg own, if_neg own]
                refine ⟨?_, rfl⟩
                rw [returnAtOverflow_floor, bottom]
                rfl

/-! ### The frame, the chair slot and the phase (R105 to R107) -/

/-- The slots and the reply list move into the frame (R105). -/
theorem pushFrame_floor (c : Claim) (src : Source) (chair : Option ChairState) : (c.pushFrame src chair).floor =
    { c.floor.pushed (c.floor.frameOf c.time src chair) with phase := c.floor.phase } := by
  unfold pushFrame
  dsimp only
  rw [touchAll_floor]
  split <;> rfl

/-- The phase is INTERRUPTED (R107). -/
theorem reportPush_floor (c : Claim) (src : Source) : (c.reportPush src).floor = { c.floor with phase := .interrupted } := by
  unfold reportPush
  dsimp only
  exact setPhase_floor c .interrupted

/-- The push is reported with the INTERRUPT flag. -/
theorem reportPush_flagged (c : Claim) (src : Source) (l : Link) : (c.reportPush src).st.flagged l .interrupt :=
  State.flagged_raise _ l .interrupt

/-- The oldest MIC slot of two (R106). -/
theorem micChairsByAge_first {j k : Fin 2} {x y : ChairSlot} (other : j ≠ k) (hx : c.floor.chairs[j] = some x)
    (hy : c.floor.chairs[k] = some y) (mic : x.mode = .mic) (older : y.mode = .priority ∨ y.mode = .mic ∧
      (age c.time y.openedAt < age c.time x.openedAt ∨ age c.time y.openedAt = age c.time x.openedAt ∧ j < k)) :
    ∃ rest, c.micChairsByAge = (j, x) :: rest := by
  have places : chairPlaces = [0, 1] := rfl
  have two : j = 0 ∧ k = 1 ∨ j = 1 ∧ k = 0 := by omega
  unfold micChairsByAge
  rw [places]
  rcases two with ⟨rfl, rfl⟩ | ⟨rfl, rfl⟩
  all_goals simp only [List.filterMap_cons, List.filterMap_nil, hx, hy]
  · rcases older with priority | ⟨mic', older⟩
    · exact ⟨[], by simp [mic, priority, sortBy, insertBy]⟩
    · have first : age c.time y.openedAt ≤ age c.time x.openedAt := by omega
      exact ⟨[(1, y)], by simp [mic, mic', sortBy, insertBy, first]⟩
  · rcases older with priority | ⟨mic', older⟩
    · exact ⟨[], by simp [mic, priority, sortBy, insertBy]⟩
    · have second : ¬ age c.time x.openedAt ≤ age c.time y.openedAt := by
        rcases older with less | ⟨-, later⟩
        · omega
        · exact absurd later (by decide)
      exact ⟨[(0, y)], by simp [mic, mic', sortBy, insertBy, second]⟩

/-- The chair slot of a push (R106). -/
theorem takePriority_floor (c : Claim) (n : Nat) :
    (∀ (j : Fin 2) (x : ChairSlot), c.floor.chairOf n = some j → c.floor.chairs[j] = some x →
      (c.takePriority n).floor = { c.floor with chairs := c.floor.chairs.set j (some { x with mode := .priority }) }) ∧
    (c.floor.chairOf n = none →
      (∀ j, c.floor.freeChair = some j → (c.takePriority n).floor =
        { c.floor with chairs := c.floor.chairs.set j (some ⟨n, c.time, .priority⟩) }) ∧
      (c.floor.freeChair = none → ∀ j x rest, c.micChairsByAge = (j, x) :: rest → (c.takePriority n).floor =
        { c.floor with chairs := c.floor.chairs.set j (some ⟨n, c.time, .priority⟩) })) := by
  unfold takePriority
  refine ⟨fun j x own slot => ?_, fun none_ => ?_⟩
  · rw [own]
    dsimp only
    rw [setChairMode_floor, slot]
    rfl
  · rw [none_]
    dsimp only
    refine ⟨fun j free => ?_, fun full j x rest first => ?_⟩
    · rw [free]
      exact touch_floor _ _
    · rw [full, first]
      dsimp only
      have closed := closeChair_floor c j .bumped
      have time : (c.closeChair j .bumped).time = c.time :=
        congrArg TimeBase.chamberTime (closeChair_frame (.refl c.st) j .bumped).timeBase
      unfold openChair
      rw [touch_floor]
      rw [raise_floor, notify_floor, modFloor_floor, notify_floor, closed, show (Claim.notify _ _).time = c.time from time,
        Vector.set_set]

end Claim

/-! ### What the overflow leaves of a floor -/

/-- The overflow changes the stack and, of the chair slots, at most that of another seat than the source (R109). -/
theorem Floor.overflowed_rest (f : Floor) (src : Source) : (f.overflowed src).1 =
    { f with stack := (f.overflowed src).1.stack, chairs := (f.overflowed src).1.chairs } := by
  unfold Floor.overflowed
  repeat' split
  all_goals rfl

/-- Of the chair slots, the overflow changes that of another seat than the source. -/
theorem Floor.overflowed_chairs (f : Floor) (src : Source) : (f.overflowed src).1.chairs = f.chairs ∨
    ∃ n r, src ≠ .seat n ∧ (f.overflowed src).1.chairs = f.chairReturned n r := by
  unfold Floor.overflowed
  split
  · dsimp only
    split
    · split_ifs with hz hy hx own
      · exact .inl rfl
      · exact .inl rfl
      · exact .inl rfl
      · exact .inl rfl
      · exact .inr ⟨_, _, own, rfl⟩
    · exact .inl rfl
  · exact .inl rfl

/-- A chair slot returned to a state is in its place, or gone. -/
theorem Floor.chairReturned_other (f : Floor) {n m : Nat} (other : m ≠ n) (r : ChairState) (i : Fin 2) :
    ((f.chairReturned n r)[i].any fun d => d.seat = m) = f.chairs[i].any fun d => d.seat = m := by
  unfold Floor.chairReturned
  split
  · next j own =>
    obtain ⟨d, hd, hn⟩ := Floor.chairOf_some own
    by_cases at_ : j = i
    · subst at_
      simp [hd, hn, Ne.symm other]
    · have value : (j : Nat) ≠ i := fun e => at_ (Fin.ext e)
      simp [Vector.getElem_set_ne _ _ value]
  · next j own =>
    obtain ⟨d, hd, hn⟩ := Floor.chairOf_some own
    by_cases at_ : j = i
    · subst at_
      simp [hd, hn]
    · have value : (j : Nat) ≠ i := fun e => at_ (Fin.ext e)
      simp [Vector.getElem_set_ne _ _ value]
  · rfl

/-- The overflow leaves the source's chair slot in its place. -/
theorem Floor.overflowed_chairOf (f : Floor) (m : Nat) : (f.overflowed (.seat m)).1.chairOf m = f.chairOf m := by
  rcases f.overflowed_chairs (.seat m) with same | ⟨n, r, other, returned⟩
  · unfold Floor.chairOf
    rw [same]
  · have other : m ≠ n := fun e => other (e ▸ rfl)
    unfold Floor.chairOf
    rw [returned]
    exact List.find?_congr fun i _ => f.chairReturned_other other r i

/-- The frame of a push is that of the floor before the overflow. -/
theorem Floor.overflowed_frameOf (f : Floor) (src : Source) (now : ChamberTime) (from_ : Source) (chair : Option ChairState) :
    (f.overflowed src).1.frameOf now from_ chair = f.frameOf now from_ chair := by
  rw [f.overflowed_rest src]
  rfl

end Sys2Proof.Machine
end

section
/-! SUPPORT. The pushes: SUSPEND and the PRIO press of another seat than the top frame's source (R102 to R109). -/

namespace Sys2Proof.Machine

open Claim

namespace Claim

variable (c : Claim)

/-! ### The request list and chamber time in a push -/

theorem returnAtOverflow_tookEntry (n : Nat) (r : ChairState) (why : Reason) :
    (c.returnAtOverflow n r why).tookEntry = c.tookEntry := by
  unfold returnAtOverflow
  split
  · rfl
  · split
    · exact setChairMode_tookEntry _ _ _
    · exact closeChair_tookEntry _ _ _
    · rfl

theorem discardBottom_tookEntry (d : StackFrame) : (c.discardBottom d).tookEntry = c.tookEntry := by simp [discardBottom]

/-- An overflow takes no request list entry. -/
theorem overflow_tookEntry (h : c.floor.stack.length ≤ 4) (src : Source) : (c.overflow src).1.tookEntry = c.tookEntry := by
  rcases Nat.lt_or_eq_of_le h with room | full
  · rw [overflow_room room]
  · obtain ⟨x, y, z, d, stack⟩ := stack_four full
    have bottom := discardBottom_tookEntry c d
    rw [overflow_full stack]
    split
    · split
      · exact bottom
      · split
        · exact bottom
        · exact (returnAtOverflow_tookEntry _ _ _ _).trans bottom
    · exact bottom

theorem pushFrame_tookEntry (src : Source) (x : Option ChairState) : (c.pushFrame src x).tookEntry = c.tookEntry := by
  unfold pushFrame
  dsimp only
  split <;> simp

theorem openChair_tookEntry (i : Fin 2) (n : Nat) (m : ChairState) : (c.openChair i n m).tookEntry = c.tookEntry := by simp [openChair]

theorem takePriority_tookEntry (n : Nat) : (c.takePriority n).tookEntry = c.tookEntry := by
  unfold takePriority
  split
  · exact setChairMode_tookEntry _ _ _
  · split
    · exact openChair_tookEntry _ _ _ _
    · split
      · rfl
      · exact (openChair_tookEntry _ _ _ _).trans (closeChair_tookEntry _ _ _)

theorem reportPush_tookEntry (src : Source) : (c.reportPush src).tookEntry = c.tookEntry := by
  unfold reportPush
  dsimp only
  exact setPhase_tookEntry _ _

/-- An overflow leaves chamber time. -/
theorem overflow_time (src : Source) : (c.overflow src).1.time = c.time :=
  congrArg TimeBase.chamberTime (overflow_frame (.refl c.st) src).timeBase

/-- A push leaves chamber time. -/
theorem pushFrame_time (src : Source) (x : Option ChairState) : (c.pushFrame src x).time = c.time :=
  congrArg TimeBase.chamberTime (pushFrame_frame (.refl c.st) src x).timeBase

/-! ### The flags and the report of a push -/

/-- The discard of the bottom frame sets the STACK flag (R108). -/
theorem overflow_flagged {x y z d : StackFrame} (stack : c.floor.stack = [x, y, z, d]) (src : Source) (l : Link) :
    (c.overflow src).1.st.flagged l .stack := by
  have bottom : (c.discardBottom d).st.flagged l .stack := by
    unfold discardBottom
    rw [touchAll_st]
    exact State.flagged_raise _ l .stack
  rw [overflow_full stack]
  split
  · split
    · exact bottom
    · split
      · exact bottom
      · exact State.flagged_of_grown (returnAtOverflow_frame (.refl _) _ _ _).report bottom
  · exact bottom

/-- The whole report of a push that discards a link's frame, in INTERRUPTED. -/
theorem pushLink_report {x y z d : StackFrame} (stack : c.floor.stack = [x, y, z, d]) {l l' : Link} (source : d.source = .link l')
    (phase : c.floor.phase = .interrupted) (replies : c.floor.replies = []) : (c.pushLink l).st.report =
      (((((c.st.notify ⟨.frameDiscarded, .link l', some 8, [detailOf d.records.length, detailOf d.entries.length]⟩).raise
        .stack).notify ⟨.interrupt, .link l, some 4, [detailOf c.floor.openCount, 0]⟩)).raise .interrupt).report := by
  have overflows : c.overflow (.link l) = (c.discardBottom d, none) := by
    rw [overflow_full stack, source]
  have floor := discardBottom_floor stack
  have bottom : (c.discardBottom d).st.report = ((c.st.notify (frameDiscarded d .limit)).raise .stack).report := by
    unfold discardBottom
    rw [touchAll_st]
    rfl
  have bottomTime : (c.discardBottom d).time = c.time := by
    have time := c.overflow_time (.link l)
    rwa [overflows] at time
  have entries : (c.discardBottom d).floor.replies = [] := by rw [floor]; exact replies
  have framed : ((c.discardBottom d).pushFrame (.link l) none).st.report = (c.discardBottom d).st.report := by
    unfold pushFrame
    dsimp only
    rw [entries, touchAll_st]
    rfl
  have pushed := (c.discardBottom d).pushFrame_floor (.link l) none
  have time := ((c.discardBottom d).pushFrame_time (.link l) none).trans bottomTime
  have records : ((c.discardBottom d).floor.slotsByAge (c.discardBottom d).time).length = c.floor.openCount := by
    rw [floor]
    exact (sortBy_perm _ _).length_eq
  have unfolded : c.pushLink l = ((c.discardBottom d).pushFrame (.link l) none).reportPush (.link l) := by
    unfold pushLink
    rw [overflows]
  rw [unfolded]
  unfold reportPush
  have same : ((c.discardBottom d).pushFrame (.link l) none).setPhase .interrupted = (c.discardBottom d).pushFrame (.link l) none := by
    unfold setPhase
    refine if_pos ?_
    rw [pushed, floor]
    exact phase
  rw [same]
  dsimp only
  rw [pushed]
  dsimp only [Floor.pushed, Floor.frameOf, List.head?_cons, Option.map_some, Option.getD_some]
  rw [List.length_map, records, entries, floor]
  have notice : frameDiscarded d .limit = ⟨.frameDiscarded, .link l', some 8, [detailOf d.records.length, detailOf d.entries.length]⟩ := by
    unfold frameDiscarded
    rw [source]
    rfl
  rw [notice] at bottom
  exact State.raise_report_congr (State.notify_report_congr (framed.trans bottom) time _) _

/-! ### The floor of a push -/

variable {c}

/-- A push of a link (R103, R104). -/
theorem pushLink_floor (h : c.floor.stack.length ≤ 4) (l : Link) : (c.pushLink l).floor =
    ((c.floor.overflowed (.link l)).1).pushed (c.floor.frameOf c.time (.link l) none) := by
  unfold pushLink
  dsimp only
  rw [reportPush_floor, pushFrame_floor, (overflow_eq h _).1, overflow_time, Floor.overflowed_frameOf]
  rfl

/-- The state of a seat's chair slot after the overflow (R105). -/
theorem chairStateOf_eq (c : Claim) (n : Nat) : (∀ (j : Fin 2) (x : ChairSlot), c.floor.chairOf n = some j → c.floor.chairs[j] = some x →
    c.chairStateOf n = x.mode) ∧ (c.floor.chairOf n = none → c.chairStateOf n = .closed) := by
  unfold chairStateOf
  refine ⟨fun j x own slot => ?_, fun none_ => by rw [none_]⟩
  rw [own]
  simp [slot]

/-- The frame of a push of a seat, before the chair slot (R105). -/
def framedSeat (c : Claim) (n : Nat) : Claim :=
  (c.overflow (.seat n)).1.pushFrame (.seat n) (some ((c.overflow (.seat n)).2.getD ((c.overflow (.seat n)).1.chairStateOf n)))

theorem pushSeat_eq (c : Claim) (n : Nat) : c.pushSeat n = ((c.framedSeat n).takePriority n).reportPush (.seat n) := rfl

theorem framedSeat_floor (h : c.floor.stack.length ≤ 4) {n : Nat} {f : Floor} {handed : Option ChairState}
    (overflows : c.floor.overflowed (.seat n) = (f, handed)) : (c.framedSeat n).floor =
      { f.pushed (c.floor.frameOf c.time (.seat n) (some (handed.getD ((c.overflow (.seat n)).1.chairStateOf n)))) with
        phase := f.phase } := by
  obtain ⟨floor, chair⟩ := overflow_eq h (.seat n)
  have frame := c.floor.overflowed_frameOf (.seat n) c.time (.seat n) (some (handed.getD ((c.overflow (.seat n)).1.chairStateOf n)))
  rw [overflows] at floor chair frame
  unfold framedSeat
  rw [pushFrame_floor, overflow_time, floor, chair, ← frame]

theorem framedSeat_time (c : Claim) (n : Nat) : (c.framedSeat n).time = c.time :=
  (pushFrame_time _ _ _).trans (c.overflow_time _)

/-- A push of a seat leaves the floor INTERRUPTED. -/
theorem pushSeat_phase (c : Claim) (n : Nat) : (c.pushSeat n).floor.phase = .interrupted := by
  rw [pushSeat_eq, reportPush_floor]

theorem pushSeat_tookEntry (h : c.floor.stack.length ≤ 4) (n : Nat) : (c.pushSeat n).tookEntry = c.tookEntry := by
  rw [pushSeat_eq, reportPush_tookEntry, takePriority_tookEntry]
  unfold framedSeat
  rw [pushFrame_tookEntry, overflow_tookEntry c h]

end Claim

/-- The overflow of a full stack leaves three frames. -/
theorem Floor.overflowed_length {f : Floor} (h : f.stack.length = 4) (src : Source) : (f.overflowed src).1.stack.length = 3 := by
  obtain ⟨a, b, c, d, stack⟩ := stack_four h
  unfold Floor.overflowed
  rw [stack]
  dsimp only
  repeat' split
  all_goals rfl

/-- An event that leaves the floor INTERRUPTED and the request list as it was is its body. -/
theorem State.event_interrupted {s : State} {body : Claim → Claim} (phase : (body (.start s)).floor.phase = .interrupted)
    (requests : (body (.start s)).floor.requests = s.floor.requests) (took : (body (.start s)).tookEntry = false) :
    (s.event body).floor = (body (.start s)).floor ∧ (s.event body).report = (body (.start s)).st.report :=
  State.event_told (Claim.Shows.self _) requests took (.inr (.inr (.inl phase)))

end Sys2Proof.Machine
end

section
/-! SUPPORT. SUSPEND and the PRIO press that pushes, as events (R102 to R109). -/

namespace Sys2Proof.Machine

section Suspend

variable {s : State}

/-! ### SUSPEND (R103) -/

/-- The row of SUSPEND. -/
theorem exec_suspend {l : Link} {c : HeldCommand} (hc : s.Takes l c 0x48 true 0) :
    exec (.suspend l) s = .next ((s.event (·.pushLink l)).answer l c (.of .done
      [be8 (s.event (·.pushLink l)).floor.stack.length, if s.floor.stack.length < 4 then 0 else 1])) :=
  congrArg _ (hc.acts (suspendAction l))

/-- What SUSPEND leaves (R104 to R109). -/
theorem suspend_event (h : s.floor.stack.length ≤ 4) (l : Link) :
    (s.event (·.pushLink l)).floor = ((s.floor.overflowed (.link l)).1).pushed (s.floor.frameOf s.time (.link l) none) ∧
      (s.event (·.pushLink l)).report = ((Claim.start s).pushLink l).st.report ∧
      ∀ l', (s.event (·.pushLink l)).flagged l' .interrupt := by
  have floor := Claim.pushLink_floor (c := .start s) h l
  have took : ((Claim.start s).pushLink l).tookEntry = false := by
    unfold Claim.pushLink
    dsimp only
    rw [Claim.reportPush_tookEntry, Claim.pushFrame_tookEntry, Claim.overflow_tookEntry (.start s) h]
  have requests : ((Claim.start s).pushLink l).floor.requests = s.floor.requests := by
    rw [floor]
    show (((Claim.start s).floor.overflowed (.link l)).1).requests = _
    rw [Floor.overflowed_rest]
  have event := State.event_interrupted (body := (·.pushLink l)) (by rw [floor]; rfl) requests took
  refine ⟨event.1.trans floor, event.2, fun l' => (State.flagged_congr event.2 l' .interrupt).mpr ?_⟩
  exact Claim.reportPush_flagged _ _ l'

/-- SUSPEND on a full stack sets the STACK flag. -/
theorem suspend_stack {x y z d : StackFrame} (stack : s.floor.stack = [x, y, z, d]) (l l' : Link) :
    (s.event (·.pushLink l)).flagged l' .stack := by
  have dropped := Claim.overflow_flagged (c := .start s) stack (.link l) l'
  have pushed := Claim.reportPush_frame (Claim.pushFrame_frame (.refl ((Claim.start s).overflow (.link l)).1.st) (.link l) none) (.link l)
  exact State.event_flagged (body := (·.pushLink l)) (State.flagged_of_grown pushed.report dropped)

/-! ### PRIO of another seat than the top frame's source (R102, R104) -/

variable {r : CaptureRecord}

/-- The rule of a PRIO press. -/
theorem press_prio (may : s.mayPress r.seat .prio) :
    (Claim.drained s).press r.seat r.stamp .prio = (Claim.drained s).pressPrio r.seat :=
  Claim.press_eq (c := Claim.drained s) may r.stamp

/-- A PRIO press of a seat that is not the top frame's source. -/
theorem pressPrio_other {n : Nat} (top : ∀ fr rest, s.floor.stack = fr :: rest → fr.source ≠ .seat n) :
    (Claim.drained s).pressPrio n =
      if (Claim.drained s).chairBusy n then (Claim.drained s).refuse n .prio .chairBusy else (Claim.drained s).pushSeat n := by
  have floor : (Claim.drained s).floor = s.floor := rfl
  have other : ¬ (s.floor.stack.head?.any fun fr => decide (fr.source = .seat n)) = true := by
    cases stack : s.floor.stack with
    | nil => simp
    | cons fr rest => simpa using top fr rest stack
  unfold Claim.pressPrio
  rw [floor, if_neg other]

/-- The chair check of a push (R104, step 1). -/
theorem chairBusy_iff (n : Nat) : (Claim.drained s).chairBusy n = true ↔
    s.floor.chairOf n = none ∧ ∀ j : Fin 2, s.floor.chairs[j].any (·.mode = .priority) = true := by
  unfold Claim.chairBusy
  rw [show (Claim.drained s).floor = s.floor from rfl, Bool.and_eq_true, Option.isNone_iff_eq_none, List.all_eq_true]
  exact and_congr_right fun _ => ⟨fun h j => h j (List.mem_finRange j), fun h j _ => h j⟩

/-- A press that leaves the floor INTERRUPTED and the request list as it was. -/
theorem onePress_interrupts {p : Claim} {b : Button} (pressed : (Claim.drained s).press r.seat r.stamp b = p)
    (phase : p.floor.phase = .interrupted) (requests : p.floor.requests = s.floor.requests) (took : p.tookEntry = false) :
    (s.afterPress r b).floor = p.floor ∧ (s.afterPress r b).report = p.st.report := by
  have body : Claim.pressed s r b = p.fillPoint := by
    unfold Claim.pressed
    rw [pressed]
  obtain ⟨floor, report⟩ := State.event_interrupted (s := s.intakeTaken) (body := fun _ => Claim.pressed s r b)
    (by rw [body]; exact phase) (by rw [body]; exact requests) (by rw [body]; exact took)
  exact ⟨floor.trans ((congrArg Claim.floor body).trans rfl),
    report.trans ((congrArg (fun c : Claim => c.st.report) body).trans rfl)⟩

/-- The floor of a push by a seat is that of the chair slot taken over the frame. -/
theorem pushSeat_drained {n : Nat} : (Claim.pushSeat (Claim.drained s) n).floor =
    { ((Claim.drained s).framedSeat n).takePriority n |>.floor with phase := .interrupted } := by
  rw [Claim.pushSeat_eq, Claim.reportPush_floor]

/-- A chair slot opened now (R60, R106). -/
theorem Claim.openChair_floor (c : Claim) (i : Fin 2) (n : Nat) (m : ChairState) :
    (c.openChair i n m).floor = { c.floor with chairs := c.floor.chairs.set i (some ⟨n, c.time, m⟩) } :=
  Claim.touch_floor _ _

/-- The chair slot of a push leaves the request list. -/
theorem Claim.takePriority_requests (c : Claim) (n : Nat) : (c.takePriority n).floor.requests = c.floor.requests := by
  unfold Claim.takePriority
  split
  · rw [Claim.setChairMode_floor]
  · split
    · rw [Claim.openChair_floor]
    · split
      · rfl
      · rw [Claim.openChair_floor, Claim.notify_floor, Claim.closeChair_floor]

/-- A push of a seat leaves the request list. -/
theorem pushSeat_requests (h : s.floor.stack.length ≤ 4) (n : Nat) :
    ((Claim.drained s).pushSeat n).floor.requests = s.floor.requests := by
  have framed := Claim.framedSeat_floor (c := Claim.drained s) h (n := n) (f := (s.floor.overflowed (.seat n)).1)
    (handed := (s.floor.overflowed (.seat n)).2) rfl
  have kept := ((Claim.drained s).framedSeat n).takePriority_requests n
  rw [pushSeat_drained]
  refine kept.trans ?_
  rw [framed]
  show (s.floor.overflowed (.seat n)).1.requests = _
  rw [Floor.overflowed_rest]

/-- A push that finds a chair slot for its seat. -/
theorem pushSeat_free {n : Nat} (free : s.floor.chairOf n ≠ none ∨ ∃ k : Fin 2, s.floor.chairs[k].any (·.mode = .priority) = false) :
    ¬ (s.floor.chairOf n = none ∧ ∀ j : Fin 2, s.floor.chairs[j].any (·.mode = .priority) = true) := by
  rintro ⟨none_, busy⟩
  rcases free with own | ⟨k, hk⟩
  · exact own none_
  · rw [busy k] at hk
    exact nomatch hk

/-- The floor of a push by a seat, by the chair slot it takes (R104 to R107). -/
theorem pushSeat_floor (h : s.floor.stack.length ≤ 4) {n : Nat} {f : Floor} {handed : Option ChairState}
    (overflows : s.floor.overflowed (.seat n) = (f, handed)) :
    (∀ (j : Fin 2) (x : ChairSlot), f.chairOf n = some j → f.chairs[j] = some x →
      ((Claim.drained s).pushSeat n).floor = { f.pushed (s.floor.frameOf s.time (.seat n) (some (handed.getD x.mode))) with
        chairs := f.chairs.set j (some { x with mode := .priority }) }) ∧
    (f.chairOf n = none →
      (∀ j : Fin 2, f.freeChair = some j →
        ((Claim.drained s).pushSeat n).floor = { f.pushed (s.floor.frameOf s.time (.seat n) (some (handed.getD .closed))) with
          chairs := f.chairs.set j (some ⟨n, s.time, .priority⟩) }) ∧
      ∀ (j k : Fin 2) (x y : ChairSlot), j ≠ k → f.chairs[j] = some x → f.chairs[k] = some y → x.mode = .mic →
        y.mode = .priority ∨ y.mode = .mic ∧ ((s.time - y.openedAt).toNat < (s.time - x.openedAt).toNat ∨
          (s.time - y.openedAt).toNat = (s.time - x.openedAt).toNat ∧ j < k) →
        ((Claim.drained s).pushSeat n).floor = { f.pushed (s.floor.frameOf s.time (.seat n) (some (handed.getD .closed))) with
          chairs := f.chairs.set j (some ⟨n, s.time, .priority⟩) }) := by
  have framed := Claim.framedSeat_floor (c := Claim.drained s) h overflows
  have time := Claim.framedSeat_time (Claim.drained s) n
  have floor : ((Claim.drained s).overflow (.seat n)).1.floor = f :=
    (Claim.overflow_eq (c := Claim.drained s) h (.seat n)).1.trans (congrArg Prod.fst overflows)
  obtain ⟨own, none_⟩ := Claim.chairStateOf_eq ((Claim.drained s).overflow (.seat n)).1 n
  rw [floor] at own none_
  rw [show (Claim.drained s).floor = s.floor from rfl, show (Claim.drained s).time = s.time from rfl] at framed
  rw [show (Claim.drained s).time = s.time from rfl] at time
  rw [pushSeat_drained]
  obtain ⟨switched, taken⟩ := ((Claim.drained s).framedSeat n).takePriority_floor n
  have chairOf : ((Claim.drained s).framedSeat n).floor.chairOf n = f.chairOf n := by rw [framed]; rfl
  have freeChair : ((Claim.drained s).framedSeat n).floor.freeChair = f.freeChair := by rw [framed]; rfl
  have chairs : ((Claim.drained s).framedSeat n).floor.chairs = f.chairs := by rw [framed]; rfl
  refine ⟨fun j x chair slot => ?_, fun away => ⟨fun j free => ?_, fun j k x y other hx hy mic older => ?_⟩⟩
  · rw [switched j x (chairOf.trans chair) (by rw [chairs]; exact slot), framed, own j x chair slot]
    rfl
  · rw [(taken (chairOf.trans away)).1 j (freeChair.trans free), framed, none_ away, time]
    rfl
  · have full : f.freeChair = none := by
      refine List.find?_eq_none.mpr fun i _ => ?_
      have two : i = j ∨ i = k := by omega
      rcases two with rfl | rfl
      · simp [hx]
      · simp [hy]
    obtain ⟨rest, first⟩ := Claim.micChairsByAge_first (c := (Claim.drained s).framedSeat n) other (by rw [chairs]; exact hx)
      (by rw [chairs]; exact hy) mic (by rw [time]; exact older)
    rw [(taken (chairOf.trans away)).2 (freeChair.trans full) j x rest first, framed, none_ away, time]
    rfl

end Suspend

/-- Settles O40: by the overflow, the frame and the chair slot. -/
theorem suspend : Obligations.Suspend := by
  unfold Obligations.Suspend
  refine ⟨fun s l c hc => ⟨fun room => ?_, fun full => ?_⟩, fun s r one may small top => ?_⟩
  · obtain ⟨floor, -, flagged⟩ := suspend_event (s := s) (Nat.le_of_lt room) l
    rw [Floor.overflowed_room room] at floor
    refine ⟨_, ?_, floor, flagged⟩
    rw [exec_suspend hc, floor, if_pos room]
    rfl
  · obtain ⟨floor, report, flagged⟩ := suspend_event (s := s) (Nat.le_of_eq full) l
    obtain ⟨x, y, z, d, stack⟩ := stack_four full
    have three := Floor.overflowed_length full (.link l)
    have length : (s.event (·.pushLink l)).floor.stack.length = 4 := by
      rw [floor]
      exact congrArg (· + 1) three
    refine ⟨_, ?_, length, by rw [floor]; rfl, ?_, fun l' => ⟨flagged l', suspend_stack stack l l'⟩, floor,
      fun d' l' last source phase replies => report.trans ?_⟩
    · rw [exec_suspend hc, length, if_neg (by omega)]
      rfl
    · rw [floor]
      show (s.floor.overflowed (.link l)).1.requests = _
      rw [Floor.overflowed_rest]
    · rw [stack] at last
      obtain rfl : d = d' := Option.some.inj last
      exact Claim.pushLink_report (.start s) stack source phase replies
  · have pressed := (press_prio may).trans (pressPrio_other top)
    refine ⟨_, exec_onePress one, fun none_ busy => ?_, fun free => ?_, fun f handed overflows => ?_⟩
    · exact onePress_refuses one (pressed.trans (if_pos (chairBusy_iff r.seat |>.mpr ⟨none_, busy⟩)))
    · have pushes := pressed.trans (if_neg fun busy => pushSeat_free free (chairBusy_iff r.seat |>.mp busy))
      obtain ⟨floor, report⟩ := onePress_interrupts pushes (Claim.pushSeat_phase _ _) (pushSeat_requests small r.seat)
        ((Claim.pushSeat_tookEntry small r.seat).trans rfl)
      refine ⟨by rw [floor]; exact Claim.pushSeat_phase _ _, fun l' => (State.flagged_congr report l' .interrupt).mpr ?_⟩
      exact Claim.reportPush_flagged _ _ l'
    · have own : f.chairOf r.seat = s.floor.chairOf r.seat := by
        have same := s.floor.overflowed_chairOf r.seat
        rwa [overflows] at same
      have ends (free : s.floor.chairOf r.seat ≠ none ∨ ∃ k : Fin 2, s.floor.chairs[k].any (·.mode = .priority) = false) :
          (s.afterPress r .prio).floor = ((Claim.drained s).pushSeat r.seat).floor :=
        (onePress_interrupts (pressed.trans (if_neg fun busy => pushSeat_free free (chairBusy_iff r.seat |>.mp busy)))
          (Claim.pushSeat_phase _ _) (pushSeat_requests small r.seat) ((Claim.pushSeat_tookEntry small r.seat).trans rfl)).1
      obtain ⟨held, opened⟩ := pushSeat_floor small overflows
      refine ⟨fun j x chair slot => ?_, fun none_ free => ?_⟩
      · rw [ends (.inl (by rw [← own, chair]; simp))]
        exact held j x chair slot
      · rw [ends (.inr free)]
        exact opened none_

end Sys2Proof.Machine
end

section
/-! SUPPORT. What a pop restores: the held records to the places from 0 up, the held reply entries, and the counts (R112, R113). -/

namespace Sys2Proof.Machine

open Claim

/-! ### Slots in the places from 0 up -/

/-- These slots in the places from 0 up. -/
def slotsFrom (l : List DelegateSlot) : Vector (Option DelegateSlot) 6 := Vector.ofFn fun j => l[j.val]?

theorem slotsFrom_get (l : List DelegateSlot) (i : Fin 6) : (slotsFrom l)[i] = l[i.val]? := by
  unfold slotsFrom
  rw [Fin.getElem_fin, Vector.getElem_ofFn]

/-- No slots: six free places. -/
theorem slotsFrom_nil : slotsFrom [] = Vector.replicate 6 none :=
  Vector.ext fun j hj => by simp [slotsFrom]

theorem slotsFrom_isSome (l : List DelegateSlot) (i : Fin 6) : (slotsFrom l)[i].isSome = decide (i.val < l.length) := by
  rw [slotsFrom_get]
  by_cases low : i.val < l.length
  · simp [low]
  · simp [low]

/-- A slot more goes to the next place. -/
theorem slotsFrom_set (l : List DelegateSlot) (d : DelegateSlot) {i : Fin 6} (next_ : i.val = l.length) :
    (slotsFrom l).set i (some d) = slotsFrom (l ++ [d]) := by
  refine Vector.ext fun j hj => ?_
  unfold slotsFrom
  rw [Vector.getElem_set, Vector.getElem_ofFn, Vector.getElem_ofFn, next_]
  dsimp only
  by_cases at_ : l.length = j
  · have last : (l ++ [d])[j]? = some d := by
      rw [← at_]
      simp
    rw [if_pos at_, last]
  · rw [if_neg at_]
    by_cases low : j < l.length
    · rw [List.getElem?_append_left low]
    · rw [List.getElem?_eq_none (by omega), List.getElem?_eq_none (by rw [List.length_append, List.length_singleton]; omega)]

section SlotsFrom

variable {f : Floor} {l : List DelegateSlot} (slots : f.slots = slotsFrom l)
include slots

/-- As many slots are open as there are slots. -/
theorem slotsFrom_openCount (six : l.length ≤ 6) : f.openCount = l.length := by
  have counts : ∀ m, m ≤ 6 → (slotPlaces.countP fun i => decide (i.val < m)) = m := by decide
  rw [Floor.openCount_eq, slots]
  simp only [slotsFrom_isSome]
  exact counts _ six

/-- The free place of lowest index is the next one. -/
theorem slotsFrom_freeSlot {i : Fin 6} (next_ : i.val = l.length) : f.freeSlot = some i := by
  have first : ∀ m : Fin 6, (slotPlaces.find? fun i => !decide (i.val < m.val)) = some m := by decide
  unfold Floor.freeSlot
  rw [slots, ← first i, next_]
  refine List.find?_congr fun j _ => ?_
  rw [← slotsFrom_isSome, Option.not_isSome]

/-- The open slots are those. -/
theorem slotsFrom_any (six : l.length ≤ 6) (p : DelegateSlot → Bool) : (f.openSlots.any fun x => p x.2) = l.any p := by
  rw [Bool.eq_iff_iff, List.any_eq_true, List.any_eq_true]
  constructor
  · rintro ⟨⟨i, d⟩, hx, hp⟩
    have at_ := Floor.mem_openSlots.mp hx
    rw [slots, slotsFrom_get] at at_
    exact ⟨d, List.mem_of_getElem? at_, hp⟩
  · rintro ⟨d, hd, hp⟩
    obtain ⟨i, hi, at_⟩ := List.getElem_of_mem hd
    refine ⟨(⟨i, by omega⟩, d), Floor.mem_openSlots.mpr ?_, hp⟩
    rw [slots, slotsFrom_get, ← at_]
    exact List.getElem?_eq_getElem hi

end SlotsFrom

/-! ### Who may return (R112, R113) -/

/-- A held record or entry returns when nothing bars it. -/
theorem Claim.lostReason_eq_none {s : State} {n : Nat} {here : Bool} :
    lostReason s n here = none ↔ s.mayReturn n = true ∧ here = true := by
  unfold lostReason State.mayReturn
  rw [Bool.and_eq_true]
  dsimp only
  by_cases unbound : (s.seat n).binding = none
  · simp [unbound, State.hasClass]
  · by_cases enabled : (s.seat n).enabled = true
    · cases here
      · simp [unbound, enabled]
      · by_cases delegate : s.hasClass n .delegate = true <;> simp [unbound, enabled, delegate]
    · simp [unbound, enabled]

/-- The Floor Engine's work leaves who may return. -/
theorem State.FloorFrame.mayReturn {s t : State} (h : s.FloorFrame t) (n : Nat) : t.mayReturn n = s.mayReturn n := by
  have seat := h.seats n
  unfold SeatRecord.sameButFloor at seat
  have enabled : (t.seat n).enabled = (s.seat n).enabled := by rw [seat]
  unfold State.mayReturn State.hasClass
  rw [enabled, (h.binding n).1]

/-- The Floor Engine's work leaves chamber time. -/
theorem State.FloorFrame.time {s t : State} (h : s.FloorFrame t) : t.time = s.time := congrArg TimeBase.chamberTime h.timeBase

/-- A pop restores the held record where a place is left (R112). -/
def State.restores (s : State) (h : HeldSlot) : Bool := s.mayReturn h.seat && s.isHere h.seat

/-- A pop returns the held reply entry (R113). -/
def State.readmits (s : State) (e : HeldReply) : Bool := s.mayReturn e.seat && decide ((s.seat e.seat).presence ≠ .absent)

/-- The records a pop restores are the first it may. -/
theorem State.restoredRecords_eq (s : State) (fr : StackFrame) :
    s.restoredRecords fr = (fr.records.filter s.restores).take s.floor.policy.floorMax := rfl

/-- The entries a pop returns. -/
theorem State.returnedReplies_eq (s : State) (fr : StackFrame) : s.returnedReplies fr =
    (fr.entries.filter s.readmits).map fun e => { seat := e.seat, target := e.target, stamp := s.time } := rfl

namespace Claim

/-! ### The held records (R112) -/

/-- A held record is restored to a slot, or lost: the slots alone change, and one of the counts. -/
theorem restoreRecord_counts (x : Claim × Nat × Nat) (h : HeldSlot) :
    (∃ v, (restoreRecord x h).1.floor = { x.1.floor with slots := v }) ∧
      (restoreRecord x h).2.1 + (restoreRecord x h).2.2 = x.2.1 + x.2.2 + 1 := by
  obtain ⟨c, a, b⟩ := x
  unfold restoreRecord
  dsimp only
  have lost (why : Reason) : ∃ v, ((c.notify (heldReleased h why)).touch h.seat).floor = { c.floor with slots := v } :=
    ⟨c.floor.slots, touch_floor _ _⟩
  repeat' split
  · exact ⟨lost _, rfl⟩
  · exact ⟨lost _, rfl⟩
  · exact ⟨lost _, rfl⟩
  · exact ⟨⟨_, touch_floor _ _⟩, by dsimp only; omega⟩

/-- The held records are restored or lost: the slots alone change, and each record is counted. -/
theorem restoreRecords_counts (l : List HeldSlot) (x : Claim × Nat × Nat) :
    (∃ v, (l.foldl restoreRecord x).1.floor = { x.1.floor with slots := v }) ∧
      (l.foldl restoreRecord x).2.1 + (l.foldl restoreRecord x).2.2 = x.2.1 + x.2.2 + l.length := by
  induction l generalizing x with
  | nil => exact ⟨⟨_, rfl⟩, rfl⟩
  | cons h l ih =>
    obtain ⟨⟨v, floor⟩, counts⟩ := restoreRecord_counts x h
    obtain ⟨⟨w, rest⟩, counted⟩ := ih (restoreRecord x h)
    refine ⟨⟨w, rest.trans (by rw [floor])⟩, counted.trans ?_⟩
    rw [counts, List.length_cons]
    omega

/-- A record is restored to the next place where its seat may return and a place is left under FLOOR_MAX. -/
theorem restoreRecord_restores {c : Claim} {l : List DelegateSlot} (slots : c.floor.slots = slotsFrom l) (six : c.policy.floorMax ≤ 6)
    (room : l.length < c.policy.floorMax) {h : HeldSlot} (may : c.st.mayReturn h.seat = true) (here : c.st.isHere h.seat = true)
    (a b : Nat) : (restoreRecord (c, a, b) h).1.floor =
        { c.floor with slots := slotsFrom (l ++ [restoredSlot c.time c.policy.warnLead h]) } ∧ (restoreRecord (c, a, b) h).2.1 = a + 1 := by
  have next_ : c.floor.freeSlot = some ⟨l.length, by omega⟩ := slotsFrom_freeSlot slots rfl
  have count : ¬ c.policy.floorMax ≤ c.floor.openCount := by
    rw [slotsFrom_openCount slots (by omega)]
    omega
  unfold restoreRecord
  dsimp only
  rw [lostReason_eq_none.mpr ⟨may, here⟩]
  dsimp only
  rw [next_]
  dsimp only
  rw [if_neg count]
  refine ⟨?_, rfl⟩
  rw [touch_floor, raise_floor, modFloor_floor, slots]
  exact congrArg (fun v => { c.floor with slots := v }) (slotsFrom_set l _ (i := ⟨l.length, by omega⟩) rfl)

/-- A record is lost otherwise. -/
theorem restoreRecord_loses {c : Claim} {l : List DelegateSlot} (slots : c.floor.slots = slotsFrom l) (six : c.policy.floorMax ≤ 6)
    (within : l.length ≤ c.policy.floorMax) {h : HeldSlot}
    (bars : (c.st.mayReturn h.seat && c.st.isHere h.seat) = false ∨ l.length = c.policy.floorMax) (a b : Nat) :
    (restoreRecord (c, a, b) h).1.floor = c.floor ∧ (restoreRecord (c, a, b) h).2.1 = a := by
  have lost (why : Reason) : ((c.notify (heldReleased h why)).touch h.seat).floor = c.floor := touch_floor _ _
  unfold restoreRecord
  dsimp only
  cases reason : lostReason c.st h.seat (c.st.isHere h.seat) with
  | some why => exact ⟨lost why, rfl⟩
  | none =>
    have full : c.policy.floorMax ≤ c.floor.openCount := by
      rw [slotsFrom_openCount slots (by omega)]
      rcases bars with bars | full
      · obtain ⟨may, here⟩ := lostReason_eq_none.mp reason
        rw [may, here] at bars
        exact absurd bars (by decide)
      · omega
    dsimp only
    split
    · exact ⟨lost _, rfl⟩
    · rw [if_pos full]
      exact ⟨lost _, rfl⟩

/-- The records of the seats that may return and are present are restored, up to FLOOR_MAX (R112). -/
theorem restoreRecords_floor {s : State} (records : List HeldSlot) {x : Claim × Nat × Nat} (frame : s.FloorFrame x.1.st)
    (six : x.1.policy.floorMax ≤ 6) {done : List HeldSlot}
    (slots : x.1.floor.slots = slotsFrom (done.map (restoredSlot s.time x.1.policy.warnLead)))
    (within : done.length ≤ x.1.policy.floorMax) (count : x.2.1 = done.length) :
    (records.foldl restoreRecord x).1.floor = { x.1.floor with
      slots := slotsFrom (((done ++ records.filter s.restores).take x.1.policy.floorMax).map
        (restoredSlot s.time x.1.policy.warnLead)) } ∧
    (records.foldl restoreRecord x).2.1 =
      ((done ++ records.filter s.restores).take x.1.policy.floorMax).length := by
  induction records generalizing x done with
  | nil =>
    rw [List.filter_nil, List.append_nil, List.take_of_length_le within, ← slots]
    exact ⟨rfl, count⟩
  | cons h records ih =>
    obtain ⟨c, a, b⟩ := x
    dsimp only at frame six slots within count ⊢
    have after := restoreRecord_frame (x := (c, a, b)) frame h
    have time : c.time = s.time := frame.time
    have may := frame.mayReturn h.seat
    have here := isHere_of_frame frame h.seat
    by_cases returns : s.restores h = true
    · rw [List.filter_cons_of_pos returns]
      rcases Nat.lt_or_eq_of_le within with room | full
      · obtain ⟨yes, present⟩ := Bool.and_eq_true_iff.mp returns
        obtain ⟨floor, counted⟩ := restoreRecord_restores slots six (by rw [List.length_map]; exact room) (may.trans yes)
          (here.trans present) a b
        have policy : (restoreRecord (c, a, b) h).1.policy = c.policy := (congrArg Floor.policy floor).trans rfl
        have rest := ih after (by rw [policy]; exact six) (done := done ++ [h]) (by rw [floor, policy, time, List.map_append]; rfl)
          (by rw [policy, List.length_append, List.length_singleton]; exact room)
          (by rw [counted, count, List.length_append, List.length_singleton])
        rw [policy, floor, ← List.append_cons] at rest
        exact rest
      · obtain ⟨floor, counted⟩ := restoreRecord_loses slots six (by rw [List.length_map]; exact within)
          (.inr (by rw [List.length_map]; exact full)) a b (h := h)
        have policy : (restoreRecord (c, a, b) h).1.policy = c.policy := congrArg Floor.policy floor
        have rest := ih after (by rw [policy]; exact six) (done := done) (by rw [floor, policy]; exact slots)
          (by rw [policy]; exact within) (by rw [counted]; exact count)
        have only (l : List HeldSlot) : (done ++ l).take c.policy.floorMax = done := List.take_left' full
        rw [policy, floor, only] at rest
        rw [only]
        exact rest
    · rw [List.filter_cons_of_neg returns]
      obtain ⟨floor, counted⟩ := restoreRecord_loses slots six (by rw [List.length_map]; exact within)
        (.inl ((congrArg₂ and may here).trans (eq_false_of_ne_true returns))) a b (h := h)
      have policy : (restoreRecord (c, a, b) h).1.policy = c.policy := congrArg Floor.policy floor
      have rest := ih after (by rw [policy]; exact six) (done := done) (by rw [floor, policy]; exact slots)
        (by rw [policy]; exact within) (by rw [counted]; exact count)
      rw [policy, floor] at rest
      exact rest

/-! ### The held reply entries (R113) -/

/-- One held reply entry returns or is dropped. -/
theorem returnEntry_floor {s : State} {c : Claim} (frame : s.FloorFrame c.st) (e : HeldReply) : (c.returnEntry e).floor =
    { c.floor with
      replies := c.floor.replies ++
        ([e].filter s.readmits).map
          fun e => { seat := e.seat, target := e.target, stamp := s.time } } := by
  have time : c.time = s.time := frame.time
  have may := frame.mayReturn e.seat
  have presence := (frame.binding e.seat).2
  unfold returnEntry
  dsimp only
  rw [touch_floor, raise_floor, presence]
  by_cases returns : s.readmits e = true
  · obtain ⟨yes, here⟩ := Bool.and_eq_true_iff.mp returns
    rw [List.filter_cons_of_pos returns, lostReason_eq_none.mpr ⟨may.trans yes, here⟩]
    dsimp only
    rw [modFloor_floor, time]
    rfl
  · rw [List.filter_cons_of_neg returns]
    cases reason : lostReason c.st e.seat (decide ((s.seat e.seat).presence ≠ .absent)) with
    | none =>
      obtain ⟨yes, here⟩ := lostReason_eq_none.mp reason
      exact absurd (Bool.and_eq_true_iff.mpr ⟨may.symm.trans yes, here⟩) returns
    | some why =>
      dsimp only
      rw [notify_floor, List.filter_nil, List.map_nil, List.append_nil]

/-- The entries of the seats that may return and are not ABSENT are in the reply list again (R113). -/
theorem returnEntries_floor {s : State} (entries : List HeldReply) {c : Claim} (frame : s.FloorFrame c.st) :
    (entries.foldl returnEntry c).floor = { c.floor with
      replies := c.floor.replies ++
        (entries.filter s.readmits).map
          fun e => { seat := e.seat, target := e.target, stamp := s.time } } := by
  induction entries generalizing c with
  | nil =>
    rw [List.filter_nil, List.map_nil, List.append_nil]
    rfl
  | cons e entries ih =>
    rw [List.foldl_cons, ih (returnEntry_frame frame e), returnEntry_floor frame e]
    dsimp only
    rw [List.append_assoc, ← List.map_append, ← List.filter_append, List.singleton_append]

end Claim

end Sys2Proof.Machine
end

section
/-! SUPPORT. What a pop leaves of the floor: the phase, the slots at their deadline, the chair slot (R111 to R116). -/

namespace Sys2Proof.Machine

open Claim

namespace Claim

/-! ### The phase (R114) -/

theorem beginRound_floor (c : Claim) (n : Nat) : (c.beginRound n).floor = { c.floor with subject := some n, phase := .replyRound } := by
  unfold beginRound
  dsimp only
  rw [notify_floor, setPhase_floor, modFloor_floor]

theorem endRound_floor (c : Claim) : c.endRound.floor = { c.floor with subject := none, phase := .openFloor } := by
  unfold endRound
  dsimp only
  rw [fillPoint_floor, setPhase_floor, modFloor_floor, notify_floor]

/-- In OPEN the seat that the waiting entries name is principal exactly when it has an open SPEAK slot (R48, R87). -/
theorem principal_target {f : Floor} (now : ChamberTime) (open_ : f.phase = .openFloor) {e : ReplyEntry} {es : List ReplyEntry}
    (replies : f.replies = e :: es) : ((f.principal now).any fun x => decide (x.2.seat = e.target)) =
      f.openSlots.any fun x => decide (x.2.kind = .speak ∧ x.2.seat = e.target) := by
  have target : f.targetSlot = f.openSlots.find? fun x => decide (x.2.kind = .speak ∧ x.2.seat = e.target) := by
    unfold Floor.targetSlot
    rw [replies]
    rfl
  unfold Floor.principal
  rw [open_]
  dsimp only
  rw [target]
  cases found : f.openSlots.find? fun x => decide (x.2.kind = .speak ∧ x.2.seat = e.target) with
  | some x =>
    have own := of_decide_eq_true (List.find?_some (p := fun x : Fin 6 × DelegateSlot => decide (x.2.kind = .speak ∧ x.2.seat = e.target)) found)
    have any : (f.openSlots.any fun x => decide (x.2.kind = .speak ∧ x.2.seat = e.target)) = true :=
      List.any_eq_true.mpr ⟨x, List.mem_of_find?_eq_some found, decide_eq_true own⟩
    rw [any]
    exact decide_eq_true own.2
  | none =>
    have none_ := List.find?_eq_none.mp found
    have any : (f.openSlots.any fun x => decide (x.2.kind = .speak ∧ x.2.seat = e.target)) = false :=
      List.any_eq_false.mpr none_
    rw [any]
    show ((f.oldestSpeak now).any fun x => decide (x.2.seat = e.target)) = false
    cases oldest : f.oldestSpeak now with
    | none => rfl
    | some x =>
      obtain ⟨i, d⟩ := x
      obtain ⟨slot, speak⟩ := Floor.slots_of_oldestSpeak oldest
      have other := none_ (i, d) (Floor.mem_openSlots.mpr slot)
      exact decide_eq_false fun same => other (decide_eq_true ⟨speak, same⟩)

/-- No REPLY slot is open. -/
theorem replySlot_isNone (f : Floor) : f.replySlot.isNone = !f.openSlots.any fun x => decide (x.2.kind = .reply) := by
  unfold Floor.replySlot
  rw [← Option.not_isSome, List.isSome_find?]

/-- The cases of the reconciliation (R114). -/
theorem reconcile_cases (c : Claim) : (c.floor.replies = [] → c.reconcile .openFloor = c) ∧
    (∀ e es, c.floor.replies = e :: es → c.reconcile .openFloor =
      if ((c.floor.principal c.time).any fun x => decide (x.2.seat = e.target)) = true then c else c.beginRound e.target) ∧
    c.reconcile .replyRound = (if c.floor.replySlot.isNone = true ∧ c.floor.replies = [] then c.endRound else c) ∧
    c.reconcile .halted = c ∧ c.reconcile .interrupted = c := by
  refine ⟨fun h => ?_, fun e es h => ?_, rfl, rfl, rfl⟩
  · unfold reconcile
    rw [h]
  · unfold reconcile
    rw [h]

/-- The cases of the phase that a pop leaves (R114). -/
theorem popPhase_cases (s : State) (fr : StackFrame) :
    (fr.savedPhase = .openFloor → (s.returnedReplies fr = [] → s.popPhase fr = (.openFloor, fr.subject)) ∧
      ∀ e es, s.returnedReplies fr = e :: es → s.popPhase fr =
        if ((s.restoredRecords fr).any fun h => decide (h.kind = .speak ∧ h.seat = e.target)) = true then (.openFloor, fr.subject)
        else (.replyRound, some e.target)) ∧
    (fr.savedPhase = .replyRound → (s.returnedReplies fr = [] → s.popPhase fr =
        if ((s.restoredRecords fr).any fun h => decide (h.kind = .reply)) = true then (.replyRound, fr.subject) else (.openFloor, none)) ∧
      (s.returnedReplies fr ≠ [] → s.popPhase fr = (.replyRound, fr.subject))) ∧
    (fr.savedPhase = .halted ∨ fr.savedPhase = .interrupted → s.popPhase fr = (fr.savedPhase, fr.subject)) := by
  unfold State.popPhase
  refine ⟨fun saved => ?_, fun saved => ?_, fun saved => ?_⟩
  · rw [saved]
    exact ⟨fun h => by rw [h], fun e es h => by rw [h]⟩
  · rw [saved]
    refine ⟨fun h => by rw [h], fun h => ?_⟩
    cases waiting : s.returnedReplies fr with
    | nil => exact absurd waiting h
    | cons e es => rfl
  · rcases saved with saved | saved <;> rw [saved]

/-- The phase and the subject follow what was restored (R114). -/
theorem reconcile_floor {s : State} {c : Claim} {fr : StackFrame} (six : s.floor.policy.floorMax ≤ 6)
    (slots : c.floor.slots = slotsFrom ((s.restoredRecords fr).map (restoredSlot s.time s.floor.policy.warnLead)))
    (replies : c.floor.replies = s.returnedReplies fr) (phase : c.floor.phase = fr.savedPhase) (subject : c.floor.subject = fr.subject) :
    (c.reconcile fr.savedPhase).floor = { c.floor with phase := (s.popPhase fr).1, subject := (s.popPhase fr).2 } := by
  have within : ((s.restoredRecords fr).map (restoredSlot s.time s.floor.policy.warnLead)).length ≤ 6 := by
    rw [List.length_map, s.restoredRecords_eq]
    exact (List.length_take_le _ _).trans six
  have opened (p : DelegateSlot → Bool) : (c.floor.openSlots.any fun x => p x.2) =
      (s.restoredRecords fr).any fun h => p (restoredSlot s.time s.floor.policy.warnLead h) := by
    rw [slotsFrom_any slots within, List.any_map]
    rfl
  have same : c.floor = { c.floor with phase := fr.savedPhase, subject := fr.subject } := by rw [← phase, ← subject]
  obtain ⟨quiet, waits, round, halted, interrupted⟩ := c.reconcile_cases
  obtain ⟨popOpen, popRound, popShut⟩ := popPhase_cases s fr
  cases saved : fr.savedPhase with
  | interrupted =>
    rw [popShut (.inr saved), interrupted]
    exact same
  | halted =>
    rw [popShut (.inl saved), halted]
    exact same
  | openFloor =>
    obtain ⟨none_, some_⟩ := popOpen saved
    rw [saved] at phase same
    cases waiting : s.returnedReplies fr with
    | nil =>
      rw [quiet (replies.trans waiting), none_ waiting]
      exact same
    | cons e es =>
      have names : ((c.floor.principal c.time).any fun x => decide (x.2.seat = e.target)) =
          (s.restoredRecords fr).any fun h => decide (h.kind = .speak ∧ h.seat = e.target) :=
        (principal_target c.time phase (replies.trans waiting)).trans (opened fun d => decide (d.kind = .speak ∧ d.seat = e.target))
      rw [waits e es (replies.trans waiting), some_ e es waiting, names]
      by_cases restored : ((s.restoredRecords fr).any fun h => decide (h.kind = .speak ∧ h.seat = e.target)) = true
      · rw [if_pos restored, if_pos restored]
        exact same
      · rw [if_neg restored, if_neg restored, beginRound_floor]
  | replyRound =>
    obtain ⟨none_, some_⟩ := popRound saved
    rw [saved] at phase same
    have found : c.floor.replySlot.isNone = !(s.restoredRecords fr).any fun h => decide (h.kind = .reply) :=
      (replySlot_isNone c.floor).trans (congrArg not (opened fun d => decide (d.kind = .reply)))
    rw [round, found, replies]
    by_cases empty : s.returnedReplies fr = []
    · rw [none_ empty]
      by_cases restored : ((s.restoredRecords fr).any fun h => decide (h.kind = .reply)) = true
      · rw [if_pos restored, if_neg fun ends => by rw [restored] at ends; exact absurd ends.1 (by decide)]
        exact same
      · rw [if_neg restored, if_pos ⟨by rw [eq_false_of_ne_true restored]; rfl, empty⟩, endRound_floor]
    · rw [some_ empty, if_neg fun ends => empty ends.2]
      exact same

/-! ### The slots at their deadline (R115) -/

/-- A slot restored at its deadline goes into overtime (R81, R115). -/
def popOvertime (now : ChamberTime) (d : DelegateSlot) : DelegateSlot :=
  if d.deadline = some now ∧ d.overtime = false ∧ d.grantedAt = now then { d with overtime := true } else d

/-- Where no slot would close at its deadline, one place of the restored slots in overtime. -/
theorem expireRestored_place {c : Claim} (i : Fin 6)
    (stays : c.policy.expiryAction = .warn ∨ ∀ (j : Fin 6) (d : DelegateSlot), c.floor.slots[j] = some d → popOvertime c.time d = d) :
    (if c.floor.slots[i].any fun d => d.deadline = some c.time ∧ !d.overtime ∧ d.grantedAt = c.time then c.expire i else c).floor =
      { c.floor with slots := c.floor.slots.set i (c.floor.slots[i].map (popOvertime c.time)) } := by
  cases hd : c.floor.slots[i] with
  | none =>
    have same : c.floor.slots.set i none = c.floor.slots := set_same hd
    rw [if_neg (by simp), Option.map_none, same]
  | some d =>
    have same : c.floor.slots.set i (some d) = c.floor.slots := set_same hd
    rw [Option.any_some, Option.map_some]
    by_cases expires : d.deadline = some c.time ∧ d.overtime = false ∧ d.grantedAt = c.time
    · have late : popOvertime c.time d = { d with overtime := true } := if_pos expires
      obtain ⟨deadline, on, now⟩ := expires
      rw [if_pos (by simp [deadline, on, now]), late]
      have warns : c.policy.expiryAction ≠ .close := by
        rcases stays with warn | stays
        · rw [warn]; decide
        · have kept := stays i d hd
          rw [late] at kept
          have := congrArg DelegateSlot.overtime kept
          rw [on] at this
          exact nomatch this
      unfold expire
      rw [hd]
      dsimp only
      rw [if_neg warns, touch_floor, notify_floor, raise_floor, modSeat_floor, modFloor_floor]
    · have kept : popOvertime c.time d = d := if_neg expires
      rw [kept, same, if_neg (by simpa using expires)]

end Claim

end Sys2Proof.Machine
end

section
/-! SUPPORT. The pop as a whole: its counts, what it leaves of the stack and the request list, and the floor of the statements. -/

namespace Sys2Proof.Machine

open Claim

namespace Claim

/-! ### The slots at their deadline and the chair slot (R115) -/

/-- A restored slot stays at its deadline but for its overtime flag. -/
def Stays (c : Claim) : Prop :=
  c.policy.expiryAction = .warn ∨ ∀ (j : Fin 6) (d : DelegateSlot), c.floor.slots[j] = some d → popOvertime c.time d = d

/-- One place of the restored slots. -/
def expirePlace (c : Claim) (i : Fin 6) : Claim :=
  if c.floor.slots[i].any fun d => d.deadline = some c.time ∧ !d.overtime ∧ d.grantedAt = c.time then c.expire i else c

theorem expireRestored_eq (c : Claim) : c.expireRestored = slotPlaces.foldl expirePlace c := rfl

theorem expirePlace_time (c : Claim) (i : Fin 6) : (c.expirePlace i).time = c.time := by
  unfold expirePlace
  split
  · exact (expire_frame (.refl c.st) i).time
  · rfl

/-- The places after one place. -/
theorem Stays.expirePlace {c : Claim} (stays : c.Stays) (i : Fin 6) : (c.expirePlace i).Stays := by
  have floor : (c.expirePlace i).floor = _ := expireRestored_place i stays
  have time := c.expirePlace_time i
  rcases stays with warn | stays
  · exact .inl ((congrArg (fun f : Floor => f.policy.expiryAction) floor).trans warn)
  · refine .inr fun j d hd => ?_
    have same : c.floor.slots.set i (c.floor.slots[i].map (popOvertime c.time)) = c.floor.slots := by
      cases at_ : c.floor.slots[i] with
      | none => exact set_same at_
      | some x =>
        rw [Option.map_some, stays i x at_]
        exact set_same at_
    rw [floor] at hd
    rw [time]
    exact stays j d (same ▸ hd)

/-- Places one after another. -/
theorem expirePlaces_floor {l : List (Fin 6)} (once : l.Nodup) {c : Claim} (stays : c.Stays) : (l.foldl expirePlace c).floor =
    { c.floor with slots := Vector.ofFn fun j => if j ∈ l then c.floor.slots[j].map (popOvertime c.time) else c.floor.slots[j] } := by
  induction l generalizing c with
  | nil =>
    have same : (Vector.ofFn fun j : Fin 6 => if j ∈ ([] : List (Fin 6)) then c.floor.slots[j].map (popOvertime c.time)
        else c.floor.slots[j]) = c.floor.slots := Vector.ext fun j hj => by simp
    rw [same]
    rfl
  | cons i l ih =>
    obtain ⟨new, once⟩ := List.nodup_cons.mp once
    have floor : (c.expirePlace i).floor = _ := expireRestored_place i stays
    have time := c.expirePlace_time i
    rw [List.foldl_cons, ih once (stays.expirePlace i), floor, time]
    refine congrArg (fun v => { c.floor with slots := v }) (Vector.ext fun j hj => ?_)
    rw [Vector.getElem_ofFn, Vector.getElem_ofFn]
    dsimp only [Fin.getElem_fin]
    by_cases at_ : (⟨j, hj⟩ : Fin 6) = i
    · subst at_
      simp [new]
    · have value : (i : Nat) ≠ j := fun e => at_ (Fin.ext e.symm)
      simp [at_, Vector.getElem_set_ne _ _ value]

/-- The restored slots that go into overtime (R81, R115). -/
theorem expireRestored_floor {c : Claim} (stays : c.Stays) :
    c.expireRestored.floor = { c.floor with slots := c.floor.slots.map (Option.map (popOvertime c.time)) } := by
  rw [expireRestored_eq, expirePlaces_floor (List.nodup_finRange 6) stays]
  refine congrArg (fun v => { c.floor with slots := v }) (Vector.ext fun j hj => ?_)
  simp

/-- The source's chair slot returns to the recorded state (R115). -/
theorem returnChair_floor (c : Claim) (fr : StackFrame) (why : Reason) : (c.returnChair fr why).floor = { c.floor with
    chairs := match fr.source, fr.chairState with
      | .seat n, some r => if c.st.hasClass n .president then c.floor.chairReturned n r else c.floor.chairs
      | _, _ => c.floor.chairs } := by
  unfold returnChair
  cases fr.source with
  | link l => rfl
  | seat n =>
    cases fr.chairState with
    | none => rfl
    | some recorded =>
      dsimp only
      by_cases president : c.st.hasClass n .president = true
      · rw [if_pos president, if_pos president]
        unfold Floor.chairReturned
        cases c.floor.chairOf n with
        | none => rfl
        | some i =>
          cases recorded with
          | closed => exact closeChair_floor c i why
          | mic => exact setChairMode_floor c i .mic
          | priority => rfl
      · rw [if_neg president, if_neg president]

/-! ### The stack and the request list -/

/-- The claim keeps the stack and the request list. -/
structure StackKept (c d : Claim) : Prop where
  stack : d.floor.stack = c.floor.stack
  requests : d.floor.requests = c.floor.requests
  took : d.tookEntry = c.tookEntry

namespace StackKept

variable {c d : Claim}

theorem refl (c : Claim) : c.StackKept c := ⟨rfl, rfl, rfl⟩

theorem trans {e : Claim} (h : c.StackKept d) (g : d.StackKept e) : c.StackKept e :=
  ⟨g.stack.trans h.stack, g.requests.trans h.requests, g.took.trans h.took⟩

theorem foldl {α : Type} {f : Claim → α → Claim} (step : ∀ (c : Claim) (a : α), c.StackKept (f c a)) (l : List α) (c : Claim) :
    c.StackKept (l.foldl f c) := by
  induction l generalizing c with
  | nil => exact refl c
  | cons a l ih => exact (step c a).trans (ih _)

theorem restoreRecord (x : Claim × Nat × Nat) (h : HeldSlot) : x.1.StackKept (Claim.restoreRecord x h).1 := by
  obtain ⟨⟨v, floor⟩, -⟩ := restoreRecord_counts x h
  refine ⟨by rw [floor], by rw [floor], ?_⟩
  obtain ⟨c, a, b⟩ := x
  unfold Claim.restoreRecord
  dsimp only
  repeat' split
  all_goals simp

theorem restoreRecords (l : List HeldSlot) (x : Claim × Nat × Nat) : x.1.StackKept (l.foldl Claim.restoreRecord x).1 := by
  induction l generalizing x with
  | nil => exact refl _
  | cons h l ih => exact (restoreRecord x h).trans (ih _)

theorem returnEntry (c : Claim) (e : HeldReply) : c.StackKept (c.returnEntry e) := by
  have floor := returnEntry_floor (.refl c.st) e
  refine ⟨by rw [floor], by rw [floor], ?_⟩
  unfold Claim.returnEntry
  dsimp only
  split <;> simp

theorem beginRound (c : Claim) (n : Nat) : c.StackKept (c.beginRound n) :=
  ⟨by rw [beginRound_floor], by rw [beginRound_floor], beginRound_tookEntry _ _⟩

theorem endRound (c : Claim) : c.StackKept c.endRound :=
  ⟨by rw [endRound_floor], by rw [endRound_floor], endRound_tookEntry _⟩

theorem reconcile (c : Claim) (p : Phase) : c.StackKept (c.reconcile p) := by
  obtain ⟨quiet, waits, round, halted, interrupted⟩ := c.reconcile_cases
  cases p with
  | halted => rw [halted]; exact refl c
  | interrupted => rw [interrupted]; exact refl c
  | openFloor =>
    cases waiting : c.floor.replies with
    | nil => rw [quiet waiting]; exact refl c
    | cons e es =>
      rw [waits e es waiting]
      split
      · exact refl c
      · exact beginRound c _
  | replyRound =>
    rw [round]
    split
    · exact endRound c
    · exact refl c

theorem closeSlot (c : Claim) (i : Fin 6) (why : Reason) : c.StackKept (c.closeSlot i why) :=
  ⟨(c.closeSlot_steady i why).stack, closeSlot_requests _ _ _, closeSlot_tookEntry _ _ _⟩

theorem expire (c : Claim) (i : Fin 6) : c.StackKept (c.expire i) := by
  unfold Claim.expire
  split
  · exact refl c
  · next d hd =>
    dsimp only
    have flagged : c.StackKept (((((c.modFloor fun f => { f with slots := f.slots.set i (some { d with overtime := true }) }).modSeat d.seat
        fun r => { r with overtimeMark := true }).raise .overtime).notify (.ofSeat .overtime d.seat (codeIn expiryRow c.policy.expiryAction)
          [detailOf i, detailCode (codeIn slotKindRow d.kind)])).touch d.seat) := by
      have floor : (((((c.modFloor fun f => { f with slots := f.slots.set i (some { d with overtime := true }) }).modSeat d.seat
          fun r => { r with overtimeMark := true }).raise .overtime).notify (.ofSeat .overtime d.seat (codeIn expiryRow c.policy.expiryAction)
            [detailOf i, detailCode (codeIn slotKindRow d.kind)])).touch d.seat).floor =
              { c.floor with slots := c.floor.slots.set i (some { d with overtime := true }) } := by
        rw [touch_floor, notify_floor, raise_floor, modSeat_floor, modFloor_floor]
      exact ⟨by rw [floor], by rw [floor], by simp⟩
    split
    · exact flagged.trans (closeSlot _ _ _)
    · exact flagged

theorem expireRestored (c : Claim) : c.StackKept c.expireRestored := by
  rw [expireRestored_eq]
  refine foldl (fun c i => ?_) _ c
  unfold expirePlace
  split
  · exact expire c i
  · exact refl c

theorem returnChair (c : Claim) (fr : StackFrame) (why : Reason) : c.StackKept (c.returnChair fr why) := by
  have floor := c.returnChair_floor fr why
  refine ⟨by rw [floor], by rw [floor], ?_⟩
  unfold Claim.returnChair
  repeat' split
  all_goals simp

end StackKept

/-! ### The pop (R111 to R116) -/

section Pop

variable {c : Claim} {fr : StackFrame} {rest : List StackFrame}

/-- The floor at the start of a pop (R111). -/
def unstacked (c : Claim) (fr : StackFrame) (rest : List StackFrame) : Claim :=
  (c.modFloor fun f => { f with stack := rest, subject := fr.subject }).setPhase fr.savedPhase

theorem unstacked_floor : (c.unstacked fr rest).floor =
    { c.floor with stack := rest, subject := fr.subject, phase := fr.savedPhase } := by
  unfold unstacked
  rw [setPhase_floor, modFloor_floor]

theorem unstacked_frame : c.st.FloorFrame (c.unstacked fr rest).st := setPhase_frame (modFloor_frame (.refl _) _) _

/-- The records of a pop, with their counts. -/
def popRecords (c : Claim) (fr : StackFrame) (rest : List StackFrame) : Claim × Nat × Nat :=
  fr.records.foldl restoreRecord (c.unstacked fr rest, 0, 0)

/-- The records and entries of a pop. -/
def popEntries (c : Claim) (fr : StackFrame) (rest : List StackFrame) : Claim := fr.entries.foldl returnEntry (c.popRecords fr rest).1

/-- The phase, the slots at their deadline and the chair slot of a pop. -/
def popSettled (c : Claim) (fr : StackFrame) (rest : List StackFrame) (why : Reason) : Claim :=
  ((((c.popEntries fr rest).reconcile fr.savedPhase).expireRestored).returnChair fr why)

/-- A pop of a frame. -/
theorem pop_eq (stack : c.floor.stack = fr :: rest) (why : Reason) : c.pop why =
    ((((c.popSettled fr rest why).notify ⟨.resume, fr.source.subject, some (be8 rest.length),
      [detailOf (c.popRecords fr rest).2.1, detailOf (c.popRecords fr rest).2.2]⟩).raise .interrupt).fillPoint, (c.popRecords fr rest).2) := by
  unfold pop
  rw [stack]
  rfl

/-- Each held record is restored or lost. -/
theorem pop_counts (stack : c.floor.stack = fr :: rest) (why : Reason) :
    (c.pop why).2.1 + (c.pop why).2.2 = fr.records.length := by
  rw [pop_eq stack why]
  have counted := (restoreRecords_counts fr.records (c.unstacked fr rest, 0, 0)).2
  exact counted.trans (by simp)

/-- A pop takes the top frame away, and leaves the request list. -/
theorem pop_kept (stack : c.floor.stack = fr :: rest) (why : Reason) : (c.pop why).1.floor.stack = rest ∧
    (c.pop why).1.floor.requests = c.floor.requests ∧ (c.pop why).1.tookEntry = c.tookEntry := by
  have start : (c.unstacked fr rest).tookEntry = c.tookEntry := setPhase_tookEntry _ _
  have records := StackKept.restoreRecords fr.records (c.unstacked fr rest, 0, 0)
  have entries := StackKept.foldl StackKept.returnEntry fr.entries (c.popRecords fr rest).1
  have kept : (c.unstacked fr rest).StackKept (c.popSettled fr rest why) :=
    ((((records.trans entries).trans (.reconcile _ _)).trans (.expireRestored _)).trans (.returnChair _ _ _))
  have floor := unstacked_floor (c := c) (fr := fr) (rest := rest)
  rw [pop_eq stack why]
  refine ⟨?_, ?_, ?_⟩
  · refine kept.stack.trans ?_
    rw [floor]
  · refine kept.requests.trans ?_
    rw [floor]
  · exact kept.took.trans start

/-- A pop is a fill point. -/
theorem pop_fillDue (stack : c.floor.stack = fr :: rest) (why : Reason) : (c.pop why).1.fillDue = true := by
  rw [pop_eq stack why]
  rfl

/-- A pop sets the INTERRUPT flag. -/
theorem pop_flagged (stack : c.floor.stack = fr :: rest) (why : Reason) (l : Link) : (c.pop why).1.st.flagged l .interrupt := by
  rw [pop_eq stack why]
  exact State.flagged_raise _ l .interrupt

/-- A slot restored goes into overtime exactly when no time remained. -/
theorem popOvertime_restored {now : ChamberTime} {lead : Nat} {h : HeldSlot} (held : ∀ r, h.remaining = some r → r ≤ 2 ^ 31) :
    popOvertime now (restoredSlot now lead h) =
      { restoredSlot now lead h with overtime := h.overtime || decide (h.remaining = some 0) } := by
  have due : (restoredSlot now lead h).deadline = some now ↔ h.remaining = some 0 := by
    show h.remaining.map (after now) = some now ↔ _
    cases hr : h.remaining with
    | none => simp
    | some r =>
      have small := held r hr
      rw [Option.map_some, Option.some.injEq, Option.some.injEq]
      unfold after
      constructor
      · intro same
        have zero : BitVec.ofNat 32 r = 0 := by
          rw [add_eq_left] at same
          exact same
        have := congrArg BitVec.toNat zero
        simp only [BitVec.toNat_ofNat, BitVec.ofNat_eq_ofNat] at this
        omega
      · rintro rfl
        simp
  unfold popOvertime
  by_cases zero : h.remaining = some 0
  · cases on : h.overtime with
    | false =>
      rw [if_pos ⟨due.mpr zero, on, rfl⟩, decide_eq_true zero]
      rfl
    | true =>
      rw [if_neg fun x => Bool.noConfusion (on.symm.trans x.2.1)]
      simp [restoredSlot, on]
  · rw [if_neg fun x => zero (due.mp x.1), decide_eq_false zero, Bool.or_false]
    rfl

/-- The slots of a pop, those at their deadline in overtime. -/
theorem popOvertime_slots {now : ChamberTime} {lead : Nat} {l : List HeldSlot} (held : ∀ h ∈ l, ∀ r, h.remaining = some r → r ≤ 2 ^ 31) :
    (slotsFrom (l.map (restoredSlot now lead))).map (Option.map (popOvertime now)) = Vector.ofFn fun j => l[j]?.map fun h =>
      { restoredSlot now lead h with overtime := h.overtime || decide (h.remaining = some 0) } := by
  refine Vector.ext fun j hj => ?_
  rw [Vector.getElem_map, Vector.getElem_ofFn]
  unfold slotsFrom
  rw [Vector.getElem_ofFn, List.getElem?_map, Option.map_map]
  dsimp only
  cases at_ : l[j]? with
  | none => rfl
  | some h => exact congrArg some (popOvertime_restored (held h (List.mem_of_getElem? at_)))

/-- The floor of a pop onto a floor without slots and replies, before the slots at their deadline expire and the chair slot returns
(R112 to R114). -/
theorem popReconciled_floor (slots : c.floor.slots = Vector.replicate 6 none) (none_ : c.floor.replies = [])
    (floorMax : c.floor.policy.floorMax ≤ 6) : ((c.popEntries fr rest).reconcile fr.savedPhase).floor = { c.floor with
      stack := rest, phase := (c.st.popPhase fr).1, subject := (c.st.popPhase fr).2, replies := c.st.returnedReplies fr
      slots := slotsFrom ((c.st.restoredRecords fr).map (restoredSlot c.st.time c.st.floor.policy.warnLead)) } ∧
    (c.popRecords fr rest).2.1 = (c.st.restoredRecords fr).length ∧
    c.st.FloorFrame ((c.popEntries fr rest).reconcile fr.savedPhase).st := by
  have start := unstacked_floor (c := c) (fr := fr) (rest := rest)
  have policy : (c.unstacked fr rest).policy = c.policy := (congrArg Floor.policy start).trans rfl
  have frame := unstacked_frame (c := c) (fr := fr) (rest := rest)
  obtain ⟨records, count⟩ := restoreRecords_floor fr.records (x := (c.unstacked fr rest, 0, 0)) frame (by rw [policy]; exact floorMax)
    (done := []) (by rw [List.map_nil, slotsFrom_nil, start]; exact slots) (Nat.zero_le _) rfl
  have entries := returnEntries_floor fr.entries (c := (c.popRecords fr rest).1) (restoreRecords_frame fr.records frame)
  rw [List.nil_append, policy] at records count
  change (c.popRecords fr rest).2.1 = (c.st.restoredRecords fr).length at count
  change (c.popRecords fr rest).1.floor = { (c.unstacked fr rest).floor with
    slots := slotsFrom ((c.st.restoredRecords fr).map (restoredSlot c.st.time c.st.floor.policy.warnLead)) } at records
  change (c.popEntries fr rest).floor = { (c.popRecords fr rest).1.floor with
    replies := (c.popRecords fr rest).1.floor.replies ++ c.st.returnedReplies fr } at entries
  have entryFrame : c.st.FloorFrame (c.popEntries fr rest).st :=
    foldl_frame _ (fun c e h => returnEntry_frame h e) _ (restoreRecords_frame fr.records frame)
  rw [records, start] at entries
  have emptied : (c.popEntries fr rest).floor.replies = c.st.returnedReplies fr := by
    rw [entries]
    show c.floor.replies ++ _ = _
    rw [none_, List.nil_append]
  have reconciled := reconcile_floor (c := c.popEntries fr rest) (s := c.st) (fr := fr) floorMax (by rw [entries]) emptied
    (by rw [entries]) (by rw [entries])
  refine ⟨?_, count, reconcile_frame entryFrame _⟩
  rw [reconciled, ← emptied, entries]

/-- The floor of a pop onto a floor without slots and replies (R112 to R115). -/
theorem pop_floor (stack : c.floor.stack = fr :: rest) (onto : c.st.PopsOnto fr) (why : Reason) :
    (c.pop why).1.floor = c.st.popped fr rest ∧ (c.pop why).2.1 = (c.st.restoredRecords fr).length := by
  obtain ⟨slots, replies, floorMax, held, expiry⟩ := onto
  obtain ⟨whole, count, roundFrame⟩ := popReconciled_floor (c := c) (fr := fr) (rest := rest) slots replies floorMax
  have among : ∀ h ∈ c.st.restoredRecords fr, h ∈ fr.records := fun h hh =>
    List.mem_of_mem_filter (List.mem_of_mem_take hh)
  have time : ((c.popEntries fr rest).reconcile fr.savedPhase).time = c.st.time := roundFrame.time
  have stays : ((c.popEntries fr rest).reconcile fr.savedPhase).Stays := by
    rcases expiry with warn | expiry
    · exact .inl ((congrArg (fun f : Floor => f.policy.expiryAction) whole).trans warn)
    · refine .inr fun j d hd => ?_
      rw [whole] at hd
      dsimp only at hd
      rw [slotsFrom_get, List.getElem?_map] at hd
      obtain ⟨h, at_, rfl⟩ := Option.map_eq_some_iff.mp hd
      have own := among h (List.mem_of_getElem? at_)
      rw [time, popOvertime_restored (held h own)]
      by_cases zero : h.remaining = some 0
      · have on := expiry h own zero
        simp [restoredSlot, on]
      · rw [decide_eq_false zero, Bool.or_false]
        rfl
  have expired := expireRestored_floor stays
  have expiredFrame : c.st.FloorFrame ((c.popEntries fr rest).reconcile fr.savedPhase).expireRestored.st := expireRestored_frame roundFrame
  have president (n : Nat) : ((c.popEntries fr rest).reconcile fr.savedPhase).expireRestored.st.hasClass n .president =
      c.st.hasClass n .president := by
    unfold State.hasClass
    rw [(expiredFrame.binding n).1]
  have ended := returnChair_floor ((c.popEntries fr rest).reconcile fr.savedPhase).expireRestored fr why
  rw [pop_eq stack why]
  refine ⟨?_, count⟩
  refine Eq.trans (show _ = (c.popSettled fr rest why).floor from rfl) (ended.trans ?_)
  rw [expired, whole, time]
  dsimp only
  rw [popOvertime_slots fun h hh => held h (among h hh)]
  simp only [president]
  rfl

end Pop

end Claim

end Sys2Proof.Machine
end

section
/-! SUPPORT. RESUME and the PRIO press that pops, as events (R102, R111 to R116). -/

namespace Sys2Proof.Machine

open Claim

/-- What follows an event rests, for the floor, on the floor, chamber time and the presences before it. -/
theorem State.Settles.toFloor {x u s : State} (h : x.Settles u) (time : x.time = s.time) (here : ∀ n, x.isHere n = s.isHere n) :
    x.floor.settlesFloor s u := by
  obtain ⟨fixed, filled⟩ := h
  refine ⟨fun y hy => ?_, filled⟩
  have floors := State.settled_floor (x := { s with floor := x.floor }) (z := x) rfl time
    (State.firstPresentReply_congr rfl here)
  rw [hy] at floors
  obtain ⟨w, hw, same⟩ := Option.map_eq_some_iff.mp floors
  exact (fixed w hw).1.trans same

section Resume

variable {s : State} {fr : StackFrame} {rest : List StackFrame}

/-- The state that shows a pop onto a floor without slots and replies. -/
def State.afterPop (s : State) (fr : StackFrame) (rest : List StackFrame) (c : Claim) : State :=
  { s with floor := s.popped fr rest, report := c.st.report }

/-- The event of RESUME (R111 to R116). -/
theorem resume_event (stack : s.floor.stack = fr :: rest) :
    (s.event fun c => (c.pop .host).1).floor.stack = rest ∧ (∀ l, (s.event fun c => (c.pop .host).1).flagged l .interrupt) ∧
      (s.PopsOnto fr → (s.popped fr rest).settlesFloor s (s.event fun c => (c.pop .host).1)) := by
  obtain ⟨kept, requests, took⟩ := pop_kept (c := .start s) stack .host
  have steady := State.event_steady (s := s) (body := fun c => (c.pop .host).1) (.refl _)
  refine ⟨steady.stack.trans kept, fun l => State.event_flagged (body := fun c => (c.pop .host).1) (pop_flagged (c := .start s) stack .host l),
    fun onto => ?_⟩
  obtain ⟨floor, -⟩ := pop_floor (c := .start s) stack onto .host
  have frame := pop_frame (c := .start s) (.refl s) .host
  have shown : (((Claim.start s).pop .host).1).Shows (s.afterPop fr rest ((Claim.start s).pop .host).1) := ⟨floor, rfl, frame.time⟩
  have due := State.versionDue_kept (s := s) shown rfl took
  have settles := State.event_settles (body := fun c => (c.pop .host).1) shown (fun _ => pop_fillDue (c := .start s) stack .host)
    (fun _ => .inl (pop_fillDue (c := .start s) stack .host))
    (State.firstPresentReply_congr (congrArg Floor.replies floor) fun n => isHere_of_frame frame n)
  rw [due] at settles
  exact settles.toFloor rfl fun n => rfl

/-- The row of RESUME. -/
theorem exec_resume {l : Link} {c : HeldCommand} (hc : s.Takes l c 0x49 true 0) :
    exec (.resume l) s = .next ((resumeAction c.payload s).1.answer l c (resumeAction c.payload s).2) :=
  congrArg _ (hc.acts resumeAction)

/-- RESUME of a frame. -/
theorem resumeAction_pops (stack : s.floor.stack = fr :: rest) (p : List Byte) : resumeAction p s =
    (s.event fun c => (c.pop .host).1, .of .done [be8 (s.event fun c => (c.pop .host).1).floor.stack.length,
      codeIn phaseRow (s.event fun c => (c.pop .host).1).floor.phase, be8 ((Claim.start s).pop .host).2.1,
      be8 ((Claim.start s).pop .host).2.2]) := by
  unfold resumeAction
  exact if_neg (by rw [stack]; exact List.cons_ne_nil _ _)

/-- A PRIO press of the top frame's source (R102). -/
theorem pressPrio_top {n : Nat} (stack : s.floor.stack = fr :: rest) (source : fr.source = .seat n) :
    (Claim.drained s).pressPrio n = ((Claim.drained s).pop .self).1 := by
  unfold Claim.pressPrio
  rw [show (Claim.drained s).floor = s.floor from rfl, stack]
  exact if_pos (by simp [source])

/-- A PRIO press that pops (R111 to R116). -/
theorem onePress_pops {r : CaptureRecord} (stack : s.floor.stack = fr :: rest) (onto : s.PopsOnto fr)
    (pops : (Claim.drained s).press r.seat r.stamp .prio = ((Claim.drained s).pop .self).1) :
    (s.popped fr rest).settlesFloor s (s.afterPress r .prio) ∧ ∀ l, (s.afterPress r .prio).flagged l .interrupt := by
  obtain ⟨-, -, took⟩ := pop_kept (c := Claim.drained s) stack .self
  have flagged := pop_flagged (c := Claim.drained s) stack .self
  have onto : (Claim.drained s).st.PopsOnto fr := ⟨onto.slots, onto.replies, onto.floorMax, onto.held, onto.expiry⟩
  obtain ⟨floor, -⟩ := pop_floor (c := Claim.drained s) stack onto .self
  have frame := pop_frame (c := Claim.drained s) (.refl _) .self
  rw [← pops] at took flagged floor frame
  have shown : ((Claim.drained s).press r.seat r.stamp .prio).Shows
      (s.afterPop fr rest ((Claim.drained s).press r.seat r.stamp .prio)) := ⟨floor, rfl, frame.time⟩
  have settles := onePress_settles shown rfl rfl took
  exact ⟨settles.toFloor rfl fun n => rfl, fun l => State.event_flagged (body := fun _ => Claim.pressed s r .prio) (flagged l)⟩

end Resume

/-- Settles O41: the records and entries that return, the phase, the slots at their deadline and the chair slot. -/
theorem resume : Obligations.Resume := by
  unfold Obligations.Resume
  refine ⟨fun s l c hc => ⟨fun empty => ?_, fun fr rest stack => ?_⟩, fun s r fr rest one may stack source onto => ?_⟩
  · rw [exec_resume hc]
    unfold resumeAction
    rw [if_pos empty]
    rfl
  · obtain ⟨kept, flagged, settles⟩ := resume_event stack
    refine ⟨s.event fun c => (c.pop .host).1, ((Claim.start s).pop .host).2.1, ((Claim.start s).pop .host).2.2, ?_,
      pop_counts (c := .start s) stack .host, kept, flagged, fun onto => ⟨(pop_floor (c := .start s) stack onto .host).2, settles onto⟩⟩
    rw [exec_resume hc, resumeAction_pops stack, kept]
  · exact ⟨_, exec_onePress one, onePress_pops stack onto ((press_prio may).trans (pressPrio_top stack source))⟩

end Sys2Proof.Machine
end

section
/-! SUPPORT. StepKeepsStack fails. `PriorityLaw.above` asks a lower frame of the same source of every frame that records PRIORITY, a
link's frame as well as a seat's, while the overflow of a full stack hands down the record of a seat alone (R109). So a full stack with a
link's frame that records PRIORITY above the bottom frame of that link meets every law, and the next SUSPEND, which discards the bottom
frame, breaks that law. No push makes such a frame: the laws leave out that a link's frame records no chair state (R105). -/

namespace Sys2Proof.Machine

namespace LinkPriority

/-- A frame of a link that holds nothing. -/
def frame (l : Link) (savedPhase : Phase) (chair : Option ChairState) : StackFrame :=
  { source := .link l, pushedAt := 0, savedPhase := savedPhase, subject := none, records := [], entries := [], chairState := chair }

/-- A full stack whose third frame from the top shares no source with the second, which records PRIORITY; the bottom frame does. -/
def stack : List StackFrame :=
  [frame .b .interrupted none, frame .a .interrupted (some .priority), frame .b .interrupted none, frame .a .openFloor none]

/-- The floor of reset, interrupted by these frames. -/
def floor : Floor := { Floor.initial with phase := .interrupted, stack := stack }

/-- A SUSPEND command. -/
def command : HeldCommand := { kind := 0x48, tag := 0, payload := [], completedAt := 0 }

/-- The block with these frames and a SUSPEND held for link A, which has CONTROL. -/
def state : State :=
  { State.reset with
    floor := floor
    ports := { LinkPorts.initial (baudOf false false) with portA := { LinkPort.initial with command := .holding command } } }

/-- The same with the row of SUSPEND at the front of the queue. -/
def queued : State := { state with pending := [.suspend .a] }

theorem stackWf : queued.floor.stackWf :=
  ⟨Nat.le_refl 4, ⟨fun _ => by simp [queued, state, floor, stack], fun _ => rfl⟩, rfl, rfl, rfl, nofun⟩

/-- Every frame of this stack holds nothing and has no subject. -/
theorem mem_stack {fr : StackFrame} (h : fr ∈ queued.floor.stack) : fr.records = [] ∧ fr.entries = [] ∧ fr.subject = none ∧
    fr.savedPhase ≠ .replyRound ∧ ∃ l, fr.source = .link l := by
  change fr ∈ stack at h
  simp only [stack, List.mem_cons, List.not_mem_nil, or_false] at h
  rcases h with rfl | rfl | rfl | rfl
  all_goals exact ⟨rfl, rfl, rfl, by decide, _, rfl⟩

theorem openSlots : queued.floor.openSlots = [] := Floor.initial_openSlots

theorem openChairs : queued.floor.openChairs = [] := Floor.initial_openChairs

theorem seatsFound : queued.floor.seatsFound = [] := by
  unfold Floor.seatsFound
  rw [openSlots, openChairs]
  rfl

theorem delegatesFound : queued.floor.delegatesFound = [] := by
  unfold Floor.delegatesFound
  rw [openSlots]
  rfl

/-- The frame that records PRIORITY has the bottom frame of its link below it. -/
theorem above (higher : List StackFrame) (fr : StackFrame) (lower : List StackFrame) (h : queued.floor.stack = higher ++ fr :: lower)
    (priority : fr.chairState = some .priority) : ∃ g ∈ lower, g.source = fr.source := by
  change stack = higher ++ fr :: lower at h
  unfold stack at h
  match higher with
  | [] =>
    obtain ⟨rfl, -⟩ := List.cons.inj h
    exact nomatch priority
  | [_] =>
    obtain ⟨-, h⟩ := List.cons.inj h
    obtain ⟨rfl, rfl⟩ := List.cons.inj h
    exact ⟨frame .a .openFloor none, by simp, rfl⟩
  | [_, _] =>
    obtain ⟨-, h⟩ := List.cons.inj h
    obtain ⟨-, h⟩ := List.cons.inj h
    obtain ⟨rfl, -⟩ := List.cons.inj h
    exact nomatch priority
  | _ :: _ :: _ :: rest =>
    obtain ⟨-, h⟩ := List.cons.inj h
    obtain ⟨-, h⟩ := List.cons.inj h
    obtain ⟨-, h⟩ := List.cons.inj h
    have mem : fr ∈ [frame .a .openFloor none] := by
      rw [h]
      simp
    obtain rfl := List.mem_singleton.mp mem
    exact nomatch priority

theorem floorLaws : queued.FloorLaws where
  once := by rw [seatsFound]; exact List.nodup_nil
  requests := Nat.zero_le _
  replies := Nat.zero_le _
  entries fr hfr := by
    obtain ⟨-, entries, -⟩ := mem_stack hfr
    rw [entries]
    exact Nat.zero_le _
  shut := fun _ => ⟨rfl, rfl⟩
  bare fr hfr _ := by
    obtain ⟨records, entries, -⟩ := mem_stack hfr
    exact ⟨records, entries⟩
  held fr hfr x hx := by
    obtain ⟨records, -⟩ := mem_stack hfr
    rw [records] at hx
    exact nomatch hx
  replySlot := by
    constructor
    · rw [openSlots]
      exact nofun
    · rw [openSlots]
      exact Nat.zero_le _
    · intro fr hfr x hx
      obtain ⟨records, -⟩ := mem_stack hfr
      rw [records] at hx
      exact nomatch hx
    · intro fr hfr
      obtain ⟨records, -⟩ := mem_stack hfr
      rw [records]
      exact Nat.zero_le _
  priority := by
    constructor
    · rw [openChairs]
      exact nofun
    · intro fr hfr n seat
      obtain ⟨-, -, -, -, l, link⟩ := mem_stack hfr
      exact nomatch link.symm.trans seat
    · exact above
  targets := by
    constructor
    · exact nofun
    · exact nofun
    · exact ⟨fun some_ => absurd rfl some_, nofun⟩
    · intro fr hfr
      obtain ⟨-, -, subject, saved, -⟩ := mem_stack hfr
      exact ⟨fun some_ => absurd subject some_, fun round => absurd round saved⟩
    · intro fr hfr round
      obtain ⟨-, -, -, saved, -⟩ := mem_stack hfr
      exact absurd round saved
    · intro fr hfr e he
      obtain ⟨-, entries, -⟩ := mem_stack hfr
      rw [entries] at he
      exact nomatch he
  delegates := by rw [delegatesFound]; exact nofun
  chairs := by rw [openChairs]; exact nofun
  policy := Policy.initial_wf

/-- SUSPEND is taken. -/
theorem takes : state.Takes .a command 0x48 true 0 := ⟨rfl, rfl, fun _ => rfl, rfl⟩

/-- The frames that SUSPEND leaves: the pushed one above the first three, the third with the phase that the bottom frame saved. -/
theorem suspended : ∃ t pushed, step queued = .next t ∧ t.floor.stack =
    pushed :: [frame .b .interrupted none, frame .a .interrupted (some .priority), frame .b .openFloor none] := by
  obtain ⟨floor, -⟩ := suspend_event (s := state) (Nat.le_refl 4) .a
  have taken : step queued = exec (.suspend .a) state := rfl
  have stack := congrArg Floor.stack floor
  exact ⟨_, state.floor.frameOf state.time (.link .a) none, taken.trans (exec_suspend takes), stack⟩

end LinkPriority

/-- Refutes O59: after the SUSPEND of `LinkPriority.queued`, the frame of link A that records PRIORITY has no frame of link A below it. -/
theorem not_stepKeepsStack : ¬ Obligations.StepKeepsStack := by
  rintro ⟨-, -, keeps⟩
  obtain ⟨t, pushed, steps, stack⟩ := LinkPriority.suspended
  have laws := keeps _ t LinkPriority.stackWf LinkPriority.floorLaws steps
  obtain ⟨g, below, source⟩ := laws.priority.above [pushed, LinkPriority.frame .b .interrupted none]
    (LinkPriority.frame .a .interrupted (some .priority)) [LinkPriority.frame .b .openFloor none] stack rfl
  obtain rfl := List.mem_singleton.mp below
  exact nomatch source

end Sys2Proof.Machine
end

section
/-! SUPPORT. The law of the images under the claims of the seats, the stations and the intake, and under what lies outside an event
(R16, R19): an event keeps it when its body tells of every seat whose image it changes. -/

namespace Sys2Proof.Machine

namespace Claim.Tells

variable {c : Claim}

/-- A record changed in what no image rests on. -/
theorem modSeat (c : Claim) (n : Nat) {f : SeatRecord → SeatRecord} (hf : ∀ r : SeatRecord, r.Alike (f r))
    (presence : ∀ r : SeatRecord, (f r).presence = r.presence) : c.Tells (c.modSeat n f) := (Floored.modSeat c n hf presence).toTells

/-! ### The stations -/

theorem recordKind (c : Claim) (t : TrunkNo) (p : Nat) (r : StatusReport) : c.Tells (c.recordKind t p r) := by
  unfold Claim.recordKind
  split
  · exact modSeat c _ (fun _ => ⟨rfl, rfl, id⟩) fun _ => rfl
  · exact refl c

theorem checkMic (c : Claim) (t : TrunkNo) (p : Nat) (x y : Bool) : c.Tells (c.checkMic t p x y) := by
  unfold Claim.checkMic
  dsimp only
  split
  · exact modTrunk _ _ _
  · split
    · exact refl c
    · split
      · exact ((modTrunk c _ _).trans (Floored.notify _ _).toTells).trans (modSeat _ _ (fun _ => ⟨rfl, rfl, id⟩) fun _ => rfl)
      · exact (modTrunk c _ _).trans (Floored.notify _ _).toTells

theorem takeReport (c : Claim) (t : TrunkNo) (p : Nat) (r : StatusReport) : c.Tells (c.takeReport t p r) := by
  unfold Claim.takeReport
  dsimp only
  repeat' split
  · exact refl c
  · exact same rfl rfl rfl
  · exact refl c
  · exact same rfl rfl rfl

theorem takeStatus (c : Claim) (t : TrunkNo) (x : Transaction) (r : StatusReport) : c.Tells (c.takeStatus t x r) := by
  have running : c.Tells (if (c.st.trunk t).state = .fault then c.setTrunkState t .running else c) := by
    split
    · exact setTrunkState _ _ _
    · exact refl c
  have heard := running.trans (modTrunk _ t fun e => { e.modStation x.position fun y => { y with miss := 0 } with sweepHeard := true })
  unfold Claim.takeStatus
  dsimp only
  split
  · refine Tells.trans ?_ (modTrunk _ _ _)
    refine Tells.trans (Tells.trans ?_ (recordKind _ _ _ _)) (checkMic _ _ _ _ _)
    split
    · exact heard.trans (becomePresent _ _)
    · exact heard
  · refine Tells.trans (Tells.trans (Tells.trans ?_ (recordKind _ _ _ _)) (checkMic _ _ _ _ _)) (takeReport _ _ _ _)
    split
    · exact heard.trans (becomePresent _ _)
    · exact heard

theorem takeMiss (c : Claim) (t : TrunkNo) (p : Nat) : c.Tells (c.takeMiss t p) := by
  have counted := modTrunk c t (·.modStation p fun y => { y with miss := min 3 (((c.st.trunk t).station p).miss + 1) })
  unfold Claim.takeMiss
  dsimp only
  split
  · exact counted
  · split
    · exact counted
    · split
      · exact counted.trans (becomeAbsent _ _)
      · exact counted
    all_goals
      split
      · exact counted.trans (becomeAbsent _ _)
      · exact counted.trans (Floored.setPresence _ _ _).toTells

/-! ### The seats, the intake and the extension of a slot -/

theorem setEnabled (c : Claim) (v : Bool) (n : Nat) : c.Tells (c.setEnabled v n) := by
  have written : c.Tells (c.modSeat n fun r => { r with enabled := v }) := modSeat c n (fun _ => ⟨rfl, rfl, id⟩) fun _ => rfl
  unfold Claim.setEnabled
  dsimp only
  split
  · exact refl c
  · split
    · exact written
    · exact (written.trans (Floored.removeSeat _ n .disable).toTells).trans (Floored.fillPoint _).toTells

theorem intake (c : Claim) : c.Tells c.intake := by
  have drained : c.Tells (c.lift fun s => { s with trunks := s.trunks.map fun e =>
    { e with fifo := e.fifo.filter fun r => !r.qualifies c.time } }) := same rfl rfl rfl
  have told (l : List Notice) (d : Claim) : d.Tells (l.foldl Claim.notify d) := foldl (fun c n => (Floored.notify c n).toTells) l d
  have drawn (w : Word) (d : Claim) : d.Tells (d.modFloor fun f => { f with draw := w }) := same rfl rfl rfl
  have applied (l : List CaptureRecord) (d : Claim) : d.Tells (l.foldl Claim.applyRecord d) :=
    foldl (fun c r => (Floored.applyRecord c r).toTells) l d
  unfold Claim.intake
  dsimp only
  split
  · exact ((drained.trans (told _ _)).trans (drawn _ _)).trans (applied _ _)
  · exact (((drained.trans (told _ _)).trans (drawn _ _)).trans (applied _ _)).trans (Floored.fillPoint _).toTells

/-- A slot rewritten for its seat, which the event tells of (R83). -/
theorem rewriteSlot {i : Fin 6} {d e : DelegateSlot} (slot : c.floor.slots[i] = some d) (seat : e.seat = d.seat) (x : EventFlag) :
    c.Tells (((c.modFloor fun f => { f with slots := f.slots.set i (some e) }).raise x).touch d.seat) := by
  refine (Floored.ofFloor (f := fun f => { f with slots := f.slots.set i (some e) }) (· = d.seat) rfl (fun m other => ?_)
    ((Floored.raise _ x).trans (Floored.touch _ d.seat)) fun m own => ?_).toTells
  · refine Floor.Alike.setSlot (fun y hy => ?_) (fun y hy => ?_)
    · obtain rfl := Option.some.inj (slot.symm.trans hy)
      exact fun same => other same.symm
    · obtain rfl := Option.some.inj hy
      exact fun same => other (same.symm.trans seat)
  · rw [own]
    exact touch_told _ _

end Claim.Tells

/-! ### What keeps the law of the images -/

/-- The law of the images is kept. -/
def State.Pictured (s t : State) : Prop := s.ImageLaw → t.ImageLaw

namespace State.Pictured

variable {s t u : State}

theorem refl (s : State) : s.Pictured s := id

theorem trans (h : s.Pictured t) (g : t.Pictured u) : s.Pictured u := g ∘ h

theorem ofEq (h : t = s) : s.Pictured t := h ▸ refl s

/-- One event, whose body tells of every seat whose image it changes. -/
theorem event {body : Claim → Claim} (h : (Claim.start s).Tells (body (.start s))) : s.Pictured (s.event body) := event_imageLaw h

/-- The same for an event of the Floor Engine's. -/
theorem floored {body : Claim → Claim} (h : (Claim.start s).Floored (body (.start s))) : s.Pictured (s.event body) := event h.toTells

/-- A change of a seat's place or record that no image rests on. -/
theorem ofAlike (seat : ∀ n, (s.seat n).Alike (t.seat n)) (floor : ∀ n, s.floor.Alike t.floor n) (leads : ∀ n, t.leads n = s.leads n) :
    s.Pictured t := fun law => imageLaw_iff.mpr fun n => (imageLaw_iff.mp law n).congr (seat n) (floor n) (leads n)

/-- An edit of what lies outside the seats and the places of the floor. -/
theorem ofPlaces (seats : t.seats = s.seats) (places : t.floor.places = s.floor.places) : s.Pictured t := by
  refine ofAlike (Claim.Floored.seats_alike seats) (.ofPlaces places) (Claim.Floored.leads_congr ?_ seats)
  unfold Floor.places at places
  simp only [Prod.mk.injEq] at places
  exact places.2.2.1

theorem ofRest (seats : t.seats = s.seats) (floor : t.floor = s.floor) : s.Pictured t := ofPlaces seats (congrArg Floor.places floor)

theorem modFloor (s : State) {f : Floor → Floor} (places : ∀ x, (f x).places = x.places) : s.Pictured (s.modFloor f) :=
  ofPlaces rfl (places s.floor)

theorem modTime (s : State) (f : TimeBase → TimeBase) : s.Pictured (s.modTime f) := ofRest rfl rfl

theorem modTrunk (s : State) (tr : TrunkNo) (f : TrunkEngine → TrunkEngine) : s.Pictured (s.modTrunk tr f) := ofRest rfl rfl

theorem reachMoment (s : State) (m : Nat) : s.Pictured (s.reachMoment m) := ofRest rfl rfl

theorem raise (s : State) (e : EventFlag) : s.Pictured (s.raise e) := ofRest rfl rfl

theorem notify (s : State) (n : Notice) : s.Pictured (s.notify n) := ofRest rfl rfl

theorem modReport (s : State) (l : Link) (f : LinkReport → LinkReport) : s.Pictured (s.modReport l f) := by
  cases l <;> exact ofRest rfl rfl

theorem modPort (s : State) (l : Link) (f : LinkPort → LinkPort) : s.Pictured (s.modPort l f) := by
  cases l <;> exact ofRest rfl rfl

theorem due (s : State) (d : AdvanceDue) : s.Pictured { s with due := d } := ofRest rfl rfl

/-- A record changed in what no image rests on. -/
theorem modSeat (s : State) (n : Nat) {f : SeatRecord → SeatRecord} (hf : ∀ r : SeatRecord, r.Alike (f r))
    (presence : ∀ r : SeatRecord, (f r).presence = r.presence) : s.Pictured (s.modSeat n f) := fun law =>
  imageLaw_iff.mpr fun m =>
    ((Claim.Floored.modSeat (.start s) n hf presence).told m (.inr (imageLaw_iff.mp law m))).resolve_left (fun noted => nomatch noted)

theorem answer (s : State) (l : Link) (c : HeldCommand) (r : Reply) : s.Pictured (s.answer l c r) := by
  rw [answer_frame]
  exact ofRest rfl rfl

/-- A command row keeps the law when its action does (R165, R166). -/
theorem take {l : Link} {takes : HeldCommand → Bool} {needsControl : Bool} {lengths : Nat → Bool} {action : Action}
    (h : ∀ p, s.Pictured (action p s).1) : s.Pictured (s.take l takes needsControl lengths action) := by
  unfold State.take
  split
  · exact refl s
  · dsimp only
    repeat' split
    · exact answer _ _ _ _
    · exact (h _).trans (answer _ _ _ _)
    · exact answer _ _ _ _
    · exact refl s

end State.Pictured

end Sys2Proof.Machine
end

section
/-! SUPPORT. The law of the images under the commands of the seats and the request list, where a seat that waits is bound and waits once
(R1, R4 to R7, R36 to R41). -/

namespace Sys2Proof.Machine

/-- What the law of the images asks of the request list: a seat that waits is bound, and waits once (R15, R20). -/
structure State.Waits (s : State) : Prop where
  bound : ∀ e ∈ s.floor.requests, (s.seat e.seat).binding ≠ none
  once : (s.floor.requests.map (·.seat)).Nodup

/-- The laws of the floor ask it. -/
theorem State.FloorLaws.waits {s : State} (laws : s.FloorLaws) : s.Waits where
  bound e he := by
    have found : e.seat ∈ s.floor.delegatesFound := by
      simp only [Floor.delegatesFound, List.mem_append]
      exact .inl (.inl (.inl (List.mem_map_of_mem he)))
    obtain ⟨returns, -⟩ := laws.delegates e.seat found
    have delegate := (Bool.and_eq_true_iff.mp returns).1
    intro unbound
    unfold State.hasClass at delegate
    rw [unbound] at delegate
    exact nomatch delegate
  once := by
    have once := laws.once
    simp only [Floor.seatsFound, List.append_assoc] at once
    exact once.of_append_left

/-- It rests on the seats and the floor. -/
theorem State.Waits.congr {s t : State} (h : s.Waits) (seats : t.seats = s.seats) (floor : t.floor = s.floor) : t.Waits where
  bound e he := by
    rw [State.seat_congr seats]
    exact h.bound e (floor ▸ he)
  once := floor ▸ h.once

/-- Whether a seat leads rests on the presence of the seats that wait. -/
theorem State.leads_of_waiting {s t : State} (requests : t.floor.requests = s.floor.requests)
    (here : ∀ e ∈ s.floor.requests, t.isHere e.seat = s.isHere e.seat) (m : Nat) : t.leads m = s.leads m := by
  unfold State.leads State.firstPresent
  rw [requests, List.find?_congr here]

/-- A seat that a state leaves alone is present as before. -/
theorem State.isHere_of_seat {s t : State} {n : Nat} (h : t.seat n = s.seat n) : t.isHere n = s.isHere n := by
  unfold State.isHere
  rw [h]

/-- After its removal a seat waits in the request list no more. -/
theorem removeSeat_requests (c : Claim) (n : Nat) (why : Reason) : ∀ e ∈ (c.removeSeat n why).floor.requests, e.seat ≠ n := by
  intro e he
  have early := (Claim.dropReply_within (c.dequeue n why) n why).requests e ((Claim.closeSlotOf_within _ n why).requests e
    ((Claim.closeChairOf_within _ n why).requests e ((Claim.dropHeld_within _ n why).requests e he)))
  rw [Claim.dequeue_floor] at early
  exact of_decide_eq_true (List.mem_filter.mp early).2

theorem releasePair_touched (c : Claim) (n : Nat) : (c.releasePair n).touched = c.touched := by
  unfold Claim.releasePair
  split <;> rfl

/-- The release of the pair notes no seat and leaves the floor. -/
theorem unbind_parts (c : Claim) (n : Nat) : (c.unbind n).touched = (c.removeSeat n .unbind).touched ∧
    (c.unbind n).floor = (c.removeSeat n .unbind).floor := by
  refine ⟨?_, c.unbind_floor n⟩
  unfold Claim.unbind
  exact releasePair_touched _ n

/-- An unbinding tells of the other seats (R6, R19). -/
theorem unbind_told (c : Claim) {n m : Nat} (other : m ≠ n) (h : c.Told m) : (c.unbind n).Told m := by
  obtain ⟨touched, floor⟩ := unbind_parts c n
  have seat (k : Nat) (hk : k ≠ n) : (c.unbind n).st.seat k = (c.removeSeat n .unbind).st.seat k := by
    rw [Claim.unbind_seat_ne _ hk]
    unfold State.seat
    rw [Claim.removeSeat_seats]
  have away := removeSeat_requests c n .unbind
  have removed := (Claim.Floored.removeSeat c n .unbind).told m h
  unfold Claim.Told at removed ⊢
  rw [touched]
  generalize c.removeSeat n .unbind = d at *
  refine removed.imp_right fun ok => ok.congr (by rw [seat m other]; exact .refl _) ?_ ?_
  · rw [show (c.unbind n).st.floor = _ from floor]
    exact .refl _ m
  · exact State.leads_of_waiting (by rw [show (c.unbind n).st.floor = _ from floor]) (fun e he => State.isHere_of_seat (seat _ (away e he))) m

namespace State.Pictured

variable {s : State}

/-! ### The binding of a seat (R4 to R6) -/

/-- A change of one seat that waits not, of whose image the state shows R16's. -/
theorem ofOther {t : State} {n : Nat} (own : t.image n = (t.seat n).image) (other : ∀ m, m ≠ n → t.seat m = s.seat m) (floor : t.floor = s.floor)
    (away : ∀ e ∈ s.floor.requests, e.seat ≠ n) : s.Pictured t := fun law => by
  refine imageLaw_iff.mpr fun m => ?_
  by_cases same : m = n
  · rw [same]
    exact imageOk_of_image own
  · refine (imageLaw_iff.mp law m).congr (by rw [other m same]; exact .refl _) (by rw [floor]; exact .refl _ m) ?_
    exact leads_of_waiting (by rw [floor]) (fun e he => isHere_of_seat (other _ (away e he))) m

/-- A binding to another pair (R5). -/
theorem bind (s : State) {n : Nat} (b : Binding) (away : ∀ e ∈ s.floor.requests, e.seat ≠ n) :
    s.Pictured (s.event (·.bind n b)) := by
  refine ofOther ?_ (fun m other => bind_event_seat_ne other) (bind_event_rest s n b).1 away
  rw [bind_event, State.settleImage_image, State.settleImage_settled]

/-- Another class for the pair that a seat holds (R4). -/
theorem reclass (s : State) {n : Nat} {b : Binding} (away : ∀ e ∈ s.floor.requests, e.seat ≠ n) :
    s.Pictured (s.event fun c => (c.modSeat n fun r => { r with binding := some b }).touch n) := by
  intro law
  refine imageLaw_iff.mpr fun m => event_imageOk ?_
  by_cases own : m = n
  · rw [own]
    exact Claim.touch_told _ n
  · refine (Claim.Floored.touch _ n).told m (.inr ?_)
    have other (k : Nat) (h : k ≠ n) : ((Claim.start s).modSeat n fun r => { r with binding := some b }).st.seat k = s.seat k := by
      exact State.seat_modSeat_ne s h _
    have floor : ((Claim.start s).modSeat n fun r => { r with binding := some b }).st.floor = s.floor := State.modSeat_floor _ _ _
    refine (imageLaw_iff.mp law m).congr (by rw [other m own]; exact .refl _) (by rw [floor]; exact .refl _ m) ?_
    exact leads_of_waiting (by rw [floor]) (fun e he => isHere_of_seat (other _ (away e he))) m

/-- The unbinding of a seat (R6). -/
theorem unbind (s : State) {n : Nat} (known : (seatIndex n).isSome) : s.Pictured (s.event (·.unbind n)) := by
  intro law
  refine imageLaw_iff.mpr fun m => ?_
  by_cases own : m = n
  · rw [own]
    have seat := unbind_event_seat (s := s) known
    constructor <;> rw [seat] <;> simp
  · exact event_imageOk (unbind_told (.start s) own (.inr (imageLaw_iff.mp law m)))

end State.Pictured

end Sys2Proof.Machine
end

section
/-! SUPPORT. The law of the images under every row, so that every step keeps it (R16, R19). -/

namespace Sys2Proof.Machine

open Claim State

/-! ### The actions of the floor -/

section FloorActions

theorem listInsertAction_pictured (p : List Byte) (s : State) : s.Pictured (listInsertAction p s).1 := by
  unfold listInsertAction
  dsimp only
  split
  · exact .refl s
  · split
    · exact .refl s
    · split
      · exact .refl s
      · next i named =>
        split
        · exact .refl s
        · split
          · exact .refl s
          · dsimp only
            refine Pictured.floored ?_
            exact (Floored.enqueue (start s) _ (placeIndex_le named)).trans (Floored.fillPoint _)

theorem listRemoveAction_pictured (p : List Byte) (s : State) : s.Pictured (listRemoveAction p s).1 := by
  unfold listRemoveAction
  dsimp only
  repeat' split
  all_goals dsimp only [refuseWith]
  · exact .refl s
  · exact .refl s
  · refine Pictured.floored ?_
    exact Floored.dequeue (start s) _ _

/-- An entry put at another index is the list in another order, where each seat waits once (R39). -/
theorem moved_perm {l : List RequestEntry} (once : (l.map (·.seat)).Nodup) {e : RequestEntry} (he : e ∈ l) {i : Nat}
    (inside : i ≤ (l.filter (·.seat ≠ e.seat)).length) : ((l.filter (·.seat ≠ e.seat)).insertIdx i e).Perm l := by
  refine (List.perm_insertIdx e _ inside).trans ?_
  have apart : l.Nodup := once.of_map _
  refine (List.perm_ext_iff_of_nodup (List.nodup_cons.mpr ⟨fun mem => ?_, apart.filter _⟩) apart).mpr fun x => ?_
  · exact of_decide_eq_true (List.mem_filter.mp mem).2 rfl
  · rw [List.mem_cons, List.mem_filter]
    constructor
    · rintro (rfl | ⟨hx, -⟩)
      · exact he
      · exact hx
    · intro hx
      by_cases same : x.seat = e.seat
      · exact .inl (List.inj_on_of_nodup_map once hx he same)
      · exact .inr ⟨hx, decide_eq_true same⟩

theorem listMoveAction_pictured (p : List Byte) {s : State} (waits : s.Waits) : s.Pictured (listMoveAction p s).1 := by
  unfold listMoveAction
  dsimp only
  split
  · exact .refl s
  · split
    · exact .refl s
    · split
      · exact .refl s
      · next e waiting =>
        have he : e ∈ s.floor.requests := List.mem_of_find?_eq_some waiting
        have seat : e.seat = u16 p 0 := by simpa using List.find?_some waiting
        rw [← seat]
        split
        · exact .refl s
        · next i named =>
          split
          · exact .refl s
          · dsimp only
            refine Pictured.floored ?_
            exact (Floored.reorder (start s) (moved_perm waits.once he (placeIndex_le named))).trans (Floored.fillPoint _)

theorem listClearAction_pictured (p : List Byte) (s : State) : s.Pictured (listClearAction p s).1 := by
  unfold listClearAction
  split
  · exact .refl s
  · dsimp only
    refine Pictured.floored ?_
    exact Floored.clearRequests (start s) _

theorem listShuffleAction_pictured (p : List Byte) (s : State) : s.Pictured (listShuffleAction p s).1 := by
  unfold listShuffleAction
  dsimp only
  split
  · exact .refl s
  · dsimp only
    refine Pictured.floored ?_
    exact (Floored.reorder (start s) (drawOrder_perm s.floor.draw _)).trans (Floored.same rfl rfl rfl rfl)

theorem listGateAction_pictured (p : List Byte) (s : State) : s.Pictured (listGateAction p s).1 := by
  unfold listGateAction
  repeat' split
  all_goals dsimp only [refuseWith]
  · exact .refl s
  · exact .refl s
  · exact Pictured.ofPlaces rfl rfl

theorem intakeHoldAction_pictured (p : List Byte) (s : State) : s.Pictured (intakeHoldAction p s).1 := by
  unfold intakeHoldAction
  repeat' split
  all_goals dsimp only [refuseWith]
  · exact .refl s
  · exact .refl s
  · exact .modFloor s fun _ => rfl

theorem seedAction_pictured (p : List Byte) (s : State) : s.Pictured (seedAction p s).1 := by
  unfold seedAction
  split
  all_goals dsimp only [refuseWith]
  · exact .refl s
  · exact .modFloor s fun _ => rfl

theorem floorOpenAction_pictured (p : List Byte) (s : State) : s.Pictured (floorOpenAction p s).1 := by
  unfold floorOpenAction
  dsimp only
  split
  all_goals dsimp only [refuseWith]
  · exact .refl s
  · exact .refl s
  · exact .refl s
  · refine Pictured.floored ?_
    exact (Floored.setPhase (start s) _).trans (Floored.fillPoint _)

theorem floorHaltAction_pictured (p : List Byte) (s : State) : s.Pictured (floorHaltAction p s).1 := by
  unfold floorHaltAction
  split
  · exact .refl s
  · dsimp only
    refine Pictured.floored ?_
    exact Floored.haltFloor (start s)

theorem floorClearAction_pictured (p : List Byte) (s : State) : s.Pictured (floorClearAction p s).1 := by
  unfold floorClearAction
  split
  · exact .refl s
  · dsimp only
    refine Pictured.floored ?_
    exact Floored.clearAll (start s)

theorem grantAction_pictured (p : List Byte) (s : State) : s.Pictured (grantAction p s).1 := by
  unfold grantAction
  dsimp only
  repeat' split
  all_goals dsimp only [refuseWith]
  · exact .refl s
  · exact .refl s
  · exact .refl s
  · exact .refl s
  · refine Pictured.floored ?_
    exact Floored.grantHost (start s) _ _ _

theorem closeSeatAction_pictured (n : Nat) (s : State) : s.Pictured (closeSeatAction n s).1 := by
  unfold closeSeatAction
  repeat' split
  all_goals dsimp only [refuseWith]
  · exact .refl s
  · refine Pictured.floored ?_
    exact Floored.closeSlot (start s) _ _
  · exact .refl s
  · refine Pictured.floored ?_
    exact Floored.closeChair (start s) _ _
  · exact .refl s

theorem closeAllAction_pictured (s : State) : s.Pictured (closeAllAction s).1 := by
  have closed : s.Pictured (if s.floor.openCount = 0 ∧ s.floor.replies = [] then (s, Reply.of .unchanged [0])
      else (s.event closeAllSlots, .of .done [be8 s.floor.openCount]) : State × Reply).1 := by
    split
    · exact .refl s
    · dsimp only
      refine Pictured.floored ?_
      exact Floored.closeAllSlots (start s)
  unfold closeAllAction
  dsimp only
  split
  · exact .refl s
  · exact .refl s
  · exact closed
  · exact closed

theorem closeAction_pictured (p : List Byte) (s : State) : s.Pictured (closeAction p s).1 := by
  unfold closeAction
  split
  · exact closeSeatAction_pictured _ s
  · exact closeAllAction_pictured s
  · exact .refl s

theorem policySetAction_pictured (p : List Byte) (s : State) : s.Pictured (policySetAction p s).1 := by
  unfold policySetAction
  repeat' split
  all_goals dsimp only [refuseWith]
  · exact .refl s
  · exact .refl s
  · refine Pictured.floored ?_
    exact Floored.same rfl rfl rfl rfl

theorem extendHeld_pictured (s : State) (n : Nat) (h : HeldSlot) : s.Pictured (extendHeld s n h).1 := by
  unfold extendHeld
  dsimp only
  repeat' split
  all_goals dsimp only [refuseWith]
  · exact .refl s
  · exact .refl s
  · refine Pictured.ofAlike (fun _ => .refl _) (fun m => ?_) (Floored.leads_congr rfl rfl)
    refine Floor.Alike.ofStack ?_
    rw [List.any_map]
    refine congrArg (List.any _) (funext fun fr => ?_)
    simp only [Function.comp_apply, StackFrame.holds, List.any_map]
    congr 2
    funext x
    simp only [Function.comp_apply]
    split <;> rfl

theorem DelegateSlot.extend_seat (d : DelegateSlot) (now : ChamberTime) (n : Nat) : (d.extend now n).seat = d.seat := rfl

theorem extendAction_pictured (p : List Byte) (s : State) : s.Pictured (extendAction p s).1 := by
  unfold extendAction
  dsimp only
  split
  · exact .refl s
  · split
    · next i d slot =>
      obtain ⟨j, -, found⟩ := Option.bind_eq_some_iff.mp slot
      obtain ⟨x, place, same⟩ := Option.map_eq_some_iff.mp found
      obtain ⟨rfl, rfl⟩ := Prod.mk.inj same
      unfold extendSlot
      dsimp only
      repeat' split
      all_goals dsimp only
      · exact .refl s
      · exact .refl s
      · refine Pictured.event ?_
        exact Tells.rewriteSlot (c := start s) (e := x.extend s.time (u16 p 2)) place (x.extend_seat _ _) _
    · split
      · exact extendHeld_pictured s _ _
      · exact .refl s

theorem replyRemoveAction_pictured (p : List Byte) (s : State) : s.Pictured (replyRemoveAction p s).1 := by
  unfold replyRemoveAction
  dsimp only
  repeat' split
  all_goals dsimp only [refuseWith]
  · exact .refl s
  · exact .refl s
  · refine Pictured.floored ?_
    exact Floored.dropReply (start s) _ _

theorem replyEndAction_pictured (p : List Byte) (s : State) : s.Pictured (replyEndAction p s).1 := by
  unfold replyEndAction
  split
  · exact .refl s
  · dsimp only
    refine Pictured.floored ?_
    exact Floored.clearReplies (start s) _

theorem suspendAction_pictured (l : Link) (p : List Byte) (s : State) : s.Pictured (suspendAction l p s).1 := by
  unfold suspendAction
  dsimp only
  refine Pictured.floored ?_
  exact Floored.pushLink (start s) l

theorem resumeAction_pictured (p : List Byte) (s : State) : s.Pictured (resumeAction p s).1 := by
  unfold resumeAction
  split
  · exact .refl s
  · dsimp only
    refine Pictured.floored ?_
    exact Floored.pop (start s) .host

end FloorActions

end Sys2Proof.Machine
end

section
/-! SUPPORT. The law of the images under the actions of the seats, the Time Base, the trunks, the reports and the links (R16, R19). -/

namespace Sys2Proof.Machine

open Claim State

/-! ### The seats -/

/-- A seat that is IDLE waits in no list (R15). -/
theorem State.away_of_idle {s : State} {n : Nat} (idle : s.floorState n = .idle) : ∀ e ∈ s.floor.requests, e.seat ≠ n := by
  refine Floor.requestOf_eq_none.mp ?_
  unfold floorState at idle
  cases waiting : s.floor.requestOf n with
  | none => rfl
  | some e =>
    rw [waiting] at idle
    exact nomatch idle

theorem seatBindAction_pictured (p : List Byte) {s : State} (waits : s.Waits) : s.Pictured (seatBindAction p s).1 := by
  unfold seatBindAction
  dsimp only
  split
  · exact .refl s
  · split
    · split
      · exact .refl s
      · split
        · exact .refl s
        · next free =>
          have away : ∀ e ∈ s.floor.requests, e.seat ≠ u16 p 0 := by
            cases bound : (s.seat (u16 p 0)).binding with
            | none => exact fun e he same => waits.bound e he (same ▸ bound)
            | some b =>
              refine State.away_of_idle ?_
              rw [bound] at free
              simpa using free
          split
          · exact .refl s
          · split
            · exact .refl s
            · split
              · exact .reclass s away
              · exact .bind s _ away
    · exact .refl s

theorem seatUnbindAction_pictured (p : List Byte) (s : State) : s.Pictured (seatUnbindAction p s).1 := by
  unfold seatUnbindAction
  dsimp only
  split
  · exact .refl s
  · next range =>
    split
    · exact .refl s
    · refine Pictured.unbind s ?_
      have known : 1 ≤ u16 p 0 ∧ u16 p 0 ≤ 480 := by simpa [seatOk, Config.seats, Nat.one_le_iff_ne_zero] using range
      simp [seatIndex, known]

theorem seatEnableAction_pictured (p : List Byte) (s : State) : s.Pictured (seatEnableAction p s).1 := by
  unfold seatEnableAction
  repeat' split
  all_goals dsimp only [refuseWith]
  · exact .refl s
  · exact .refl s
  · exact .refl s
  · refine Pictured.event ?_
    exact (Floored.fillPoint (start s)).toTells.trans (Tells.foldl (fun c n => Tells.setEnabled c _ n) _ _)

theorem seatLabelAction_pictured (p : List Byte) (s : State) : s.Pictured (seatLabelAction p s).1 := by
  have stored (n : Nat) (codes : List Byte) : s.Pictured (s.storeLabel n codes) := by
    have labelled := Pictured.modSeat s n (f := fun r => { r with label := if codes = [] then none else some codes })
      (fun _ => ⟨rfl, rfl, id⟩) fun _ => rfl
    unfold State.storeLabel
    dsimp only
    split
    · exact labelled
    · exact labelled.trans (.ofRest (State.markSeat_seats _ _ _) (State.markSeat_floor _ _ _))
  unfold seatLabelAction
  dsimp only
  repeat' split
  · exact .refl s
  · exact .refl s
  · exact stored _ _
  · exact stored _ _

theorem marksClearAction_pictured (p : List Byte) (s : State) : s.Pictured (marksClearAction p s).1 := by
  have cleared : ∀ (ns : List Nat) (t : State), t.Pictured (t.modSeats ns SeatRecord.clearMarks) := by
    intro ns
    induction ns with
    | nil => exact fun t => .refl t
    | cons n ns ih => exact fun t => (Pictured.modSeat t n (f := SeatRecord.clearMarks) (fun _ => ⟨rfl, rfl, id⟩) fun _ => rfl).trans (ih _)
  cases range : seatRange p with
  | none => rw [marksClearAction_of_none range]; exact .refl s
  | some ns => rw [marksClearAction_of_some range]; exact cleared ns s

/-! ### The Time Base and the alarms -/

/-- A shift of the points moves no image: the places keep their seats, and a refusal display its end (R85). -/
theorem State.shiftPoints_pictured (s : State) (x : ChamberTime) : s.Pictured (s.shiftPoints x) := by
  have seat (n : Nat) : (s.shiftPoints x).seat n = { s.seat n with refusalUntil := (s.seat n).refusalUntil.map (· + x) } := s.shiftPoints_seat x n
  have slot (n : Nat) : (s.floor.shift x).slotOf n = s.floor.slotOf n := by
    refine List.find?_congr fun i _ => ?_
    simp only [Floor.shift, Fin.getElem_fin, Vector.getElem_map, Option.any_map]
    rfl
  have chair (n : Nat) : (s.floor.shift x).chairOf n = s.floor.chairOf n := by
    refine List.find?_congr fun i _ => ?_
    simp only [Floor.shift, Fin.getElem_fin, Vector.getElem_map, Option.any_map]
  have request (n : Nat) : (s.floor.shift x).requestOf n = none ↔ s.floor.requestOf n = none := by
    rw [Floor.requestOf_eq_none, Floor.requestOf_eq_none]
    simp [Floor.shift]
  have reply (n : Nat) : (s.floor.shift x).replyOf n = none ↔ s.floor.replyOf n = none := by
    rw [Floor.replyOf_eq_none, Floor.replyOf_eq_none]
    simp [Floor.shift]
  have held (n : Nat) : (s.floor.shift x).stack.any (·.holds n) = s.floor.stack.any (·.holds n) := by
    simp only [Floor.shift, List.any_map]
    exact List.any_congr rfl fun _ => rfl
  refine Pictured.ofAlike (fun n => ?_) (fun n => ⟨by rw [← slot n]; rfl, by rw [← chair n]; rfl, request n, reply n, held n⟩) fun n => ?_
  · rw [seat]
    exact ⟨rfl, rfl, fun some_ none_ => some_ (Option.map_eq_none_iff.mp none_)⟩
  · have here (m : Nat) : (s.shiftPoints x).isHere m = s.isHere m := by
      unfold State.isHere
      rw [seat]
    have requests : (s.shiftPoints x).floor.requests = s.floor.requests.map fun e => { e with stamp := e.stamp + x } := rfl
    unfold State.leads State.firstPresent
    simp only [requests, here, List.find?_map, Option.any_map]
    rfl

theorem timeSetAction_pictured (p : List Byte) (s : State) : s.Pictured (timeSetAction p s).1 := by
  unfold timeSetAction
  dsimp only
  split
  · exact .refl s
  · unfold State.setTime
    dsimp only
    have fired (t : State) : t.Pictured (t.event Claim.checkAlarms) := .floored (body := Claim.checkAlarms) (Floored.checkAlarms (start t))
    exact (((Pictured.modTime s _).trans (State.shiftPoints_pictured _ _)).trans (fired _)).trans ((Pictured.raise _ _).trans (.notify _ _))

theorem State.setSource_pictured (s : State) (src : TickSource) (count : Nat) : s.Pictured (s.setSource src count) := by
  unfold setSource
  dsimp only
  split
  · exact .modTime _ _
  · exact .ofRest rfl rfl

theorem timebaseModeAction_pictured (p : List Byte) (s : State) : s.Pictured (timebaseModeAction p s).1 := by
  unfold timebaseModeAction
  dsimp only
  repeat' split
  all_goals dsimp only [refuseWith]
  · exact .refl s
  · exact .refl s
  · exact (Pictured.modTime s _).trans (State.setSource_pictured _ _ _)
  · exact .modTime s _

theorem alarmSetAction_pictured (p : List Byte) (s : State) : s.Pictured (alarmSetAction p s).1 := by
  have fired (t : State) (i : Fin 3) : t.Pictured (t.event (·.fireAlarm i)) := .floored (body := (·.fireAlarm i)) (Floored.fireAlarm (start t) i)
  unfold alarmSetAction
  dsimp only
  repeat' split
  all_goals dsimp only [refuseWith]
  · exact .refl s
  · exact (Pictured.modTime s _).trans (fired _ _)
  · exact .modTime s _
  · exact .refl s

theorem alarmClearAction_pictured (p : List Byte) (s : State) : s.Pictured (alarmClearAction p s).1 := by
  unfold alarmClearAction
  dsimp only
  repeat' split
  all_goals dsimp only [refuseWith]
  · exact .modTime s _
  · exact .refl s
  · exact .refl s

/-! ### The trunks -/

theorem State.enumerate_pictured (s : State) (t : TrunkNo) : s.Pictured (s.enumerate t) := by
  unfold enumerate sendAssign
  refine Pictured.trans ?_ (.modTrunk _ t _)
  exact .event (body := (·.startEnumeration t)) (Tells.startEnumeration (start s) t)

theorem State.disableTrunk_pictured (s : State) (t : TrunkNo) : s.Pictured ((s.event (·.disableTrunk t)).stopLine t) := by
  refine Pictured.trans (t := s.event (·.disableTrunk t)) ?_ (.modTrunk _ t _)
  exact .event (body := (·.disableTrunk t)) (Tells.disableTrunk (start s) t)

theorem onTrunk_pictured {f : TrunkNo → Action} (h : ∀ t p s, State.Pictured s (f t p s).1) (p : List Byte) (s : State) :
    s.Pictured (onTrunk f p s).1 := by
  unfold onTrunk
  split
  · exact h _ _ _
  · exact .refl s

theorem trunkControlAction_pictured (p : List Byte) (s : State) : s.Pictured (trunkControlAction p s).1 := by
  refine onTrunk_pictured (fun t p s => ?_) p s
  dsimp only
  split
  all_goals dsimp only [refuseWith]
  · exact State.enumerate_pictured s t
  · exact .refl s
  · exact .refl s
  · exact .refl s
  · exact .refl s
  · exact State.enumerate_pictured s t
  · exact State.enumerate_pictured s t
  · exact State.enumerate_pictured s t
  · exact .refl s
  · exact State.disableTrunk_pictured s t
  · exact State.disableTrunk_pictured s t
  · exact State.disableTrunk_pictured s t
  · exact .refl s

theorem trunkConfigAction_pictured (p : List Byte) (s : State) : s.Pictured (trunkConfigAction p s).1 := by
  refine onTrunk_pictured (fun t p s => ?_) p s
  dsimp only
  repeat' split
  all_goals dsimp only [refuseWith]
  · exact .refl s
  · exact .refl s
  · exact .modTrunk s t _

theorem trunkReadAction_pictured (p : List Byte) (s : State) : s.Pictured (trunkReadAction p s).1 :=
  onTrunk_pictured (fun _ _ s => .refl s) p s

theorem countsClearAction_pictured (p : List Byte) (s : State) : s.Pictured (countsClearAction p s).1 := by
  refine onTrunk_pictured (fun t p s => ?_) p s
  dsimp only
  exact .modTrunk s t _

/-! ### The reports and the links -/

theorem takeEventsAction_pictured (l : Link) (p : List Byte) (s : State) : s.Pictured (takeEventsAction l p s).1 := by
  rw [takeEventsAction_eq]
  exact .modReport s l _

theorem takeNoticesAction_pictured (l : Link) (p : List Byte) (s : State) : s.Pictured (takeNoticesAction l p s).1 := by
  unfold takeNoticesAction
  dsimp only
  split
  · exact .refl s
  · dsimp only
    exact .modReport s l _

theorem attnMaskAction_pictured (l : Link) (p : List Byte) (s : State) : s.Pictured (attnMaskAction l p s).1 := by
  unfold attnMaskAction
  dsimp only
  split
  all_goals dsimp only
  · exact .refl s
  · exact .modReport s l _

theorem noticeFilterAction_pictured (l : Link) (p : List Byte) (s : State) : s.Pictured (noticeFilterAction l p s).1 := by
  unfold noticeFilterAction
  dsimp only
  split
  all_goals dsimp only
  · exact .refl s
  · exact .modReport s l _

theorem linesSetAction_pictured (p : List Byte) (s : State) : s.Pictured (linesSetAction p s).1 := by
  have set (i : Fin 2) (x : StatLine) : s.Pictured (s.setLine i x) := by
    unfold State.setLine
    split <;> exact .ofRest rfl rfl
  unfold linesSetAction
  dsimp only
  repeat' split
  all_goals dsimp only [refuseWith]
  · exact .refl s
  · exact set _ _
  · exact .refl s
  · exact .refl s

theorem State.moveAuthority_pictured (s : State) (l : Link) (cause : Byte) : s.Pictured (s.moveAuthority l cause) := .ofRest rfl rfl

theorem claimAction_pictured (l : Link) (p : List Byte) (s : State) : s.Pictured (claimAction l p s).1 := by
  unfold claimAction
  repeat' split
  all_goals dsimp only [refuseWith]
  · exact .refl s
  · exact s.moveAuthority_pictured l 1
  · exact .refl s

theorem linkConfigAction_pictured (p : List Byte) (s : State) : s.Pictured (linkConfigAction p s).1 := by
  unfold linkConfigAction
  dsimp only
  repeat' split
  all_goals dsimp only [refuseWith]
  · exact .refl s
  · exact .refl s
  · exact .ofRest rfl rfl

end Sys2Proof.Machine
end

section
/-! SUPPORT. FloorFrame: the frames of the floor's rows and passes, the image by R16's table, and the law of the images under every row
(R1, R16, R18, R19, R146). -/

namespace Sys2Proof.Machine

open Claim State

/-! ### The engines, the ticks and the advances -/

namespace State

theorem completeTrunk_pictured (s : State) (t : TrunkNo) : s.Pictured (s.completeTrunk t) := by
  have completed : s.Pictured (s.event (·.completeEnumeration t)) :=
    .event (body := (·.completeEnumeration t)) (Tells.completeEnumeration (start s) t)
  unfold completeTrunk
  dsimp only
  split
  · exact completed.trans (.modTrunk _ t _)
  · exact completed

theorem foundCount_pictured (s : State) (t : TrunkNo) (n : Nat) : s.Pictured (s.foundCount t n) := by
  have found := Pictured.modTrunk s t fun e => { e with found := n, plan := .probing 1 }
  unfold foundCount
  dsimp only
  split
  · exact found.trans (completeTrunk_pictured _ t)
  · exact found

theorem endSweep_pictured (s : State) (t : TrunkNo) : s.Pictured (s.endSweep t) := by
  have ended := Pictured.modTrunk s t fun e => { e with plan := .waiting }
  unfold endSweep
  dsimp only
  split
  · exact ended.trans (.ofRest rfl rfl)
  · exact ended

theorem afterTransaction_pictured (s : State) (t : TrunkNo) : s.Pictured (s.afterTransaction t) := by
  unfold afterTransaction
  dsimp only
  split
  · split
    · exact completeTrunk_pictured s t
    · exact .refl s
  · split
    · exact endSweep_pictured s t
    · exact .refl s
  · exact .refl s

theorem faultTransaction_pictured (s : State) (t : TrunkNo) (x : Transaction) : s.Pictured (s.faultTransaction t x) := by
  have ended := Pictured.modTrunk s t fun e => { e with inFlight := none }
  have missed (u : State) : u.Pictured (u.event (·.takeMiss t x.position)) :=
    .event (body := (·.takeMiss t x.position)) (Tells.takeMiss (start u) t x.position)
  unfold faultTransaction
  dsimp only
  refine Pictured.trans ?_ (afterTransaction_pictured _ t)
  split
  · exact ended.trans (.modTrunk _ t _)
  · exact ended.trans (missed _)

theorem takeProbe_pictured (s : State) (t : TrunkNo) (p : Nat) (r : StatusReport) : s.Pictured ((Claim.start s).takeProbe t p r).st := by
  have answered : s.Pictured (s.modTrunk t (·.modStation p fun y => { y with toggle := r.toggle, miss := 0 })) := .modTrunk s t _
  unfold Claim.takeProbe Claim.recordKind
  split
  · refine answered.trans (Pictured.modSeat (f := fun x => { x with kind := some r.counts.kind }) _ _ (fun _ => ⟨rfl, rfl, id⟩) fun _ => rfl)
  · exact answered

theorem takeStatus_pictured (s : State) (t : TrunkNo) (x : Transaction) (r : StatusReport) : s.Pictured (s.event (·.takeStatus t x r)) :=
  .event (body := (·.takeStatus t x r)) (Tells.takeStatus (start s) t x r)

theorem tick_pictured (s : State) (m : Nat) : s.Pictured (s.tick m) := .ofRest rfl rfl

theorem fallback_pictured (s : State) (m : Nat) (src : TickSource) (count : Nat) : s.Pictured (s.tickWithSource m src count) := by
  have drawn : s.Pictured { s with freeDraws := s.freeDraws + 1 } := .ofRest rfl rfl
  unfold tickWithSource
  dsimp only
  split
  · exact drawn.trans ((setSource_pictured _ _ _).trans (tick_pictured _ _))
  · exact drawn.trans ((tick_pictured _ _).trans (setSource_pictured _ _ _))

theorem countPulse_pictured (s : State) (m : Nat) (src : TickSource) (count : Nat) : s.Pictured (s.countPulse m src count) :=
  (setSource_pictured _ _ _).trans (.modTime _ _)

theorem takePulse_pictured (s : State) : s.Pictured s.takePulse := by
  unfold takePulse
  split
  · split
    · exact countPulse_pictured _ _ _ _
    · exact .refl s
  · unfold qualifyingPulse
    dsimp only
    repeat' split
    · exact countPulse_pictured _ _ _ _
    · exact countPulse_pictured _ _ _ _
    · exact (Pictured.modTime _ _).trans (fallback_pictured _ _ _ _)
    · exact (Pictured.modTime _ _).trans (setSource_pictured _ _ _)
  · unfold externalPulse
    split
    · exact tick_pictured _ _
    · exact setSource_pictured _ _ _

theorem pulse_pictured (s : State) (m : Nat) : s.Pictured (s.pulse m) := by
  unfold pulse
  dsimp only
  split
  · exact (Pictured.reachMoment s m).trans ((fallback_pictured _ _ _ _).trans (takePulse_pictured _))
  · exact (Pictured.reachMoment s m).trans (takePulse_pictured _)

theorem countBeat_pictured (s : State) : s.Pictured s.countBeat := by
  unfold countBeat
  split <;> exact .ofRest rfl rfl

theorem measureSilence_pictured (s : State) : s.Pictured s.measureSilence := by
  unfold measureSilence
  dsimp only
  split
  · exact .ofRest rfl rfl
  · exact .refl s

/-- At reset no seat is bound, and every image is SHUT and OFF (R173). -/
theorem deviceReset_pictured (s : State) : s.Pictured s.deviceReset := fun _ => by
  have dark (n : Nat) : s.deviceReset.seat n = SeatRecord.initial := State.reset_seat n
  constructor <;> simp [dark, SeatRecord.initial]

theorem completeFrame_pictured (s : State) (l : Link) (frame : List Byte) : s.Pictured (s.completeFrame l frame) := by
  unfold completeFrame
  dsimp only
  split
  · cases l <;> (split <;> exact .ofRest rfl rfl)
  · cases l <;> exact .ofRest rfl rfl

theorem receiveByte_pictured (s : State) (l : Link) (b : Byte) (m : Nat) : s.Pictured (s.receiveByte l b m) := by
  have settled : s.Pictured (((s.reachMoment m).settleSilence l).modPort l fun p =>
      { p with lastByteAt := ((s.reachMoment m).settleSilence l).now }) :=
    ((Pictured.reachMoment s m).trans (.modPort _ l _)).trans (.modPort _ l _)
  unfold receiveByte
  dsimp only
  split
  · split
    · exact settled.trans (.modPort _ l _)
    · exact settled
  · split
    · exact settled.trans (.modPort _ l _)
    · split
      · exact settled.trans (completeFrame_pictured _ l _)
      · exact settled.trans (.modPort _ l _)

end State

/-! ### The rows that are no commands -/

theorem intake_pictured {s t : State} (h : exec .intake s = .next t) : s.Pictured t := by
  have taken (u : State) : u.Pictured (u.event Claim.intake) := .event (body := Claim.intake) (Tells.intake (start u))
  obtain rfl := Host.Outcome.next.inj h
  split
  · dsimp only
    split
    · exact .due s _
    · exact (Pictured.due s _).trans (taken _)
  · exact .refl s

theorem deadlinePass_pictured {s t : State} (h : exec .deadlinePass s = .next t) : s.Pictured t := by
  have passed (u : State) : u.Pictured (u.event Claim.deadlinePass) := .floored (body := Claim.deadlinePass) (Floored.deadlinePass (start u))
  obtain rfl := Host.Outcome.next.inj h
  split
  · exact (Pictured.due s _).trans (passed _)
  · exact .refl s

theorem displacementCheck_pictured {s t : State} (h : exec .displacementCheck s = .next t) : s.Pictured t := by
  have checked (u : State) : u.Pictured (u.event Claim.checkDisplacement) :=
    .floored (body := Claim.checkDisplacement) (Floored.checkDisplacement (start u))
  obtain rfl := Host.Outcome.next.inj h
  split
  · exact (Pictured.due s _).trans (checked _)
  · exact .refl s

theorem refusalEnd_pictured {s t : State} (h : exec .refusalEnd s = .next t) : s.Pictured t := by
  have ended (u : State) : u.Pictured (u.event Claim.endRefusals) := .floored (body := Claim.endRefusals) (Floored.endRefusals (start u))
  obtain rfl := Host.Outcome.next.inj h
  split
  · exact (Pictured.due s _).trans (ended _)
  · exact .refl s

theorem alarmCheck_pictured {s t : State} (h : exec .alarmCheck s = .next t) : s.Pictured t := by
  have checked (u : State) : u.Pictured (u.event Claim.checkAlarms) := .floored (body := Claim.checkAlarms) (Floored.checkAlarms (start u))
  obtain rfl := Host.Outcome.next.inj h
  split
  · exact (Pictured.due s _).trans (checked _)
  · exact .refl s

theorem tallyReceived_pictured (tr : TrunkNo) (bytes : List Byte) (m : Nat) {s t : State}
    (h : exec (.tallyReceived tr bytes m) s = .next t) : s.Pictured t := by
  obtain rfl := Host.Outcome.next.inj h
  split
  · split
    · have moved := Pictured.reachMoment s (s.answerAt tr m)
      dsimp only
      split
      · exact moved
      · exact moved.trans (.modTrunk _ tr _)
      · split
        · exact moved.trans (State.foundCount_pictured _ tr _)
        · exact (moved.trans (.notify _ _)).trans (State.foundCount_pictured _ tr _)
    · exact .refl s
  · exact .refl s

theorem tallyWaitExpiry_pictured (tr : TrunkNo) {s t : State} (h : exec (.tallyWaitExpiry tr) s = .next t) : s.Pictured t := by
  obtain rfl := Host.Outcome.next.inj h
  split
  · exact (Pictured.reachMoment s _).trans (State.foundCount_pictured _ tr _)
  · exact .refl s

theorem probe_pictured (tr : TrunkNo) {s t : State} (h : exec (.probe tr) s = .next t) : s.Pictured t := by
  obtain rfl := Host.Outcome.next.inj h
  split
  · split
    · exact .modTrunk s tr _
    · exact .refl s
  · exact .refl s

theorem probeAnswer_pictured (tr : TrunkNo) (bytes : List Byte) (m : Nat) {s t : State}
    (h : exec (.probeAnswer tr bytes m) s = .next t) : s.Pictured t := by
  obtain rfl := Host.Outcome.next.inj h
  split
  · exact .refl s
  · split
    · dsimp only
      refine Pictured.trans (Pictured.trans ?_ (State.takeProbe_pictured _ tr _ _)) (State.afterTransaction_pictured _ tr)
      exact (Pictured.reachMoment s _).trans (.modTrunk _ tr _)
    · exact .refl s

theorem sweepStart_pictured (tr : TrunkNo) {s t : State} (h : exec (.sweepStart tr) s = .next t) : s.Pictured t := by
  obtain rfl := Host.Outcome.next.inj h
  split
  · exact (Pictured.reachMoment s _).trans (.modTrunk _ tr _)
  · exact .refl s

theorem sweepPoll_pictured (tr : TrunkNo) {s t : State} (h : exec (.sweepPoll tr) s = .next t) : s.Pictured t := by
  obtain rfl := Host.Outcome.next.inj h
  split
  · split
    · exact .modTrunk s tr _
    · exact .refl s
  · exact .refl s

theorem sendBeat_pictured (tr : TrunkNo) {s t : State} (h : exec (.sendBeat tr) s = .next t) : s.Pictured t := by
  obtain rfl := Host.Outcome.next.inj h
  split
  · exact .modTrunk s tr _
  · exact .refl s

theorem servePending_pictured (tr : TrunkNo) {s t : State} (h : exec (.servePending tr) s = .next t) : s.Pictured t := by
  obtain rfl := Host.Outcome.next.inj h
  split
  · split
    · exact .modTrunk s tr _
    · exact .refl s
  · exact .refl s

theorem statusAnswer_pictured (tr : TrunkNo) (bytes : List Byte) (m : Nat) {s t : State}
    (h : exec (.statusAnswer tr bytes m) s = .next t) : s.Pictured t := by
  obtain rfl := Host.Outcome.next.inj h
  split
  · exact .refl s
  · split
    · dsimp only
      refine Pictured.trans (Pictured.trans ?_ (State.takeStatus_pictured _ tr _ _)) (State.afterTransaction_pictured _ tr)
      exact (Pictured.reachMoment s _).trans (.modTrunk _ tr _)
    · exact .refl s

theorem answerFault_pictured (tr : TrunkNo) (bytes : List Byte) (m : Nat) {s t : State}
    (h : exec (.answerFault tr bytes m) s = .next t) : s.Pictured t := by
  obtain rfl := Host.Outcome.next.inj h
  split
  · exact .refl s
  · dsimp only
    split
    · exact .refl s
    · exact ((Pictured.reachMoment s _).trans (.modTrunk _ tr _)).trans (State.faultTransaction_pictured _ tr _)
    · exact ((Pictured.reachMoment s _).trans (.modTrunk _ tr _)).trans (State.faultTransaction_pictured _ tr _)

theorem answerWaitExpiry_pictured (tr : TrunkNo) {s t : State} (h : exec (.answerWaitExpiry tr) s = .next t) : s.Pictured t := by
  obtain rfl := Host.Outcome.next.inj h
  split
  · exact .refl s
  · exact ((Pictured.reachMoment s _).trans (.modTrunk _ tr _)).trans (State.faultTransaction_pictured _ tr _)

/-! ### Every row -/

/-- A row that answers with this state keeps the law that the state keeps. -/
theorem State.Pictured.next {s t u : State} (h : (Host.Outcome.next u : Host.Outcome State Fault Refusal) = .next t) (k : s.Pictured u) :
    s.Pictured t := Host.Outcome.next.inj h ▸ k

/-- Every row keeps the law of the images, where a seat that waits is bound and waits once. -/
theorem exec_pictured (i : Instr) {s t : State} (waits : s.Waits) (h : exec i s = .next t) : s.Pictured t := by
  cases i with
  | unknownCommand l => exact .next h (.take fun p => .refl _)
  | identify l => exact .next h (.take fun p => .refl _)
  | restart l => exact .next h (.take fun p => .refl _)
  | authorityHand l => exact .next h (.take fun p => State.moveAuthority_pictured _ _ _)
  | authorityClaim l => exact .next h (.take fun p => claimAction_pictured l p _)
  | linkConfig l => exact .next h (.take fun p => linkConfigAction_pictured p _)
  | seatBind l => exact .next h (.take fun p => seatBindAction_pictured p waits)
  | seatUnbind l => exact .next h (.take fun p => seatUnbindAction_pictured p _)
  | seatEnable l => exact .next h (.take fun p => seatEnableAction_pictured p _)
  | seatLabel l => exact .next h (.take fun p => seatLabelAction_pictured p _)
  | seatRead l => exact .next h (.take fun p => .ofEq (seatReadAction_fst p _))
  | marksClear l => exact .next h (.take fun p => marksClearAction_pictured p _)
  | listInsert l => exact .next h (.take fun p => listInsertAction_pictured p _)
  | listRemove l => exact .next h (.take fun p => listRemoveAction_pictured p _)
  | listMove l => exact .next h (.take fun p => listMoveAction_pictured p waits)
  | listClear l => exact .next h (.take fun p => listClearAction_pictured p _)
  | listShuffle l => exact .next h (.take fun p => listShuffleAction_pictured p _)
  | listGate l => exact .next h (.take fun p => listGateAction_pictured p _)
  | listRead l => exact .next h (.take fun p => .ofEq (listReadAction_fst p _))
  | intakeHold l => exact .next h (.take fun p => intakeHoldAction_pictured p _)
  | seed l => exact .next h (.take fun p => seedAction_pictured p _)
  | floorOpen l => exact .next h (.take fun p => floorOpenAction_pictured p _)
  | floorHalt l => exact .next h (.take fun p => floorHaltAction_pictured p _)
  | floorClear l => exact .next h (.take fun p => floorClearAction_pictured p _)
  | grantNext l => exact .next h (.take fun p => grantAction_pictured p _)
  | grantSeat l => exact .next h (.take fun p => grantAction_pictured p _)
  | closeSeat l => exact .next h (.take fun p => closeAction_pictured p _)
  | closeAll l => exact .next h (.take fun p => closeAction_pictured p _)
  | floorRead l => exact .next h (.take fun p => .refl _)
  | policySet l => exact .next h (.take fun p => policySetAction_pictured p _)
  | policyRead l => exact .next h (.take fun p => .refl _)
  | extend l => exact .next h (.take fun p => extendAction_pictured p _)
  | replyRead l => exact .next h (.take fun p => .refl _)
  | replyRemove l => exact .next h (.take fun p => replyRemoveAction_pictured p _)
  | replyEnd l => exact .next h (.take fun p => replyEndAction_pictured p _)
  | suspend l => exact .next h (.take fun p => suspendAction_pictured l p _)
  | resume l => exact .next h (.take fun p => resumeAction_pictured p _)
  | stackRead l => exact .next h (.take fun p => .ofEq (stackReadAction_fst p _))
  | timeSet l => exact .next h (.take fun p => timeSetAction_pictured p _)
  | timeRead l => exact .next h (.take fun p => .refl _)
  | timebaseMode l => exact .next h (.take fun p => timebaseModeAction_pictured p _)
  | alarmSet l => exact .next h (.take fun p => alarmSetAction_pictured p _)
  | alarmClear l => exact .next h (.take fun p => alarmClearAction_pictured p _)
  | trunkEnable l => exact .next h (.take fun p => trunkControlAction_pictured p _)
  | trunkEnumerate l => exact .next h (.take fun p => trunkControlAction_pictured p _)
  | trunkDisable l => exact .next h (.take fun p => trunkControlAction_pictured p _)
  | trunkConfig l => exact .next h (.take fun p => trunkConfigAction_pictured p _)
  | trunkRead l => exact .next h (.take fun p => trunkReadAction_pictured p _)
  | countsClear l => exact .next h (.take fun p => countsClearAction_pictured p _)
  | takeEvents l => exact .next h (.take fun p => takeEventsAction_pictured l p _)
  | takeNotices l => exact .next h (.take fun p => takeNoticesAction_pictured l p _)
  | attnMask l => exact .next h (.take fun p => attnMaskAction_pictured l p _)
  | noticeFilter l => exact .next h (.take fun p => noticeFilterAction_pictured l p _)
  | linesSet l => exact .next h (.take fun p => linesSetAction_pictured p _)
  | deviceReset => exact .next h (s.deviceReset_pictured.trans (.ofRest rfl rfl))
  | resetRelease b1 b0 m =>
    refine .next h ?_
    split
    · exact .ofRest rfl rfl
    · exact .refl s
  | holdInputChange high => exact .next h (.ofRest rfl rfl)
  | internalTick =>
    refine .next h ?_
    split
    · exact (Pictured.reachMoment s _).trans (State.tick_pictured _ _)
    · exact .refl s
  | trefPulse m =>
    refine .next h ?_
    split
    · exact .refl s
    · exact s.pulse_pictured m
  | fallbackTick =>
    refine .next h ?_
    split
    · exact (Pictured.reachMoment s _).trans (State.fallback_pictured _ _ _ _)
    · exact .refl s
  | intake => exact intake_pictured h
  | deadlinePass => exact deadlinePass_pictured h
  | displacementCheck => exact displacementCheck_pictured h
  | refusalEnd => exact refusalEnd_pictured h
  | alarmCheck => exact alarmCheck_pictured h
  | beat =>
    refine .next h ?_
    split
    · exact (Pictured.due s _).trans (State.countBeat_pictured _)
    · exact .refl s
  | silenceMeasure =>
    refine .next h ?_
    split
    · exact (Pictured.due s _).trans (State.measureSilence_pictured _)
    · exact .refl s
  | linkByte l b m =>
    refine .next h ?_
    split
    · exact .refl s
    · exact s.receiveByte_pictured l b m
  | linkFrameComplete l b m =>
    refine .next h ?_
    split
    · exact s.receiveByte_pictured l b m
    · exact .refl s
  | lenReject l b m =>
    refine .next h ?_
    split
    · exact s.receiveByte_pictured l b m
    · exact .refl s
  | linkFrameTimeout l =>
    refine .next h ?_
    split
    · exact (Pictured.reachMoment s _).trans (.modPort _ l _)
    · exact .refl s
  | replySent l =>
    refine .next h ?_
    split
    · split
      · exact s.deviceReset_pictured
      · exact .modPort s l _
    · exact .refl s
  | rejectSent l =>
    refine .next h ?_
    split
    · exact .modPort s l _
    · exact .refl s
  | tallyReceived tr bytes m => exact tallyReceived_pictured tr bytes m h
  | tallyWaitExpiry tr => exact tallyWaitExpiry_pictured tr h
  | probe tr => exact probe_pictured tr h
  | probeAnswer tr bytes m => exact probeAnswer_pictured tr bytes m h
  | sweepStart tr => exact sweepStart_pictured tr h
  | sweepPoll tr => exact sweepPoll_pictured tr h
  | sendBeat tr => exact sendBeat_pictured tr h
  | servePending tr => exact servePending_pictured tr h
  | statusAnswer tr bytes m => exact statusAnswer_pictured tr bytes m h
  | answerFault tr bytes m => exact answerFault_pictured tr bytes m h
  | answerWaitExpiry tr => exact answerWaitExpiry_pictured tr h

/-- Every step keeps the law of the images. -/
theorem step_pictured {s t : State} (waits : s.Waits) (h : step s = .next t) : s.Pictured t := by
  unfold step at h
  split at h
  · exact .next h (.refl s)
  · next rest _ =>
    have unqueued : s.Pictured { s with pending := rest } := .ofRest rfl rfl
    exact unqueued.trans (exec_pictured _ (waits.congr (t := { s with pending := rest }) rfl rfl) h)

end Sys2Proof.Machine
end

section
/-! SUPPORT. FloorFrame: the frames of the floor's rows and passes, and the image of a seat by R16's table. -/

namespace Sys2Proof.Machine

/-! ### The frames of the floor's rows (R1) -/

/-- What a row of the floor's commands does: a change within the floor's frame, answered or not. -/
def State.FramedRow (s : State) (row : Link → Instr) (l : Link) : Prop := ∃ u : State, s.FloorFrame u ∧
  (exec (row l) s = .next u ∨ ∃ c r, exec (row l) s = .next (u.answer l c r))

/-- A command row acts within the frame of its action. -/
theorem State.take_framed {s : State} {l : Link} {takes : HeldCommand → Bool} {needsControl : Bool} {lengths : Nat → Bool} {action : Action}
    {row : Link → Instr} (runs : exec (row l) s = .next (s.take l takes needsControl lengths action))
    (h : ∀ p, s.FloorFrame (action p s).1) : s.FramedRow row l := by
  have kept : ∃ u : State, s.FloorFrame u ∧ (s.take l takes needsControl lengths action = u ∨
      ∃ c r, s.take l takes needsControl lengths action = u.answer l c r) := by
    unfold State.take
    split
    · exact ⟨s, .refl s, .inl rfl⟩
    · dsimp only
      repeat' split
      · exact ⟨s, .refl s, .inr ⟨_, _, rfl⟩⟩
      · exact ⟨_, h _, .inr ⟨_, _, rfl⟩⟩
      · exact ⟨s, .refl s, .inr ⟨_, _, rfl⟩⟩
      · exact ⟨s, .refl s, .inl rfl⟩
  obtain ⟨u, frame, same | ⟨c, r, same⟩⟩ := kept
  · exact ⟨u, frame, .inl (runs.trans (congrArg _ same))⟩
  · exact ⟨u, frame, .inr ⟨c, r, runs.trans (congrArg _ same)⟩⟩

/-- Every row of the floor's commands keeps the floor's frame. -/
theorem floorRows_framed : ∀ row ∈ floorRows, ∀ (s : State) (l : Link), s.FramedRow row l := by
  simp only [floorRows, List.forall_mem_cons]
  refine ⟨?_, ?_, ?_, ?_, ?_, ?_, ?_, ?_, ?_, ?_, ?_, ?_, ?_, ?_, ?_, ?_, ?_, ?_, ?_, ?_, ?_, ?_, ?_, ?_, ?_, ?_, nofun⟩
  all_goals intro s l
  · exact State.take_framed rfl fun p => listInsertAction_frame p s
  · exact State.take_framed rfl fun p => listRemoveAction_frame p s
  · exact State.take_framed rfl fun p => listMoveAction_frame p s
  · exact State.take_framed rfl fun p => listClearAction_frame p s
  · exact State.take_framed rfl fun p => listShuffleAction_frame p s
  · exact State.take_framed rfl fun p => listGateAction_frame p s
  · exact State.take_framed rfl fun p => by rw [listReadAction_fst]; exact .refl s
  · exact State.take_framed rfl fun p => intakeHoldAction_frame p s
  · exact State.take_framed rfl fun p => seedAction_frame p s
  · exact State.take_framed rfl fun p => floorOpenAction_frame p s
  · exact State.take_framed rfl fun p => floorHaltAction_frame p s
  · exact State.take_framed rfl fun p => floorClearAction_frame p s
  · exact State.take_framed rfl fun p => grantAction_frame p s
  · exact State.take_framed rfl fun p => grantAction_frame p s
  · exact State.take_framed rfl fun p => closeAction_frame p s
  · exact State.take_framed rfl fun p => closeAction_frame p s
  · exact State.take_framed rfl fun p => .refl s
  · exact State.take_framed rfl fun p => policySetAction_frame p s
  · exact State.take_framed rfl fun p => .refl s
  · exact State.take_framed rfl fun p => extendAction_frame p s
  · exact State.take_framed rfl fun p => .refl s
  · exact State.take_framed rfl fun p => replyRemoveAction_frame p s
  · exact State.take_framed rfl fun p => replyEndAction_frame p s
  · exact State.take_framed rfl fun p => suspendAction_frame l p s
  · exact State.take_framed rfl fun p => resumeAction_frame p s
  · exact State.take_framed rfl fun p => by rw [stackReadAction_fst]; exact .refl s

/-! ### The frames of the passes (R18, R52, R76) -/

/-- An advance's pass on the floor, taken where it is due, keeps the floor's frame but for what is due. -/
theorem State.pass_framed {s t : State} {due : Prop} [Decidable due] {d : AdvanceDue} {body : Claim → Claim}
    (body_frame : ∀ c : Claim, c.st.FloorFrame (body c).st)
    (h : (Host.Outcome.next (if due then ({ s with due := d } : State).event body else s) : Host.Outcome State Fault Refusal) = .next t) :
    State.FloorFrame { s with due := t.due } t := by
  obtain rfl := Host.Outcome.next.inj h
  split
  · have frame := State.event_frame { s with due := d } body (body_frame (.start _))
    have due := frame.due
    generalize ({ s with due := d } : State).event body = u at *
    rw [show ({ s with due := u.due } : State) = { s with due := d } by rw [due]]
    exact frame
  · exact .refl s

theorem deadlinePass_framed {s t : State} (h : exec .deadlinePass s = .next t) : State.FloorFrame { s with due := t.due } t :=
  State.pass_framed (body := Claim.deadlinePass) (fun _ => Claim.deadlinePass_frame (.refl _)) h

theorem refusalEnd_framed {s t : State} (h : exec .refusalEnd s = .next t) : State.FloorFrame { s with due := t.due } t :=
  State.pass_framed (body := Claim.endRefusals) (fun _ => Claim.endRefusals_frame (.refl _)) h

theorem displacementCheck_framed {s t : State} (h : exec .displacementCheck s = .next t) : State.FloorFrame { s with due := t.due } t := by
  refine State.pass_framed (body := Claim.checkDisplacement) (fun c => ?_) h
  unfold Claim.checkDisplacement
  split <;> exact .refl _

/-! ### The table of the images (R16) -/

section Table

variable {s : State} {n : Nat}

/-- An unbound seat's image. -/
theorem State.image_unbound (unbound : (s.seat n).binding = none) : s.image n = ⟨false, .off⟩ := by
  unfold State.image
  dsimp only
  rw [unbound]
  rfl

/-- The image of a bound seat in a delegate slot. -/
theorem State.image_slot (bound : (s.seat n).binding ≠ none) {i : Fin 6} {d : DelegateSlot} (own : s.floor.slotOf n = some i)
    (slot : s.floor.slots[i] = some d) :
    s.image n = ⟨true, if d.overtime = true ∨ d.warnAt.any (reached s.time) = true then .warn else .live⟩ := by
  have isBound : ¬ (s.seat n).binding.isNone = true := by simpa using bound
  unfold State.image
  dsimp only
  rw [if_neg isBound, own]
  dsimp only
  rw [slot]
  simp only [Option.any_some, DelegateSlot.warned, Bool.or_eq_true]

/-- The image of a bound seat in a chair slot alone. -/
theorem State.image_chair (bound : (s.seat n).binding ≠ none) (slot : s.floor.slotOf n = none) (chair : s.floor.chairOf n ≠ none) :
    s.image n = ⟨true, .live⟩ := by
  have isBound : ¬ (s.seat n).binding.isNone = true := by simpa using bound
  unfold State.image
  dsimp only
  rw [if_neg isBound, slot]
  exact if_pos (Option.isSome_iff_ne_none.mpr chair)

end Table

/-- Settles O42: by the frames of the actions and of the passes, by the branches of the image, and by the law of the images under every
row. -/
theorem floorFrame : Obligations.FloorFrame := by
  unfold Obligations.FloorFrame
  refine ⟨floorRows_framed, fun s t h => ?_, fun s n => ⟨State.image_unbound, fun bound => ⟨fun i d => State.image_slot bound, fun slot => ?_⟩⟩,
    fun s t _ laws _ law h => step_pictured laws.waits h law⟩
  · rcases h with h | h | h
    · exact deadlinePass_framed h
    · exact displacementCheck_framed h
    · exact refusalEnd_framed h
  · refine ⟨State.image_chair bound slot, fun chair => ⟨fun t shown ahead => ?_, fun over_ => ?_⟩⟩
    · rw [State.image_listed bound slot chair, shown]
      exact if_pos (by simp [ahead])
    · rw [State.image_listed bound slot chair]
      refine if_neg fun refused => ?_
      obtain ⟨t, shown, ahead⟩ := (Option.any_eq_true _ _).mp refused
      rw [over_ t shown] at ahead
      exact nomatch ahead

end Sys2Proof.Machine
end
